-- ==== Sys2Proof/Word.lean ====
section
/-! DEFINITION. The word types of the model (spec/00 R6, R7). -/

namespace Sys2Proof

/-- One byte, the smallest addressable unit of every memory (R285). -/
abbrev Byte := BitVec 8
/-- A 16-bit word. -/
abbrev Word16 := BitVec 16
/-- A 32-bit register or element. -/
abbrev Word32 := BitVec 32
/-- A 64-bit register or protected memory word (R286). -/
abbrev Word64 := BitVec 64
/-- A pebble vector register (R237). -/
abbrev VecReg := BitVec 2048
/-- A pebble mask register, one bit for each possible lane (R237). -/
abbrev MaskReg := BitVec 256

end Sys2Proof
end

