-- ==== Sys2Proof/Syntax.lean ====
section
/-! DEFINITION. The commands of the block and the data they carry. No row of the table carries bits, so a command is a name
with its operands. Keys in operands: slab 8p + s, cluster 8p + k, pebble 8 × cluster + q, half 2p + h, cairn tile
16p + T, router 256p + unit, mesh tile 32p + 16h + 4 row + column, stack 5p + m, port 0 to 19; `cyc` is the job
cycle within the current beat. -/

namespace Sys2Proof

/-- A mailbox command as its ring delivers it (R437, R445): the 64 descriptor bytes and the input buffer.
`readFail` is the offset at which a host read failed, and the three flags are failures outside the device's control
of a flash write (R455), a fuse burn (R469) and a completion write (R442). -/
structure MbxCmd where
  ring : Nat
  desc : List Byte
  buffer : List Byte
  readFail : Option Nat
  auditFails : Bool
  burnFails : Bool
  cplFails : Bool
deriving DecidableEq, Repr

/-- The PCIe function an access comes through (R424, R425): host port 0 or 2, function 0 the PF, v + 1 VF v. -/
structure Access where
  port : Nat
  fn : Nat
deriving DecidableEq, Repr

/-- A routed packet (R352, R353): routing fields, payload bytes of all its flits, and the indices of poisoned payload words. -/
structure Packet where
  dest : Nat
  src : Nat
  part : Nat
  kind : Nat
  vc : Nat
  len : Nat
  fence : Bool
  esc : Bool
  payload : List Byte
  poison : List Nat
deriving DecidableEq, Repr

/-- What a MIRROR_PAIR carries, own or the peer's (R555). -/
structure MirrorCfg where
  mode : Nat
  interval : Nat
  partition : Nat
  side : Nat
  scl : Nat
  domain : Nat
  masterDev : Nat
  ranges : List (Nat × Nat)
deriving DecidableEq, Repr

/-- What a scrub read finds in a word (R286, R303). -/
inductive FoundErr where
  | clean
  | corrected
  | uncorrectable
deriving DecidableEq, Repr

/-- What a built-in test can find faulty (R540). -/
inductive FaultKind where
  | arrayLine
  | pebble
  | slab
  | cluster
  | essential
  | lane
  | hbmRow
  | stack
  | portMismatch
deriving DecidableEq, Repr

/-- A fault that a test found (R540, R541): `sub` is the array, pebble, lane or pseudo-channel, `spare` whether a spare remains, `row` the HBM bank and row. -/
structure TestFault where
  kind : FaultKind
  die : Nat
  index : Nat
  sub : Nat
  row : Nat
  spare : Bool
deriving DecidableEq, Repr

/-- One reading of a rail sensor (R491): mV, 10 mA, 0.1 W. -/
structure RailSense where
  rail : Nat
  voltage : Nat
  current : Nat
  power : Nat
deriving DecidableEq, Repr

/-- One temperature reading in 0.01 °C (R518, R519). -/
structure Reading where
  unit : Nat
  temp : Int
  failed : Bool
deriving DecidableEq, Repr

/-- A management or SPDM request (R476, R572 to R578): transport 0 SMBus, 1 or 2 the PCIe VDM of host port 0 or 2; the source endpoint ID, the
session it is secured under, and the message body after its code. -/
structure Message where
  transport : Nat
  eid : Nat
  session : Option Nat
  body : List Byte
deriving DecidableEq, Repr

/-- The commands of the block: one constructor per row of spec/opcode_table.json, with the rule that gives it. -/
inductive Instr where
  /-- R451: Mailbox command that returns the vital page, VitalId and BedrockStatus. -/
  | deviceInfo (c : MbxCmd)
  /-- R474: Mailbox command on ring 64 that enrols an Installer key into flash and an owner slot. -/
  | ownershipTake (c : MbxCmd)
  /-- R296: Installer command that checks and creates a partition, its HBM regions, barrier channels and ring grants, then starts zero-filling the regions. -/
  | partitionCreate (c : MbxCmd)
  /-- R296: The zero-fill of the new regions ends and PARTITION_CREATE completes. -/
  | partitionFillDone (partition : Nat)
  /-- R451: Installer command that clears a partition's SRAM and frees its regions, channels and rings. -/
  | partitionDestroy (c : MbxCmd)
  /-- R234: Command that checks a schedule image in order and two passes, then writes it into the partition and binds its contexts. -/
  | imageLoad (c : MbxCmd)
  /-- R36: Command that accepts a job for a partition, checking beat state, ports, Seam mode, oppoints and the start beat. -/
  | jobStart (c : MbxCmd)
  /-- R35: At the first unheld beat at or after the start beat, the job starts: job-beat counter 0, contexts reset and slot tables take effect. -/
  | jobStartBeat (partition : Nat)
  /-- R451: Command that stops a partition's job at the next beat edge and completes when draining ends. -/
  | jobStop (c : MbxCmd)
  /-- R332: The last signal of a stopped or ended partition is resolved, draining ends and a waiting JOB_STOP completes. -/
  | partitionDrainEnd (partition : Nat)
  /-- R453: Command that returns the state, cause and beats of a partition's job. -/
  | jobStatus (c : MbxCmd)
  /-- R454: When a job started with NOTIFY ends or stops, Bedrock posts a notice once a completion entry is free. -/
  | noticePost (partition : Nat)
  /-- R55: Installer command that sets the beat role, source, hold cap, domain and port mask. -/
  | beatConfig (c : MbxCmd)
  /-- R419: Installer command that writes a vein port's LinkConfig: enable, maximum width, mate mark, auto-retry. -/
  | linkConfig (c : MbxCmd)
  /-- R351: FABRIC_POLICY with SELECT SELF sets the device number in RouteSelf. -/
  | fabricPolicySelf (c : MbxCmd)
  /-- R381: FABRIC_POLICY with SELECT PARTITION sets control-message priority and routed timeout of a partition. -/
  | fabricPolicyPartition (c : MbxCmd)
  /-- R339: FABRIC_POLICY with SELECT BARRIER_TREE writes BarrierTree of a channel. -/
  | fabricPolicyBarrierTree (c : MbxCmd)
  /-- R435: FABRIC_POLICY with SELECT APERTURE writes an ApertureWindow. -/
  | fabricPolicyAperture (c : MbxCmd)
  /-- R375: Installer command that checks new device, local or reduce table entries, holds affected traffic and starts the drain. -/
  | routeTableSet (c : MbxCmd)
  /-- R375: At the beat edge after no affected traffic remains, the new entries are written everywhere and the held packets released. -/
  | routeDrainDone
  /-- R375: DRAIN_US expires with traffic left; held packets go under old entries and the command completes with TIMEOUT. -/
  | routeDrainTimeout
  /-- R502: POWER_POLICY_SET with SELECT CAP sets the device power cap. -/
  | powerPolicyCap (c : MbxCmd)
  /-- R502: POWER_POLICY_SET with SELECT SHARE_ORDER sets the throttling order of domains. -/
  | powerPolicyShareOrder (c : MbxCmd)
  /-- R28: POWER_POLICY_SET with SELECT DEEP_IDLE enables or disables deep idle. -/
  | powerPolicyDeepIdle (c : MbxCmd)
  /-- R502: POWER_POLICY_SET with SELECT GRAVEL sets GRAVEL_EN per slab, SLOPE and FLOOR. -/
  | powerPolicyGravel (c : MbxCmd)
  /-- R312: POWER_POLICY_SET with SELECT SCRUB writes ScrubConfig. -/
  | powerPolicyScrub (c : MbxCmd)
  /-- R498: Installer command that replaces the table of operating points. -/
  | oppointTableSet (c : MbxCmd)
  /-- R509: Installer command that sets, replaces or removes a ranked guarantee of a partition. -/
  | guaranteeSet (c : MbxCmd)
  /-- R516: Command that returns a partition's energy counter and the beat of the reading. -/
  | energyRead (c : MbxCmd)
  /-- R451: Command that copies MMIO registers into a host buffer, each 64-bit register consistently. -/
  | telemetryRead (c : MbxCmd)
  /-- R451: Command that returns event or audit records from a sequence number. -/
  | logRead (c : MbxCmd)
  /-- R471: Command that writes a firmware image into an inactive bank and verifies it from flash. -/
  | fwStage (c : MbxCmd)
  /-- R563: Command that pauses mailbox service and schedules the switch to new firmware in a verified bank. -/
  | fwActivate (c : MbxCmd)
  /-- R563: At the beat edge, P0's Bedrock loads the new body, resumes from the journal, writes the active-bank record and completes FW_ACTIVATE. -/
  | fwActivateTakeover
  /-- R563: After activation on P0, each of P2, P1 and P3 in turn switches to the new firmware. -/
  | fwSwitchDie (die : Nat)
  /-- R563: New firmware does not serve within 250 ms; P2's old firmware takes over and FW_ACTIVATE completes with INTERNAL. -/
  | fwActivateTimeout
  /-- R564: Installer command that starts live recalibration of a port, stack or rail monitor. -/
  | calRun (c : MbxCmd)
  /-- R564: A live recalibration ends, writes the calibration cache and completes. -/
  | calRunDone (kind index : Nat) (ratioOk : Bool)
  /-- R452: Command that retires a unit permanently, recorded for the next boot. -/
  | unitRetire (c : MbxCmd)
  /-- R452: Command that takes a unit out of service without recording it for the next boot. -/
  | unitDisable (c : MbxCmd)
  /-- R554: Command that returns a disabled unit to service at the next beat edge. -/
  | unitEnable (c : MbxCmd)
  /-- R452: A retired or disabled slab, array or vein port leaves service at its pass boundary or beat edge; capability words change and the command completes. -/
  | unitLeaveService (kind index sub : Nat)
  /-- R277: When the holding partition has no running job, a retired pebble's name moves to the spare or names are reassigned. -/
  | pebbleRemap (cluster name : Nat)
  /-- R306: The copy of a retired pseudo-channel into the reserve ends and the new mapping takes effect at the next beat edge. -/
  | hbmRetireCopyDone (stack : Nat)
  /-- R452: When no lockstep cursor uses the channel, its pseudo-channels are retired into the reserve or become unbacked. -/
  | hbmChRetireEffect (stack channel : Nat)
  /-- R555: Installer command that forms, or with MODE NONE ends, a mirrored pair. -/
  | mirrorPair (c : MbxCmd)
  /-- R555: The peer's MIRROR_PAIR handshake arrives over the mate link and the pair forms. -/
  | mirrorHandshake (uid : Nat) (h : MirrorCfg)
  /-- R555: No peer handshake within 1 s; MIRROR_PAIR completes with TIMEOUT. -/
  | mirrorHandshakeTimeout
  /-- R343: Command that sets a physical cairn on port 3 and writes an audit record. -/
  | cairnSet (c : MbxCmd)
  /-- R581: Command that checks an Assay parameter block and applies it at the next beat edge. -/
  | assayConfig (c : MbxCmd)
  /-- R469: Maker command that burns key revocations, SVN, owner revocations, debug disable, repair or variant fuses. -/
  | fuseProgram (c : MbxCmd)
  /-- R451: Maker command that reads or writes any register by DPA. -/
  | regAccess (c : MbxCmd)
  /-- R488: Maker command that checks a signed token and unlocks debug scopes on all dies. -/
  | debugUnlock (c : MbxCmd)
  /-- R440: Bedrock fetches the next pending descriptor of a ring once its completion ring has room, checks it and executes it. -/
  | descriptorFetch (ring : Nat) (fetched : Option MbxCmd)
  /-- R442: Write of MbxDoorbell.TAIL that makes descriptors pending, or errors the ring. -/
  | mbxDoorbell (a : Access) (ring value : Nat)
  /-- R440: Write of MbxCplDoorbell.CPL_HEAD that frees completion entries. -/
  | mbxCplDoorbell (a : Access) (ring value : Nat)
  /-- R439: Write of ENABLE = 1 that binds a ring to its port, resets indices and starts it. -/
  | mbxEnableSet (a : Access) (ring value : Nat)
  /-- R443: Write of ENABLE = 0 that disables a ring after its executing command. -/
  | mbxEnableClear (a : Access) (ring value : Nat)
  /-- R456: Write of EvtDoorbell.HEAD that frees event-ring entries. -/
  | evtDoorbell (a : Access) (value : Nat)
  /-- R438: Write of EvtControl.ENABLE that starts or stops the event ring. -/
  | evtEnableSet (a : Access) (value : Nat)
  /-- R585: Write of AssayFeed with VALID that feeds one byte to an Assay unit. -/
  | assayFeedByte (a : Access) (die unit value : Nat)
  /-- R585: Write of AssayFeed with FINISH that closes a FEED interval. -/
  | assayFeedFinish (a : Access) (die unit value : Nat)
  /-- R9: Write to any other register, applying access type, writer and reserved-bit rules. -/
  | registerWrite (a : Access) (offset size value : Nat)
  /-- R435: A host read or write through BAR2 is translated by its window and checked by the firewall. -/
  | apertureAccess (a : Access) (write : Bool) (offset : Nat) (bytes : List Byte)
  /-- R427: Assertion of PERST0_N or PERST2_N resets that port's link and disables its rings. -/
  | perstAssert (hostPort : Nat)
  /-- R427: FLR of a function resets its configuration and disables its rings. -/
  | functionLevelReset (a : Access)
  /-- R527: RESET_N low for 1 µs stops the device at once. -/
  | resetNAssert
  /-- R525: Release of RESET_N starts a whole reset and stage 0 of boot. -/
  | resetNRelease (lowNs : Nat) (hotSensor : Option Nat)
  /-- R526: Self-initiated whole reset: cause recorded, transmitters stopped, stacks in self-refresh, dies held in reset. -/
  | selfReset (cause : Nat)
  /-- R526: After 1 ms of internal reset, stage 0 starts as though RESET_N were released. -/
  | selfResetHoldEnd
  /-- R565: PWR_FAIL_N low stops flash writes, ring service and every job at the next beat edge. -/
  | pwrFailAssert
  /-- R565: PWR_FAIL_N returns high without RESET_N; the device stays stopped. -/
  | pwrFailDeassert
  /-- R530: Stage 0 ends: always-on domains locked, rails and fuses checked, PCIe logic up. -/
  | stageAlwaysOnDone (ms : Nat) (railsOk fusesOk : Bool) (cacheDays : Nat) (tj : Int)
  /-- R472: Stage 1 ends: a bank verified and loaded, Bedrock started. -/
  | stageFirmwareDone (ms : Nat)
  /-- R534: Stage 2 ends: other dies released, firmware broadcast, Lodestone identity fixed, standby set up. -/
  | stageDiesDone (ms : Nat) (diePos : List (Option Nat)) (bodyFails : List Nat)
  /-- R539: Stage 3 ends: clocks started, repairs applied, on-die tests run and SRAM zeroed. -/
  | stageBistDone (ms : Nat) (ranFull : Bool) (faults : List TestFault)
  /-- R530: Stage 4 ends: stacks trained, tested and repaired. -/
  | stageHbmDone (ms : Nat) (ranFull : Bool) (faults : List TestFault)
  /-- R530: Stage 5 ends: lanes tested and every D2D link active. -/
  | stageSerdesDone (ms : Nat) (ranFull : Bool) (faults : List TestFault)
  /-- R546: Stage 6: capability words, configuration restore, region fill, boot record, READY and ring service. -/
  | stageConfigDone (ms : Nat)
  /-- R530: A boot stage reaches its deadline and ends with its failure result. -/
  | bootStageDeadline
  /-- R43: Local beat edge: header sent on every port, master decides a hold, job beats advance and BEAT_OUT pulses. -/
  | beatEdge (slips : List Nat)
  /-- R42: A beat header arrives in slot 0 and is validated, used for alignment, holds and the join procedure. -/
  | beatHeaderReceive (port : Nat) (payload : List Byte) (fecOk : Bool) (err : Int)
  /-- R51: After 64 beats, a locked follower moves its edge one fine-phase step toward zero mean error. -/
  | alignStep
  /-- R62: Four beats pass without a valid header; the follower enters LOST and stops lockstep partitions. -/
  | headersMissingCount
  /-- R52: Parent fails two headers; the follower takes another eligible port as parent at the next edge. -/
  | parentSwitch
  /-- R53: Not LOCKED within 1,024 beats: STATE LOST with a cause and EV_BEAT_LOSS. -/
  | joinTimeout
  /-- R53: 1,024 beats after a join timeout, the follower starts the join again. -/
  | joinRestart
  /-- R54: Headers disagree on MASTER_DEVICE for 4 beats; EV_BEAT_LOSS with MASTER_CONFLICT. -/
  | masterConflictExpiry
  /-- R46: A rising edge on BEAT_IN places the master's beat edge, or is ignored if off time. -/
  | beatInEdge (offset : Int)
  /-- R47: An expected BEAT_IN edge does not come; after 4 the master falls back to REFCLK division. -/
  | beatInMissing
  /-- R506: Every 100 µs while h > 0 the device sends a hold request to the beat master. -/
  | holdRequestTimer
  /-- R58: A HOLD packet reaches the beat master and replaces that device's request. -/
  | hold (p : Packet)
  /-- R28: With deep idle enabled and no running or draining job, the device begins entering deep idle. -/
  | deepIdleEntry
  /-- R29: A 64-beat entry or exit of deep idle completes. -/
  | deepIdleTransitionDone
  /-- R29: The 4,096 beats of staying awake after a rejected lockstep start end. -/
  | deepIdleAwakeExpiry
  /-- R89: At the edge after a frequency change request, the Seam enters CHANGING and the half's clock relocks. -/
  | seamChangeStart (die : Nat)
  /-- R89: At E + 14 beats the Seam FIFOs reset and MODE becomes MESO or ASYNC. -/
  | seamChangeEnd (die : Nat)
  /-- R499: At the job beat of an OPPOINTS entry, the new point's cap, offset or frequency takes effect. -/
  | oppointChange (partition : Nat)
  /-- R106: Slab PASS issues when its conditions hold and streams its activation rows through the arrays. -/
  | pass (slab x cyc : Nat)
  /-- R204: A pass's last entry holds its value; the pass completes and applies its signal. -/
  | passComplete (slab x cyc : Nat)
  /-- R194: Slab STREAK command issues and streams weight groups against activation rows. -/
  | streak (slab x cyc : Nat)
  /-- R196: The Streak unit becomes free and selects the next Streak command. -/
  | streakUnitFree (slab cyc : Nat)
  /-- R204: A Streak command's last entry holds its value at c + D + 39. -/
  | streakComplete (slab x cyc : Nat)
  /-- R179: Slab DRAIN issues when the drain port is free and reads, transforms and writes accumulator rows. -/
  | drain (slab x cyc : Nat)
  /-- R204: A drain's last row is written and the drain completes. -/
  | drainComplete (slab x cyc : Nat)
  /-- R203: Slab DMA command dispatches a descriptor into its context's queue. -/
  | dma (slab x cyc : Nat)
  /-- R203: Slab SYNC command dispatches its wait and signal only. -/
  | sync (slab x cyc : Nat)
  /-- R334: Slab BARRIER command arrives for its round and dispatches at release. -/
  | barrier (slab x cyc : Nat)
  /-- R216: Slab BASE command sets a base register and stride. -/
  | base (slab x cyc : Nat)
  /-- R216: Slab LOOP command opens a loop body with count and step mask. -/
  | loop (slab x cyc : Nat)
  /-- R203: Slab NOP command takes one cycle. -/
  | nop (slab x cyc : Nat)
  /-- R204: Slab END command dispatches, ending the stream. -/
  | slabEnd (slab x cyc : Nat)
  /-- R204: After END and every earlier command complete and signals resolve, the slab context's task is finished. -/
  | slabTaskFinish (slab x cyc : Nat)
  /-- R227: A DMA channel takes a descriptor once earlier work and bank readers allow. -/
  | dmaDescStart (slab channel cyc : Nat)
  /-- R227: A skew DMA descriptor completes and applies its signal. -/
  | dmaDescComplete (slab channel cyc : Nat)
  /-- R78: A valid slot-table entry moves its lanes from IN to OUT in its cycles of a job beat. -/
  | slotEntryFire (tile entry cyc : Nat)
  /-- R302: The HBM controller issues a scheduled read 160 ns ahead into the prefetch buffer. -/
  | hbmScheduledRead (tile entry cyc : Nat)
  /-- R513: Every 64 job cycles the slab updates G0 and moves its gravel level toward target. -/
  | gravelWindow (slab cyc : Nat)
  /-- R253: Vector add. -/
  | vAdd (pebble x cyc : Nat)
  /-- R253: Vector subtract. -/
  | vSub (pebble x cyc : Nat)
  /-- R253: Vector multiply. -/
  | vMul (pebble x cyc : Nat)
  /-- R253: Vector fused multiply-add with one rounding. -/
  | vFma (pebble x cyc : Nat)
  /-- R253: Vector fused multiply-subtract with one rounding. -/
  | vFms (pebble x cyc : Nat)
  /-- R253: Vector minimum. -/
  | vMin (pebble x cyc : Nat)
  /-- R253: Vector maximum. -/
  | vMax (pebble x cyc : Nat)
  /-- R253: Vector absolute value. -/
  | vAbs (pebble x cyc : Nat)
  /-- R253: Vector negate. -/
  | vNeg (pebble x cyc : Nat)
  /-- R252: Vector move of operand b. -/
  | vMov (pebble x cyc : Nat)
  /-- R252: Vector bitwise AND. -/
  | vAnd (pebble x cyc : Nat)
  /-- R252: Vector bitwise OR. -/
  | vOr (pebble x cyc : Nat)
  /-- R252: Vector bitwise XOR. -/
  | vXor (pebble x cyc : Nat)
  /-- R252: Vector shift left by AUX. -/
  | vShl (pebble x cyc : Nat)
  /-- R252: Vector arithmetic shift right by AUX. -/
  | vShra (pebble x cyc : Nat)
  /-- R252: Vector logical shift right by AUX. -/
  | vShrl (pebble x cyc : Nat)
  /-- R254: Compare equal into a mask. -/
  | vCmpEq (pebble x cyc : Nat)
  /-- R254: Compare not equal into a mask. -/
  | vCmpNe (pebble x cyc : Nat)
  /-- R254: Compare less than into a mask. -/
  | vCmpLt (pebble x cyc : Nat)
  /-- R254: Compare less or equal into a mask. -/
  | vCmpLe (pebble x cyc : Nat)
  /-- R254: Compare greater than into a mask. -/
  | vCmpGt (pebble x cyc : Nat)
  /-- R254: Compare greater or equal into a mask. -/
  | vCmpGe (pebble x cyc : Nat)
  /-- R254: Compare unordered into a mask. -/
  | vCmpUnord (pebble x cyc : Nat)
  /-- R252: Mask AND. -/
  | vMand (pebble x cyc : Nat)
  /-- R252: Mask OR. -/
  | vMor (pebble x cyc : Nat)
  /-- R252: Mask XOR. -/
  | vMxor (pebble x cyc : Nat)
  /-- R252: Mask AND NOT. -/
  | vMandn (pebble x cyc : Nat)
  /-- R262: Correctly rounded exponential. -/
  | vExp (pebble x cyc : Nat)
  /-- R262: Correctly rounded natural logarithm. -/
  | vLog (pebble x cyc : Nat)
  /-- R262: Correctly rounded reciprocal. -/
  | vRcp (pebble x cyc : Nat)
  /-- R262: Correctly rounded reciprocal square root. -/
  | vRsqrt (pebble x cyc : Nat)
  /-- R257: Format conversion from TYPE to TYPE2 with block scales. -/
  | vCvt (pebble x cyc : Nat)
  /-- R255: Fixed-tree sum reduction of enabled lanes. -/
  | vRsum (pebble x cyc : Nat)
  /-- R255: Fixed-tree maximum reduction. -/
  | vRmax (pebble x cyc : Nat)
  /-- R255: Fixed-tree minimum reduction. -/
  | vRmin (pebble x cyc : Nat)
  /-- R256: Broadcast one lane to enabled lanes. -/
  | vSplat (pebble x cyc : Nat)
  /-- R256: Shift lanes up by n. -/
  | vShup (pebble x cyc : Nat)
  /-- R256: Shift lanes down by n. -/
  | vShdn (pebble x cyc : Nat)
  /-- R256: Select lanes from VA or VB by mask. -/
  | vSel (pebble x cyc : Nat)
  /-- R256: Swap adjacent lane pairs. -/
  | vSwap2 (pebble x cyc : Nat)
  /-- R256: Pack trit digits five per byte. -/
  | vPack5 (pebble x cyc : Nat)
  /-- R256: Unpack trit bytes into digit lanes. -/
  | vUnpack5 (pebble x cyc : Nat)
  /-- R269: Vector load of 256 bytes from cluster memory once banks are granted. -/
  | vLd (pebble x cyc : Nat)
  /-- R269: Vector store to cluster memory. -/
  | vSt (pebble x cyc : Nat)
  /-- R264: Summary: any enabled mask bit set. -/
  | vSumAny (pebble x cyc : Nat)
  /-- R264: Summary: all enabled mask bits set. -/
  | vSumAll (pebble x cyc : Nat)
  /-- R264: Summary: count of set enabled mask bits. -/
  | vSumCount (pebble x cyc : Nat)
  /-- R264: Summary: lowest set enabled lane. -/
  | vSumFirst (pebble x cyc : Nat)
  /-- R264: Summary: largest enabled lane value into a scalar. -/
  | vSumMax (pebble x cyc : Nat)
  /-- R266: Scalar add. -/
  | sAdd (pebble x cyc : Nat)
  /-- R266: Scalar subtract. -/
  | sSub (pebble x cyc : Nat)
  /-- R266: Scalar AND. -/
  | sAnd (pebble x cyc : Nat)
  /-- R266: Scalar OR. -/
  | sOr (pebble x cyc : Nat)
  /-- R266: Scalar XOR. -/
  | sXor (pebble x cyc : Nat)
  /-- R266: Scalar shift left. -/
  | sShl (pebble x cyc : Nat)
  /-- R266: Scalar logical shift right. -/
  | sShr (pebble x cyc : Nat)
  /-- R266: Scalar arithmetic shift right. -/
  | sSra (pebble x cyc : Nat)
  /-- R266: Scalar multiply, low 64 bits. -/
  | sMul (pebble x cyc : Nat)
  /-- R266: Scalar signed minimum. -/
  | sMin (pebble x cyc : Nat)
  /-- R266: Scalar signed maximum. -/
  | sMax (pebble x cyc : Nat)
  /-- R266: Scalar load of upper immediate. -/
  | sLui (pebble x cyc : Nat)
  /-- R266: Branch if equal. -/
  | sBeq (pebble x cyc : Nat)
  /-- R266: Branch if not equal. -/
  | sBne (pebble x cyc : Nat)
  /-- R266: Branch if less, signed. -/
  | sBlt (pebble x cyc : Nat)
  /-- R266: Branch if greater or equal, signed. -/
  | sBge (pebble x cyc : Nat)
  /-- R266: Branch if less, unsigned. -/
  | sBltu (pebble x cyc : Nat)
  /-- R266: Branch if greater or equal, unsigned. -/
  | sBgeu (pebble x cyc : Nat)
  /-- R266: Branch if less as FP32. -/
  | sBflt (pebble x cyc : Nat)
  /-- R266: Branch if greater or equal as FP32. -/
  | sBfge (pebble x cyc : Nat)
  /-- R266: Unconditional jump. -/
  | sJ (pebble x cyc : Nat)
  /-- R266: Scalar 64-bit load from cluster memory. -/
  | sLd (pebble x cyc : Nat)
  /-- R266: Scalar 64-bit store to cluster memory. -/
  | sSt (pebble x cyc : Nat)
  /-- R322: Pebble consume-wait registers on a cairn and parks if unsatisfied. -/
  | waitC (pebble x cyc : Nat)
  /-- R322: Pebble observe-wait registers on a cairn and parks if unsatisfied. -/
  | waitO (pebble x cyc : Nat)
  /-- R327: Pebble SIGNAL raises a cairn increment, locally or as a routed message. -/
  | sSignal (pebble x cyc : Nat)
  /-- R334: Pebble BARRIER arrives for its round and parks until release. -/
  | sBarrier (pebble x cyc : Nat)
  /-- R266: Pebble FENCE parks until stores are visible and streams complete. -/
  | fence (pebble x cyc : Nat)
  /-- R243: Pebble END ends the context's program. -/
  | sEnd (pebble x cyc : Nat)
  /-- R266: Pebble no-operation. -/
  | sNop (pebble x cyc : Nat)
  /-- R271: Pebble S.STREAM dispatches a stream descriptor into its channel's queue. -/
  | stream (pebble x cyc : Nat)
  /-- R241: A context parked on FENCE returns to RUNNING when its stores and streams are done. -/
  | fenceSatisfied (pebble x cyc : Nat)
  /-- R243: After END and every earlier instruction, store and stream complete, the context enters NO_TASK. -/
  | pebbleTaskFinish (pebble x cyc : Nat)
  /-- R271: A cluster stream channel starts a descriptor after the previous one completes. -/
  | streamDescStart (cluster channel cyc : Nat)
  /-- R271: A stream descriptor completes and applies its signal. -/
  | streamDescComplete (cluster channel cyc : Nat)
  /-- R325: A cairn wait expires at a beat edge; the waiter is removed and its context stops. -/
  | cairnWaitTimeout (tile id : Nat)
  /-- R332: A routed signal's acknowledgement does not return within the wait timeout; it counts as resolved with SIGNAL_LOST. -/
  | signalAckTimeout (tag : Nat)
  /-- R335: A barrier round completes on a die and its members are released, with rebases applied. -/
  | barrierRoundRelease (die channel cyc : Nat)
  /-- R340: A lockstep round is not complete by its release beat; EV_BARRIER_TIMEOUT LATE and the partition stops. -/
  | barrierLate (die channel : Nat)
  /-- R341: A barrier round's timer expires; the channel goes dead and parked members stop. -/
  | barrierTimeout (die channel : Nat)
  /-- R355: A routed packet reaches a router, which looks it up, checks it and forwards it by XY, tables or hub ring. -/
  | routedPacketArrive (router inPort cyc : Nat) (p : Packet)
  /-- R366: Routed WRITE delivered at its destination, applying any riding signal, then answered with ACK. -/
  | write (router cyc : Nat) (p : Packet)
  /-- R366: Routed READ served at its destination and answered with DATA. -/
  | read (router cyc : Nat) (p : Packet)
  /-- R366: Read response arrives at its requester and fills the waiting bank or memory. -/
  | data (router cyc : Nat) (p : Packet)
  /-- R366: Acknowledgement arrives at its source and answers an outstanding request or signal. -/
  | ack (router cyc : Nat) (p : Packet)
  /-- R328: Routed SIGNAL applies on port 2 of its target cairn, or is discarded as orphan or blocked. -/
  | signal (router cyc : Nat) (p : Packet)
  /-- R373: REDUCE packet fills a node slot; when all slots of a TAG fill, the node sums and forwards. -/
  | reduce (router cyc : Nat) (p : Packet)
  /-- R360: A head that waits 256 router cycles moves whole to VC3 or VC1. -/
  | escapeTimer (router inPort vc cyc : Nat)
  /-- R367: A READ, WRITE or REDUCE gets no answer within ROUTED_TIMEOUT_US and completes poisoned. -/
  | routedTimeout (tag : Nat)
  /-- R374: A partly filled reduction TAG times out and is sent with every word poisoned. -/
  | reduceTagTimeout (hub group tag : Nat)
  /-- R363: A control-ring message reaches its stop and leaves if the queue has room, else circles. -/
  | controlRingMessage (die src dest id : Nat) (uncorrectable : Bool)
  /-- R392: A flit arrives on a link and is handled by its slot: header, guard, scheduled or routed, with SYNC and credits. -/
  | flitReceive (port slot : Nat) (bytes : List Byte)
  /-- R395: NAK CTRL flit received; the sender answers with REPLAY and resends that VC's flits. -/
  | nak (port : Nat) (payload : List Byte)
  /-- R395: REPLAY CTRL flit received; held flits are discarded or forwarded and replayed flits accepted. -/
  | replay (port : Nat) (payload : List Byte)
  /-- R396: No REPLAY within 4 µs; the NAK is resent, and the third unanswered NAK retrains. -/
  | nakResendTimer (port : Nat)
  /-- R415: At T_rel a scheduled flit's payload is released into the inbound FIFO, poisoned if not decoded. -/
  | schedFlitRelease (port slot : Nat)
  /-- R414: A scheduled TX slot takes 240 bytes from the outbound FIFO. -/
  | linkTxSlot (port slot : Nat)
  /-- R409: A receive lane loses CDR lock and the port retrains. -/
  | cdrLoss (port : Nat)
  /-- R398: A training block arrives and drives the LOCK to READY stages. -/
  | trainingBlockReceive (port lane : Nat) (bytes : List Byte) (localTime : Nat) (localDone : Bool)
  /-- R406: A training stage misses its deadline; the attempt fails and after 3 the port goes DOWN. -/
  | trainingStageDeadline (port : Nat)
  /-- R404: CHK not confirmed within 1 ms; the exchange repeats, then the fixed 4-lane set applies. -/
  | widthConfirmTimeout (port : Nat)
  /-- R406: At the first beat edge after LATENCY the port becomes ACTIVE and starts flits at slot 0. -/
  | portActive (port : Nat)
  /-- R407: Every 10 s a DOWN port with AUTO_RETRY starts a new series of attempts. -/
  | portDownRetry (port : Nat)
  /-- R408: No signal on any lane for 100 µs; the port enters WAIT_PEER. -/
  | peerSilence (port : Nat)
  /-- R418: The mate port in use leaves ACTIVE; mate traffic moves at the next beat edge. -/
  | matePortSwitch
  /-- R288: A queued corrected or poisoned write-back lands in a cycle its bank is free. -/
  | eccWriteback
  /-- R303: Patrol scrub reads a word or granule and corrects or poisons it. -/
  | patrolScrubRead (die word : Nat) (found : FoundErr)
  /-- R313: A scrub pass completes, counting passes and flagging LATE. -/
  | scrubPassEnd (die : Nat) (hbm : Bool)
  /-- R304: A failing HBM row is copied into a spare row in the reserved window. -/
  | softRepair (stack pc bank row : Nat) (ok : Bool)
  /-- R305: A qualifying pseudo-channel is retired by Bedrock or retirement is advised. -/
  | autoRetire (stack pc : Nat)
  /-- R307: An HBM channel starts retraining while other channels run. -/
  | hbmChannelRetrain (stack channel : Nat)
  /-- R307: A 5 ms retrain attempt ends; success poisons logged granules, two failures take the channel out. -/
  | hbmRetrainAttemptEnd (stack : Nat) (trained : Bool)
  /-- R501: Every 1 µs rail power is estimated and energy counters are divided. -/
  | powerEstimateTick (raw gravel : List Nat) (activity : List (Nat × Nat)) (sensed : List RailSense)
  /-- R501: Every 100 ms each rail's coefficients are rescaled to sensed energy. -/
  | coeffRecal (energies : List Nat)
  /-- R503: Every 10 µs the power controller throttles or releases one level. -/
  | controlStep
  /-- R508: Each second of a throttle beyond 1 s, EV_POWER_CAP repeats. -/
  | throttleRepeat
  /-- R507: Holds at the cap fail for 100 ms; HOLD_LIMIT and lockstep partitions stop. -/
  | holdLimitExpiry
  /-- R512: A 100 ms or 4,096-beat window ends and guarantee breaches are judged. -/
  | guaranteeWindowEnd (partition kind : Nat)
  /-- R495: Every 100 ms Bedrock reads each half's worst margin and adjusts TRIM. -/
  | marginReading (half margin : Nat)
  /-- R496: A monitor falls below EMERG and TRIM rises by 10 mV. -/
  | marginEmergency (half : Nat)
  /-- R490: A regulator does not acknowledge within 1 ms; repeated twice, then REGULATOR. -/
  | avsSetpointTimeout (half : Nat)
  /-- R518: Every 100 µs every die sensor is sampled and Tj formed. -/
  | tempSample (readings : List Reading)
  /-- R518: Every 1 ms each HBM stack's temperature is read. -/
  | stackTempRead (readings : List Reading)
  /-- R520: The thermal cap falls every 1 ms while hot and rises every 10 ms once cool. -/
  | thermalCapTick
  /-- R521: Each second above 105 °C is counted and reported. -/
  | overLimitTick
  /-- R522: A sensor reaches 120 °C or a stack 105 °C; THERM_TRIP_N asserts and everything stops. -/
  | thermalTrip (stack : Bool) (unit : Nat) (temp : Int)
  /-- R522: The always-on domain writes EV_THERMAL_TRIP to the flash event log. -/
  | thermalTripLog
  /-- R517: Once per second Bedrock commits energy counters to flash. -/
  | energyCommit
  /-- R568: Every 64 records or 1 s, held events are flushed to the flash event log. -/
  | eventLogFlush
  /-- R432: Each millisecond the primary adds one to BedrockHeartbeat. -/
  | heartbeatTick
  /-- R459: The primary's watchdog expires; P2 takes over or the device resets. -/
  | primaryWatchdogExpiry
  /-- R459: After journal replay, P2 becomes primary and resumes service. -/
  | takeoverResume
  /-- R459: P0's Bedrock restarts from flash, verifies and becomes standby. -/
  | standbyRestartDone (ok : Bool)
  /-- R461: A P1 or P3 Bedrock watchdog expires and it restarts in place. -/
  | subdieWatchdogExpiry (die : Nat)
  /-- R461: A restarted P1 or P3 Bedrock returns and waiting commands complete. -/
  | subdieRestartDone (die : Nat)
  /-- R461: A P1 or P3 Bedrock is not back in 2 s; waiting commands complete with INTERNAL. -/
  | subdieRestartTimeout (die : Nat)
  /-- R479: A session with no accepted traffic for 30 minutes closes. -/
  | sessionIdleTimeout (maker : Bool)
  /-- R476: SPDM GET_VERSION request. -/
  | getVersion (m : Message)
  /-- R476: SPDM GET_CAPABILITIES request. -/
  | getCapabilities (m : Message)
  /-- R476: SPDM NEGOTIATE_ALGORITHMS request. -/
  | negotiateAlgorithms (m : Message)
  /-- R476: SPDM GET_DIGESTS request. -/
  | getDigests (m : Message)
  /-- R483: SPDM GET_CERTIFICATE request returning the slot 0 chain. -/
  | getCertificate (m : Message)
  /-- R476: SPDM CHALLENGE request. -/
  | challenge (m : Message)
  /-- R483: SPDM GET_MEASUREMENTS returning measurement indices 1 to 7. -/
  | getMeasurements (m : Message)
  /-- R476: SPDM KEY_EXCHANGE with mutual authentication that opens an Installer or Maker session. -/
  | keyExchange (m : Message)
  /-- R476: SPDM FINISH completing session establishment. -/
  | finish (m : Message)
  /-- R479: SPDM END_SESSION closes a session. -/
  | endSession (m : Message)
  /-- R476: SPDM KEY_UPDATE of session keys. -/
  | keyUpdate (m : Message)
  /-- R480: SPDM vendor request code 0x01 that sets the wall time. -/
  | vendorDefinedRequest (m : Message)
  /-- R572: MCTP control command setting the endpoint ID. -/
  | setEndpointId (m : Message)
  /-- R572: MCTP control command returning the endpoint ID. -/
  | getEndpointId (m : Message)
  /-- R572: MCTP control command returning the endpoint UUID. -/
  | getEndpointUuid (m : Message)
  /-- R572: MCTP control command returning supported versions. -/
  | getMctpVersionSupport (m : Message)
  /-- R572: MCTP control command returning supported message types. -/
  | getMessageTypeSupport (m : Message)
  /-- R572: MCTP control command returning vendor-defined message support. -/
  | getVendorDefinedMsgSupport (m : Message)
  /-- R572: A partial MCTP message with no packet for 100 ms is discarded. -/
  | mctpAssemblyTimeout (transport eid mtype : Nat)
  /-- R570: The device loses arbitration as master and retries up to 3 times. -/
  | smbusArbitrationLoss
  /-- R576: The device returns its address on the Alert Response Address and releases ALERT_N. -/
  | smbusAlertResponse
  /-- R574: PLDM GetTID. -/
  | getTid (m : Message)
  /-- R574: PLDM GetPLDMVersion. -/
  | getPldmVersion (m : Message)
  /-- R574: PLDM GetPLDMTypes. -/
  | getPldmTypes (m : Message)
  /-- R574: PLDM GetPLDMCommands. -/
  | getPldmCommands (m : Message)
  /-- R574: PLDM SetEventReceiver names the receiver of platform events. -/
  | setEventReceiver (m : Message)
  /-- R575: PLDM GetSensorReading of a numeric sensor. -/
  | getSensorReading (m : Message)
  /-- R575: PLDM GetStateSensorReadings of a state sensor. -/
  | getStateSensorReadings (m : Message)
  /-- R574: PLDM GetPDRRepositoryInfo. -/
  | getPdrRepositoryInfo (m : Message)
  /-- R574: PLDM GetPDR. -/
  | getPdr (m : Message)
  /-- R577: PLDM firmware-update QueryDeviceIdentifiers. -/
  | queryDeviceIdentifiers (m : Message)
  /-- R577: PLDM GetFirmwareParameters reporting bank versions. -/
  | getFirmwareParameters (m : Message)
  /-- R577: Other PLDM Type 5 update commands, accepted only in firmware recovery. -/
  | pldmUpdateOther (m : Message)
  /-- R532: PLDM TransferComplete: the recovery image is written to the inactive bank and verified. -/
  | transferComplete (m : Message)
  /-- R532: PLDM ActivateFirmware records the verified bank as active and resets with cause RECOVERY. -/
  | activateFirmware (m : Message)
  /-- R578: Lumxa sideband command returning telemetry registers. -/
  | readTelemetry (m : Message)
  /-- R578: Lumxa sideband command returning event records. -/
  | readEvents (m : Message)
  /-- R578: Lumxa sideband command returning a boot record. -/
  | readBootRecord (m : Message)
  /-- R578: Lumxa sideband command returning audit records. -/
  | readAudit (m : Message)
  /-- R586: TRST_N resets the TAPs only. -/
  | trstNAssert
  /-- R589: TAP BIST_RUN update starts a test on an out-of-service target, or is refused. -/
  | bistRun (die value : Nat)
  /-- R589: A TAP-started BIST ends with pass or fail and logs faults. -/
  | bistDone (die : Nat) (failures first : Nat) (faults : List TestFault)
  /-- R590: TAP MEM_READ reads an SRAM word raw after its bank claim is granted. -/
  | memRead (die addr cyc : Nat)
  /-- R588: First update of EXTEST, CLAMP, HIGHZ or SCAN puts the device into test mode. -/
  | testModeEntry (die instruction : Nat)
  /-- R556: The peer's image CHECK and START_BEAT record arrives for a paired JOB_START. -/
  | mirrorStartRecord (check startBeat : Nat)
  /-- R557: A commit interval ends; the device CRC is formed and MIRROR_COMMIT sent. -/
  | mirrorIntervalEnd
  /-- R558: MIRROR_COMMIT flit from the peer is compared and the interval committed, yielded or diverged. -/
  | mirrorCommit (payload : List Byte)
  /-- R558: No peer value within 16 beats; the device continues SOLO. -/
  | mirrorCommitTimeout
  /-- R560: A forwarded write arrives at the STANDBY engine and is applied in sequence order. -/
  | mirrorForwardWrite (p : Packet)
  /-- R560: A missing forwarding sequence number times out and is skipped. -/
  | mirrorSeqSkip
  /-- R560: The STANDBY answers a commit once all forwarded writes up to it are applied or skipped. -/
  | mirrorCommitAnswer
  /-- R561: A resync pass over dirty blocks ends; a clean pass pairs the mirror. -/
  | resyncPassEnd
  /-- R582: An Assay interval closes; the CRC is finalised, written and checked. -/
  | assayIntervalClose (die unit : Nat)
  /-- R566: Power is lost at any instant, losing SRAM, HBM, job state, unflushed events, wall time and the beat high-water mark. -/
  | powerLoss
  /-- R533: Release of PERST0_N or PERST2_N brings the port out of reset, ready for configuration requests within 100 ms. -/
  | perstRelease (hostPort : Nat)
  /-- R603: When RESET_N returned high less than 10 µs after an assertion that acted, stage 0 starts 10 µs after the assertion. -/
  | resetNHoldExpiry
  /-- R572: An MCTP packet arrives on SMBus or PCIe VDM; PEC is checked and the packet joins, starts or discards a message in assembly. -/
  | mctpPacketReceive (transport : Nat) (bytes : List Byte)
deriving DecidableEq, Repr

end Sys2Proof
end

