-- ==== Sys2Proof/Decode.lean ====
section
/-! DEFINITION. The command that a word spells by the table's bits. No row of spec/opcode_table.json gives bits, so no
word spells a command. (Words inside the block, slab commands and pebble instructions, are decoded in
Machine/SlabCode.lean and Machine/PebbleCode.lean.) -/

namespace Sys2Proof

/-- The command a table word spells: none, as no row of the table gives bits. -/
def decodeTableWord (_nbits _w : Nat) : Option Instr := none

end Sys2Proof
end

