-- ==== Sys2Proof/Config.lean ====
section
/-! DEFINITION. What an implementation fixes and the spec leaves open: fused identity values, functions
of other standards, and free values. Every name here is opaque: no proof can see a value (log entries 4, 9, 14). -/

namespace Sys2Proof.Config

/-- Free 128-bit values, by the counter of State: BOOT_NONCE (R483) and challenge nonces. -/
opaque freeNonce : Nat → BitVec 128
/-- Free vector-register values, by the counter of State: results in flight at a stop are not valid (R242). -/
opaque freeVec : Nat → BitVec 2048
/-- Free scalar-register and mask values, by the counter of State (R242). -/
opaque freeWord : Nat → BitVec 256
/-- Free 32-bit values, by the counter of State: registers whose value the spec leaves open. -/
opaque freeBits : Nat → BitVec 32
/-- The byte PACK5 writes for five lanes that hold a digit above 2, for which R145 gives no value. -/
opaque packBad : List Nat → Byte

/-- SHA-384 (R467, R470, R473, R481, R483): defined by another standard. -/
opaque sha384 : List Byte → BitVec 384
/-- HMAC-SHA-384 (R477): key, message. -/
opaque hmac384 : List Byte → List Byte → BitVec 384
/-- HKDF-Expand of the export master secret with the label of R477: 48 bytes. -/
opaque sessionKey : Nat → Nat → BitVec 384
/-- ECDSA P-384 verification (R470): public key, signature, hash. -/
opaque ecdsaOk : List Byte → List Byte → BitVec 384 → Bool
/-- Validity of a P-384 public point (R473). -/
opaque pointOk : List Byte → Bool
/-- ECDSA P-384 signature by the identity key (R483): hash signed. -/
opaque identitySign : BitVec 384 → List Byte
/-- A response body whose layout another standard gives (R476, R572 to R577): channel, request code, request bytes. -/
opaque replyBody : Nat → Nat → List Byte → List Byte

/-- Authentication of an SPDM requester (R476), whose messages another standard lays out: role (1 Installer, 2 Maker), the enrolled key or ROOT_HASH, the
KEY_EXCHANGE body and the FINISH body. -/
opaque spdmAuth : Nat → List Byte → List Byte → List Byte → Bool
/-- Check bits of a 64-bit word (R286): the parity-check matrix is not given (R287). -/
opaque checkBits : Word64 → Word16

/-- ROOT_HASH fuses (R467). -/
opaque rootHash : BitVec 384
/-- DeviceUid (R432, R467). -/
opaque deviceUid : Nat
/-- Ordering code (R1): true for AW4-64. -/
opaque stacksAre64 : Bool
/-- Die revisions (R433 CapRevision.DIE_REV). -/
opaque dieRev : Nat → Nat
/-- Link protocol version of the device (R433 CapRevision.LPV). -/
opaque lpv : Nat
/-- Schedule-compatibility level of each die (R433, R538). -/
opaque dieScl : Nat → Nat
/-- Feature bits of each die (R433 CapFeature, R538). -/
opaque dieFeatures : Nat → Nat
/-- Format bits of each die (R433 CapFormat, R538). -/
opaque dieFormats : Nat → Nat
/-- Fixed time from a block's first byte to a decoded flit header at a width, in units of 15.625 ps (R405). -/
opaque headerTime : Nat → Nat
/-- Fused FMAX frequency index of each half, keyed 2p + h (R492). -/
opaque fmax : Nat → Nat
/-- Fused voltage curve in mV: half, frequency index (R494). -/
opaque vfCurve : Nat → Nat → Nat
/-- Fused margin thresholds LOW, HIGH and EMERG of each half (R495, R496). -/
opaque marginLow : Nat → Nat
opaque marginHigh : Nat → Nat
opaque marginEmerg : Nat → Nat
/-- Current in mA of one sixteenth of a slab's streaming activity, before the coefficient of R501: half, frequency index (R513). -/
opaque slabSixteenth : Nat → Nat → Nat
/-- Firmware image of bank A as shipped (R470). -/
opaque shippedImage : List Byte
/-- Repair-fuse and BIST contents that no rule lays out further (R541). -/
opaque romMeasure : BitVec 384

end Sys2Proof.Config
end

