-- ==== Sys2Proof/Machine/Bits.lean ====
section
/-! DEFINITION. Bit fields, little-endian byte order and the cyclic redundancy codes
of the spec (R6, R7, R42, R557, R391). -/

namespace Sys2Proof.Machine

/-- Bits [lo+n-1 : lo] of a number (R6). -/
def fld (w lo n : Nat) : Nat := (w >>> lo) % 2 ^ n

/-- Bit i of a number as a Bool. -/
def bitOn (w i : Nat) : Bool := w.testBit i

/-- A Bool as a one-bit number. -/
def b2n (b : Bool) : Nat := if b then 1 else 0

/-- Little-endian value of a byte string (R7). -/
def leNat : List Byte → Nat
  | [] => 0
  | b :: bs => b.toNat + 256 * leNat bs

/-- The n bytes of a number in little-endian order (R7). -/
def natLe : Nat → Nat → List Byte
  | 0, _ => []
  | n + 1, v => BitVec.ofNat 8 v :: natLe n (v / 256)

/-- n bytes of a byte string from an offset on; bytes past its end read as zero. -/
def slice (bs : List Byte) (off n : Nat) : List Byte :=
  let r := (bs.drop off).take n
  r ++ List.replicate (n - r.length) 0

/-- Little-endian number of n bytes at an offset. -/
def leAt (bs : List Byte) (off n : Nat) : Nat := leNat ((bs.drop off).take n)

/-- Two's-complement value of the low n bits. -/
def sgn (n v : Nat) : Int :=
  let u := v % 2 ^ n
  if 2 * u < 2 ^ n then (u : Int) else (u : Int) - (2 ^ n : Nat)

/-- The low n bits of an integer in two's complement. -/
def unsgn (n : Nat) (v : Int) : Nat := (v % (2 ^ n : Nat)).toNat

/-- Saturating addition of an n-bit counter. -/
def satAdd (n v d : Nat) : Nat := min (v + d) (2 ^ n - 1)

/-- Wrapping addition of an n-bit counter. -/
def wrapAdd (n v d : Nat) : Nat := (v + d) % 2 ^ n

/-- Ceiling of a division. -/
def cdiv (a b : Nat) : Nat := (a + b - 1) / b

/-- Reverse the low n bits. -/
def revBits : Nat → Nat → Nat
  | 0, _ => 0
  | n + 1, v => (v % 2) * 2 ^ n + revBits n (v / 2)

/-- One bit of a reflected CRC. -/
def crcStepR (poly c : Nat) : Nat := if c % 2 = 1 then (c / 2) ^^^ poly else c / 2

/-- k bit steps of a reflected CRC. -/
def crcBitsR (poly : Nat) : Nat → Nat → Nat
  | 0, c => c
  | k + 1, c => crcBitsR poly k (crcStepR poly c)

/-- CRC-32C state after the bytes (R42: polynomial 0x1EDC6F41, reflected form 0x82F63B78). -/
def crc32cRun (c : Nat) (bs : List Byte) : Nat :=
  bs.foldl (fun c b => crcBitsR 0x82F63B78 8 (c ^^^ b.toNat)) c

/-- CRC-32C of a byte string with the parameters of R42. -/
def crc32c (bs : List Byte) : Nat := crc32cRun 0xFFFFFFFF bs ^^^ 0xFFFFFFFF

/-- One bit of an unreflected n-bit CRC. -/
def crcStep (n poly c : Nat) : Nat :=
  if c.testBit (n - 1) then ((c * 2) % 2 ^ n) ^^^ poly else (c * 2) % 2 ^ n

/-- k bit steps of an unreflected CRC. -/
def crcBits (n poly : Nat) : Nat → Nat → Nat
  | 0, c => c
  | k + 1, c => crcBits n poly k (crcStep n poly c)

/-- State of an unreflected n-bit CRC (n at least 8) after the bytes. -/
def crcRun (n poly c : Nat) (bs : List Byte) : Nat :=
  bs.foldl (fun c b => crcBits n poly 8 (c ^^^ (b.toNat * 2 ^ (n - 8)))) c

/-- CRC-64 state of R557 (polynomial 0x42F0_E1EB_A9EA_3693, no reflection). -/
def crc64Run (c : Nat) (bs : List Byte) : Nat := crcRun 64 0x42F0E1EBA9EA3693 c bs

/-- Initial value and final XOR of the CRC-64 of R557. -/
def crc64Init : Nat := 0xFFFFFFFFFFFFFFFF

/-- Finished CRC-64 value of a state (R557: final XOR of all ones). -/
def crc64Fin (c : Nat) : Nat := c ^^^ crc64Init

/-- The indices 0 to n − 1 as a list, ascending. -/
def upTo (n : Nat) : List Nat := List.range n

/-- Insert a key with its value into a list sorted by rising key; equal keys are replaced. -/
def tabInsert {α : Type} (k : Nat) (v : α) : List (Nat × α) → List (Nat × α)
  | [] => [(k, v)]
  | (k', v') :: t =>
    if k < k' then (k, v) :: (k', v') :: t
    else if k = k' then (k, v) :: t
    else (k', v') :: tabInsert k v t

/-- Remove a key from a list sorted by rising key. -/
def tabErase {α : Type} (k : Nat) : List (Nat × α) → List (Nat × α)
  | [] => []
  | (k', v') :: t => if k = k' then tabErase k t else (k', v') :: tabErase k t

/-- Value under a key, or the default where the list does not list it. -/
def tabGet {α : Type} (d : α) (k : Nat) : List (Nat × α) → α
  | [] => d
  | (k', v) :: t => if k = k' then v else tabGet d k t

/-- Write a value under a key and keep the canonical form: keys rising, no entry equal to the default. -/
def tabSet {α : Type} [DecidableEq α] (d : α) (k : Nat) (v : α) (t : List (Nat × α)) : List (Nat × α) :=
  if v = d then tabErase k t else tabInsert k v t

/-- Canonical form of a table: keys strictly rising and no entry equal to the default. -/
def tabWf {α : Type} [DecidableEq α] (d : α) : List (Nat × α) → Bool
  | [] => true
  | [(_, v)] => decide (v ≠ d)
  | (k, v) :: (k', v') :: t => decide (v ≠ d) && decide (k < k') && tabWf d ((k', v') :: t)

/-- Pack field values of the given widths, lowest field first, into one number (R6). -/
def packFields : List Nat → List Nat → Nat
  | w :: ws, v :: vs => v % 2 ^ w + 2 ^ w * packFields ws vs
  | _, _ => 0

/-- Split a number into fields of the given widths, lowest field first (R6). -/
def unpackFields : List Nat → Nat → List Nat
  | [], _ => []
  | w :: ws, x => x % 2 ^ w :: unpackFields ws (x / 2 ^ w)

end Sys2Proof.Machine
end

