-- ==== Sys2Proof/Machine/Formats.lean ====
section
/-! DEFINITION. Number formats: exact values, decoding, rounding and conversion (spec/05). -/

namespace Sys2Proof.Machine

/-- A decoded operand: NaN, an infinity, or the exact dyadic value ±m × 2^e. -/
inductive Val where
  | nan
  | inf (neg : Bool)
  | fin (neg : Bool) (m : Nat) (e : Int)
deriving DecidableEq, Repr

/-- Positive zero. -/
def Val.pzero : Val := .fin false 0 0
/-- One. -/
def Val.one : Val := .fin false 1 0
/-- An integer as an exact value. -/
def Val.ofInt (i : Int) : Val := .fin (decide (i < 0)) i.natAbs 0
/-- NaN test. -/
def Val.isNan : Val → Bool
  | .nan => true
  | _ => false
/-- Finite test. -/
def Val.isFin : Val → Bool
  | .fin _ _ _ => true
  | _ => false
/-- Zero of either sign. -/
def Val.isZero : Val → Bool
  | .fin _ 0 _ => true
  | _ => false
/-- Sign flag; NaN counts as positive (R139: canonical NaN has sign 0). -/
def Val.sign : Val → Bool
  | .nan => false
  | .inf n => n
  | .fin n _ _ => n
/-- Negation. -/
def Val.neg : Val → Val
  | .nan => .nan
  | .inf n => .inf !n
  | .fin n m e => .fin (!n) m e
/-- Absolute value. -/
def Val.abs : Val → Val
  | .nan => .nan
  | .inf _ => .inf false
  | .fin _ m e => .fin false m e
/-- Multiplication by 2^k. -/
def Val.scale (k : Int) : Val → Val
  | .fin n m e => .fin n m (e + k)
  | v => v

/-- Signed significand of a finite value at exponent e0, which must not exceed e. -/
def sigAt (n : Bool) (m : Nat) (e e0 : Int) : Int :=
  let s : Int := ((m <<< (e - e0).toNat : Nat) : Int)
  if n then -s else s

/-- Exact sum under the IEEE 754 rules for special values and signed zeros (R149, R163, R168). -/
def Val.add : Val → Val → Val
  | .nan, _ => .nan
  | _, .nan => .nan
  | .inf a, .inf b => if a = b then .inf a else .nan
  | .inf a, .fin _ _ _ => .inf a
  | .fin _ _ _, .inf b => .inf b
  | .fin n m e, .fin n' m' e' =>
    let e0 := min e e'
    let s := sigAt n m e e0 + sigAt n' m' e' e0
    if s = 0 then .fin (n && n' && m == 0 && m' == 0) 0 0
    else .fin (decide (s < 0)) s.natAbs e0

/-- Exact product; an infinity times zero is NaN (R149). -/
def Val.mul : Val → Val → Val
  | .nan, _ => .nan
  | _, .nan => .nan
  | .inf a, .inf b => .inf (a != b)
  | .inf a, .fin n m _ => if m = 0 then .nan else .inf (a != n)
  | .fin n m _, .inf b => if m = 0 then .nan else .inf (n != b)
  | .fin n m e, .fin n' m' e' => .fin (n != n') (m * m') (e + e')

/-- Less-than on values that are not NaN; the two zeros are equal. -/
def Val.lt : Val → Val → Bool
  | .nan, _ => false
  | _, .nan => false
  | .inf a, .inf b => a && !b
  | .inf a, .fin _ _ _ => a
  | .fin _ _ _, .inf b => !b
  | .fin n m e, .fin n' m' e' =>
    let e0 := min e e'
    decide (sigAt n m e e0 < sigAt n' m' e' e0)

/-- Numerical equality on values that are not NaN. -/
def Val.eq (a b : Val) : Bool := !a.isNan && !b.isNan && !Val.lt a b && !Val.lt b a

/-- Order with +0 above −0 (R117, R178, R180). -/
def Val.ltZ (a b : Val) : Bool :=
  Val.lt a b || (a.isZero && b.isZero && a.sign && !b.sign)

/-- Maximum with +0 above −0; a NaN operand gives NaN (R117, R118). -/
def Val.maxZ (a b : Val) : Val :=
  if a.isNan || b.isNan then .nan else if Val.ltZ a b then b else a

/-- Minimum with −0 below +0; a NaN operand gives NaN (R117, R118). -/
def Val.minZ (a b : Val) : Val :=
  if a.isNan || b.isNan then .nan else if Val.ltZ b a then b else a

/-- Which codes of a floating-point layout the Inf and NaN columns of R137 reserve. -/
inductive FSpecial where
  | ieee
  | nanOnly
  | none
deriving DecidableEq, Repr

/-- A floating-point layout of R137 (or CS40 of R164): exponent bits, fraction bits, bias. -/
structure FLayout where
  eb : Nat
  fb : Nat
  bias : Int
  special : FSpecial
deriving DecidableEq, Repr

/-- FP32 (R137). -/
def fp32 : FLayout := ⟨8, 23, 127, .ieee⟩
/-- FP16 (R137). -/
def fp16 : FLayout := ⟨5, 10, 15, .ieee⟩
/-- BF16 (R137). -/
def bf16 : FLayout := ⟨8, 7, 127, .ieee⟩
/-- FP8 E4M3 (R137). -/
def e4m3 : FLayout := ⟨4, 3, 7, .nanOnly⟩
/-- FP8 E5M2 (R137). -/
def e5m2 : FLayout := ⟨5, 2, 15, .ieee⟩
/-- MXFP6 element E3M2 (R137). -/
def e3m2 : FLayout := ⟨3, 2, 3, .none⟩
/-- MXFP6 element E2M3 (R137). -/
def e2m3 : FLayout := ⟨2, 3, 1, .none⟩
/-- MXFP4 element E2M1 (R137). -/
def e2m1 : FLayout := ⟨2, 1, 1, .none⟩
/-- The column-sum format CS40 (R164). -/
def cs40 : FLayout := ⟨10, 29, 511, .ieee⟩

/-- Width of a layout in bits. -/
def FLayout.width (f : FLayout) : Nat := 1 + f.eb + f.fb

/-- Largest finite magnitude code (R137). -/
def FLayout.maxCode (f : FLayout) : Nat :=
  match f.special with
  | .ieee => (2 ^ f.eb - 1) * 2 ^ f.fb - 1
  | .nanOnly => 2 ^ (f.eb + f.fb) - 2
  | .none => 2 ^ (f.eb + f.fb) - 1

/-- Code of infinity of an IEEE-like layout. -/
def FLayout.infCode (f : FLayout) : Nat := (2 ^ f.eb - 1) * 2 ^ f.fb

/-- The canonical NaN code, sign 0 (R139); a layout without NaN has none and answers 0. -/
def FLayout.nanCode (f : FLayout) : Nat :=
  match f.special with
  | .ieee => f.infCode + 2 ^ (f.fb - 1)
  | .nanOnly => 2 ^ (f.eb + f.fb) - 1
  | .none => 0

/-- Exponent of the least significant fraction bit of the subnormals. -/
def FLayout.eSub (f : FLayout) : Int := 1 - f.bias - f.fb

/-- Value of a magnitude code that is finite. -/
def FLayout.magVal (f : FLayout) (c : Nat) : Nat × Int :=
  let e := c / 2 ^ f.fb
  let fr := c % 2 ^ f.fb
  if e = 0 then (fr, f.eSub) else (fr + 2 ^ f.fb, f.eSub + (e - 1 : Nat))

/-- Decode an element (R137, R138: subnormals at full value; R139: every NaN is quiet). -/
def FLayout.decode (f : FLayout) (w : Nat) : Val :=
  let c := w % 2 ^ (f.eb + f.fb)
  let neg := w.testBit (f.eb + f.fb)
  match f.special with
  | .ieee =>
    if c ≤ f.maxCode then .fin neg (f.magVal c).1 (f.magVal c).2
    else if c = f.infCode then .inf neg else .nan
  | .nanOnly =>
    if c ≤ f.maxCode then .fin neg (f.magVal c).1 (f.magVal c).2 else .nan
  | .none => .fin neg (f.magVal c).1 (f.magVal c).2

/-- Rounding modes of R150; SR carries its 16-bit draw (R152). -/
inductive Round where
  | rne
  | rtz
  | sr (r : Nat)
deriving DecidableEq, Repr

/-- Round the magnitude m × 2^e to an integer number of steps 2^k, by R150 and R152. -/
def roundSteps (mode : Round) (m : Nat) (e k : Int) : Nat :=
  if k ≤ e then m <<< (e - k).toNat
  else
    let s := (k - e).toNat
    let q := m >>> s
    let rem := m - (q <<< s)
    match mode with
    | .rtz => q
    | .rne =>
      let half := 2 ^ (s - 1)
      if rem < half then q
      else if rem > half then q + 1
      else if q % 2 = 0 then q else q + 1
    | .sr r =>
      let f := (rem <<< 16) >>> s
      if f + r ≥ 65536 then q + 1 else q

/-- Step exponent of the grid of a layout at the magnitude m × 2^e. -/
def FLayout.stepAt (f : FLayout) (m : Nat) (e : Int) : Int :=
  if m = 0 then f.eSub else max (e + (m.log2 : Int) - f.fb) f.eSub

/-- Magnitude code of m × 2^e rounded once to the layout; it may exceed `maxCode` (overflow). -/
def FLayout.roundMag (f : FLayout) (mode : Round) (m : Nat) (e : Int) : Nat :=
  let k := f.stepAt m e
  let q := roundSteps mode m e k
  (k - f.eSub).toNat * 2 ^ f.fb + q

/-- A layout's sign and magnitude code as one code. -/
def FLayout.pack (f : FLayout) (neg : Bool) (c : Nat) : Nat :=
  if neg then 2 ^ (f.eb + f.fb) + c else c

/-- Result of a rounding: the code, and whether a finite value overflowed. -/
structure Rounded where
  code : Nat
  ovf : Bool
deriving DecidableEq, Repr

/-- Round a value to an IEEE-like layout with overflow to infinity (R165, R168). -/
def FLayout.roundInf (f : FLayout) (mode : Round) : Val → Rounded
  | .nan => ⟨f.nanCode, false⟩
  | .inf n => ⟨f.pack n f.infCode, false⟩
  | .fin n m e =>
    let c := f.roundMag mode m e
    if c > f.maxCode then ⟨f.pack n f.infCode, true⟩ else ⟨f.pack n c, false⟩

/-- RNE to FP32 (R167), the code. -/
def rneFp32 (v : Val) : Rounded := fp32.roundInf .rne v

/-- RNE to CS40 (R165), decoded again; CS40 lives only in the south-edge stage. -/
def rneCs40 (v : Val) : Val := cs40.decode (cs40.roundInf .rne v).code

/-- Convert to a floating-point element under R156: SAT = false saturates, true does not. -/
def FLayout.convert (f : FLayout) (mode : Round) (nonSat : Bool) : Val → Nat
  | .nan => f.nanCode
  | .inf n =>
    match f.special with
    | .ieee => f.pack n f.infCode
    | .nanOnly => if nonSat then f.nanCode else f.pack n f.maxCode
    | .none => f.pack n f.maxCode
  | .fin n m e =>
    let c := f.roundMag mode m e
    if c ≤ f.maxCode then f.pack n c
    else
      match mode, f.special with
      | .rtz, _ => f.pack n f.maxCode
      | _, .ieee => f.pack n (if nonSat then f.infCode else f.maxCode)
      | _, .nanOnly => if nonSat then f.nanCode else f.pack n f.maxCode
      | _, .none => f.pack n f.maxCode

/-- Convert to an n-bit two's-complement integer whose unit is 2^u (R156: clamp; NaN gives 0). -/
def convertInt (n : Nat) (u : Int) (mode : Round) : Val → Nat
  | .nan => 0
  | .inf neg => if neg then 2 ^ (n - 1) else 2 ^ (n - 1) - 1
  | .fin neg m e =>
    let q := roundSteps mode m e u
    if neg then
      if q ≥ 2 ^ (n - 1) then 2 ^ (n - 1) else unsgn n (-(q : Int))
    else if q ≥ 2 ^ (n - 1) then 2 ^ (n - 1) - 1 else q

/-- Whether a conversion to an n-bit integer clamps a value (R283 counts such results). -/
def clampsInt (n : Nat) (u : Int) (mode : Round) : Val → Bool
  | .nan => false
  | .inf _ => true
  | .fin neg m e =>
    let q := roundSteps mode m e u
    if neg then decide (q > 2 ^ (n - 1)) else decide (q ≥ 2 ^ (n - 1))

/-- Element width in bits of a format code (R135); TB32 counts its two-bit digit (R218). -/
def fmtBits (c : Nat) : Nat :=
  match c with
  | 0x00 => 32 | 0x01 => 16 | 0x02 => 16 | 0x03 => 8 | 0x04 => 8 | 0x05 => 8 | 0x06 => 8
  | 0x07 => 6 | 0x08 => 6 | 0x09 => 4 | 0x0A => 8 | 0x0B => 8 | 0x0C => 4 | 0x0D => 2
  | 0x0E => 16 | 0x0F => 32 | 0x10 => 8
  | _ => 0

/-- Format codes with an E8M0 block scale (R135). -/
def fmtBlock (c : Nat) : Bool := (5 ≤ c && c ≤ 0x0A) || c == 0x0D

/-- Floating-point layout of the elements of a format code, where it has one. -/
def fmtLayout (c : Nat) : Option FLayout :=
  match c with
  | 0x00 => some fp32 | 0x01 => some fp16 | 0x02 => some bf16
  | 0x03 => some e4m3 | 0x04 => some e5m2 | 0x05 => some e4m3 | 0x06 => some e5m2
  | 0x07 => some e3m2 | 0x08 => some e2m3 | 0x09 => some e2m1
  | _ => none

/-- Unit exponent of the integer formats: MXINT8 has an implied factor 2^−6 (R142). -/
def fmtUnit (c : Nat) : Int := if c = 0x0A then -6 else 0

/-- Value of an element code before its block scale (R137, R142, R144, R145). -/
def decodeElem (c w : Nat) : Val :=
  match fmtLayout c with
  | some f => f.decode w
  | none =>
    if c = 0x0D then Val.ofInt ((w % 4 : Nat) - 1 : Int)
    else if c = 0x10 then (if w % 256 = 255 then .nan else .fin false 1 ((w % 256 : Nat) - 127 : Int))
    else (Val.ofInt (sgn (fmtBits c) w)).scale (fmtUnit c)

/-- Value of an E8M0 scale code (R140). -/
def decodeScale (w : Nat) : Val := decodeElem 0x10 w

/-- Value of an element under its block scale; a NaN scale makes every element NaN (R141, R158). -/
def decodeScaled (c w s : Nat) : Val :=
  if fmtBlock c then
    if s % 256 = 255 then .nan else (decodeElem c w).scale ((s % 256 : Nat) - 127 : Int)
  else decodeElem c w

/-- Convert a value to an element code without a block rule (R151, R156); E8M0 follows R260. -/
def convertElem (c : Nat) (mode : Round) (nonSat : Bool) (v : Val) : Nat :=
  match fmtLayout c with
  | some f => f.convert mode nonSat v
  | none => convertInt (fmtBits c) (fmtUnit c) mode v

/-- Trit digit of a value (R159): nearest of −1, 0, +1; a magnitude of exactly one half goes to 0. -/
def convertTrit : Val → Nat
  | .nan => 0
  | .inf n => if n then 0 else 2
  | .fin n m e =>
    if Val.lt (.fin false 1 (-1)) (.fin false m e) then (if n then 0 else 2) else 1

/-- emax of the element formats (R157, R159). -/
def fmtEmax (c : Nat) : Int :=
  match c with
  | 0x05 => 8 | 0x06 => 15 | 0x07 => 4 | 0x08 => 2 | 0x09 => 2
  | _ => 0

/-- Floor of the base-two logarithm of a nonzero magnitude. -/
def floorLog2 (m : Nat) (e : Int) : Int := e + (m.log2 : Int)

/-- Largest finite magnitude's floor log2 over a block, none where the block has no nonzero finite value. -/
def blockLog2 : List Val → Option Int
  | [] => none
  | .fin _ m e :: t =>
    if m = 0 then blockLog2 t
    else match blockLog2 t with
      | none => some (floorLog2 m e)
      | some k => some (max k (floorLog2 m e))
  | _ :: t => blockLog2 t

/-- Scale code of a block (R157, R158). -/
def blockScale (c : Nat) (vs : List Val) : Nat :=
  if vs.any Val.isNan then 0xFF
  else match blockLog2 vs with
    | none => 0
    | some k => (max (-127) (min 127 (k - fmtEmax c)) + 127).toNat

/-- Element code of a source value under a chosen block scale code (R157 to R159). -/
def blockElem (c s : Nat) (mode : Round) (nonSat : Bool) (v : Val) : Nat :=
  if s = 0xFF then 0
  else
    let x := v.scale (127 - (s : Int))
    if c = 0x0D then convertTrit x else convertElem c mode nonSat x

/-- One draw of a stochastic-rounding LFSR (R153): the 16-bit value r and the next state. -/
def lfsrDraw (s : Word32) : Nat × Word32 :=
  (upTo 16).foldl
    (fun (acc : Nat × Word32) _ =>
      let b := acc.2.getLsbD 0
      let s' := acc.2 >>> 1
      (acc.1 * 2 + b2n b, if b then s' ^^^ 0x80200003#32 else s'))
    (0, s)

/-- Rounding mode of an RMODE field and the LFSR after it: SR takes one draw (R150, R154). -/
def drawMode (rmode : Nat) (s : Word32) : Round × Word32 :=
  if rmode = 2 then (.sr (lfsrDraw s).1, (lfsrDraw s).2)
  else if rmode = 1 then (.rtz, s) else (.rne, s)

/-- Trit digits of one trit byte, digit 0 first (R145). -/
def tritDigits (b : Nat) : List Nat :=
  [b % 3, b / 3 % 3, b / 9 % 3, b / 27 % 3, b / 81 % 3]

/-- Validity of a trit byte (R145). -/
def tritValid (b : Nat) : Bool := decide (b ≤ 242)

/-- Trit byte of five digits (R145). -/
def tritByte (ds : List Nat) : Nat := (ds.take 5).foldr (fun d acc => d + 3 * acc) 0

/-- Trit bytes of a run of digits; a last partial byte is padded with digit 1 (R146). -/
def tritPack (ds : List Nat) : List Byte :=
  (upTo (cdiv ds.length 5)).map fun j =>
    let g := (ds.drop (5 * j)).take 5
    BitVec.ofNat 8 (tritByte (g ++ List.replicate (5 - g.length) 1))

/-- Pack element codes densely, element j in bits [bj+b−1 : bj], into whole bytes (R141, R144, R212). -/
def packElems (b : Nat) (codes : List Nat) : List Byte :=
  natLe (cdiv (codes.length * b) 8) (codes.foldr (fun c acc => c % 2 ^ b + 2 ^ b * acc) 0)

/-- Element j of a densely packed byte string (R141, R144). -/
def unpackElem (b : Nat) (bs : List Byte) (j : Nat) : Nat :=
  let lo := j * b / 8
  fld (leAt bs lo 5) (j * b - 8 * lo) b

/-- Row rate of an operand pair in half rows per cycle (R99): none where the pair is not listed. -/
def pairRho2 (a w : Nat) : Option Nat :=
  let is16 (c : Nat) := c == 1 || c == 2
  let is8 (c : Nat) := (3 ≤ c && c ≤ 8) || c == 0x0A || c == 0x0B
  let is4 (c : Nat) := c == 9 || c == 0x0C
  if w = 0x0D then
    if a = 0x0B || a = 0x0A || a = 3 || a = 4 || a = 5 || a = 6 || a = 0x0C || a = 9 then some 4 else none
  else if is16 a || is16 w then (if a = w then some 1 else none)
  else if is4 a && is4 w then some 4
  else if (is8 a || is4 a) && (is8 w || is4 w) then some 2
  else none

end Sys2Proof.Machine
end

