-- ==== Sys2Proof/Machine/Arith.lean ====
section
/-! DEFINITION. Column sums, accumulator updates and drain stages (spec/04 R115 to R119,
spec/05 R149, spec/06, spec/07 R192). -/

namespace Sys2Proof.Machine

/-- Per-cell term of a mode (R115 to R118): 0 MAC, 1 L1, 2 L2, 3 MAXPLUS, 4 MINPLUS, 5 CMPCNT.
`int` says that both operands are integers or trits, whose a + w is exact (R117) and whose zero product has no sign (DEDUCED, R144, R145, R163). -/
def cellTerm (mode : Nat) (int : Bool) (a w : Val) : Val :=
  match mode with
  | 0 =>
    let z := Val.mul a w
    if int && z.isZero then Val.pzero else z
  | 1 => (Val.add a w.neg).abs
  | 2 => let d := Val.add a w.neg; Val.mul d d
  | 3 | 4 =>
    let s := Val.add a w
    if int then s else fp32.decode (rneFp32 s).code
  | _ => if Val.lt w a then Val.one else Val.pzero

/-- Exact sum of the terms of one block, none of an empty block (R162, R163). -/
def blockSum : List Val → Option Val
  | [] => none
  | t :: ts => some (ts.foldl Val.add t)

/-- Column sum over the blocks in order, rounded to CS40 after each block (R165). -/
def columnSum (blocks : List (List Val)) : Val :=
  let step (acc : Option Val) (b : List Val) : Option Val :=
    match blockSum b, acc with
    | none, r => r
    | some s, none => some (rneCs40 s)
    | some s, some c => some (rneCs40 (Val.add c s))
  (blocks.foldl step none).getD Val.pzero

/-- Column result of a MAXPLUS (mode 3) or MINPLUS (mode 4) pass (R115, R163). -/
def columnBest (mode : Nat) : List Val → Val
  | [] => Val.pzero
  | t :: ts => ts.foldl (if mode = 3 then Val.maxZ else Val.minZ) t

/-- Column result of any mode from its terms in blocks of 32 tile rows (R161, R165). -/
def columnResult (mode : Nat) (blocks : List (List Val)) : Val :=
  if mode = 3 ∨ mode = 4 then columnBest mode blocks.flatten else columnSum blocks

/-- A column sum at the south edge: its value, the poison of its terms (R174), and whether a NaN arose in it from operands that hold none (R149, R185). -/
structure ColSum where
  val : Val
  poison : Bool
  fresh : Bool
deriving DecidableEq, Repr

/-- Status bits an update or drain stage sets (R168, R185). -/
structure AccFlags where
  ovf : Bool
  nan : Bool
deriving DecidableEq, Repr

/-- Union of two sets of status bits. -/
def AccFlags.or (a b : AccFlags) : AccFlags := ⟨a.ovf || b.ovf, a.nan || b.nan⟩

/-- FP32-mode update of an entry (R167): the new code and the status bits. -/
def updateEntry (mode : Nat) (combine : Bool) (old : Nat) (c : ColSum) : Nat × AccFlags :=
  let cs := c.val
  let o := fp32.decode old
  if mode = 3 ∨ mode = 4 then
    let v := if combine then (if mode = 3 then Val.maxZ o cs else Val.minZ o cs) else cs
    ((rneFp32 v).code, ⟨false, c.fresh && !(combine && o.isNan)⟩)
  else
    let t := if combine then Val.add o cs else cs
    let r := rneFp32 t
    (r.code, ⟨r.ovf, (fp32.decode r.code).isNan && (c.fresh || !cs.isNan) && !(combine && o.isNan)⟩)

/-- Compensated update of a pair (R169): the new HI and LO codes and the status bits. -/
def updatePair (combine : Bool) (hi lo : Nat) (c : ColSum) : Nat × Nat × AccFlags :=
  let cs := c.val
  let h := fp32.decode hi
  let l := fp32.decode lo
  let t := if combine then Val.add (Val.add h l) cs else cs
  let r := rneFp32 t
  let nh := fp32.decode r.code
  let low := if nh.isFin then (rneFp32 (Val.add t nh.neg)).code else 0
  (r.code, low, ⟨r.ovf, nh.isNan && (c.fresh || !cs.isNan) && !(combine && (h.isNan || l.isNan))⟩)

/-- An activation table of a slab context (R177), as FP32 codes; 64 slopes and 64 intercepts. -/
structure ActTable where
  xmin : Nat
  xmax : Nat
  slopes : List Nat
  intercepts : List Nat
deriving DecidableEq, Repr

/-- Exact floor of 64 × (x − xmin) / (xmax − xmin), clamped to a segment index (R177). -/
def tableIndex (xmin xmax x : Val) : Nat :=
  match x with
  | .inf n => if n then 0 else 63
  | _ =>
    match Val.add x xmin.neg, Val.add xmax xmin.neg with
    | .fin n m e, .fin _ m' e' =>
      let e0 := min (e + 6) e'
      let a := sigAt n m (e + 6) e0
      let b := sigAt false m' e' e0
      (max 0 (min 63 (a.fdiv b))).toNat
    | _, _ => 0

/-- Activation-table stage (R177). -/
def applyTable (t : ActTable) (x : Val) : Rounded :=
  if x.isNan then ⟨fp32.nanCode, false⟩
  else
    let i := tableIndex (fp32.decode t.xmin) (fp32.decode t.xmax) x
    let s := fp32.decode (t.slopes.getD i 0)
    let b := t.intercepts.getD i 0
    if s.isZero then ⟨b, false⟩ else rneFp32 (Val.add (Val.mul s x) (fp32.decode b))

/-- A byte with its poison mark, as staging banks and FIFOs hold it (R214, R287). -/
structure PByte where
  val : Byte
  poison : Bool
deriving DecidableEq, Repr

/-- A zero byte without poison. -/
def PByte.zero : PByte := ⟨0, false⟩

/-- Parameters of a drain's stages (R175) after decoding. -/
structure DrainStages where
  scale : Nat
  table : Option ActTable
  reduce : Nat
  smallest : Bool
  merge : Bool
  colBase : Nat
  outFmt : Nat
  rmode : Nat
  nonSat : Bool
deriving DecidableEq, Repr

/-- An entry as a drain reads it: FP32 code and poison. -/
structure Elem where
  code : Nat
  poison : Bool
deriving DecidableEq, Repr

/-- Stages 2 and 3 of R176 for one entry: scale, then table. -/
def scaleTable (p : DrainStages) (code : Nat) : Nat × AccFlags :=
  let r := rneFp32 (Val.mul (fp32.decode code) (fp32.decode p.scale))
  match p.table with
  | none => (r.code, ⟨r.ovf, false⟩)
  | some t =>
    let x := fp32.decode r.code
    let u := applyTable t x
    let infNew := !(fp32.decode u.code).isFin && !(fp32.decode u.code).isNan && x.isFin
    (u.code, ⟨r.ovf || infNew, (fp32.decode u.code).isNan && !x.isNan⟩)

/-- ROWSUM in column order with one rounding per addition (R178). -/
def rowSum : List Nat → Nat × AccFlags
  | [] => (0, ⟨false, false⟩)
  | c :: cs =>
    cs.foldl (fun (acc : Nat × AccFlags) x =>
      let a := fp32.decode acc.1
      let b := fp32.decode x
      let r := rneFp32 (Val.add a b)
      (r.code, acc.2.or ⟨r.ovf, (fp32.decode r.code).isNan && !a.isNan && !b.isNan⟩)) (c, ⟨false, false⟩)

/-- ROWMAX: +0 above −0, NaN if any entry is NaN (R178). -/
def rowMax : List Nat → Nat
  | [] => 0
  | c :: cs =>
    let v := cs.foldl (fun acc x => Val.maxZ acc (fp32.decode x)) (fp32.decode c)
    (rneFp32 v).code

/-- A top-k candidate: FP32 code and global position (R180). -/
structure Cand where
  code : Nat
  pos : Nat
deriving DecidableEq, Repr

/-- Ranking of R180: by value in the direction, equal values by position, lower first. -/
def Cand.before (smallest : Bool) (a b : Cand) : Bool :=
  let x := fp32.decode a.code
  let y := fp32.decode b.code
  if smallest then Val.ltZ x y || (!Val.ltZ y x && decide (a.pos ≤ b.pos))
  else Val.ltZ y x || (!Val.ltZ x y && decide (a.pos ≤ b.pos))

/-- Insert a candidate after every candidate that ranks before it. -/
def Cand.insert (smallest : Bool) (c : Cand) : List Cand → List Cand
  | [] => [c]
  | d :: t => if Cand.before smallest d c then d :: Cand.insert smallest c t else c :: d :: t

/-- The eight best of a list of candidates, best first (R182). -/
def topEight (smallest : Bool) (cs : List Cand) : List Cand :=
  (cs.foldl (fun acc c => Cand.insert smallest c acc) []).take 8

/-- A top-k record (R181). -/
structure TopkRec where
  slots : List Cand
  nans : Nat
  poison : Bool
  smallest : Bool
deriving DecidableEq, Repr

/-- The 80 bytes of a record (R181): empty slots hold NaN and 0xFFFFFFFF. -/
def TopkRec.bytes (r : TopkRec) : List Byte :=
  let pad := List.replicate (8 - r.slots.length) (Cand.mk 0x7FC00000 0xFFFFFFFF)
  let s := r.slots ++ pad
  (s.flatMap fun c => natLe 4 c.code) ++ (s.flatMap fun c => natLe 4 c.pos)
    ++ natLe 4 r.slots.length ++ natLe 4 (min r.nans 0xFFFFFFFF)
    ++ [BitVec.ofNat 8 (b2n r.poison + 2 * b2n r.smallest)] ++ List.replicate 7 0

/-- A record read for a merge, none where R183 makes the drain ignore it. -/
def readTopk (smallest : Bool) (bs : List PByte) : Option TopkRec :=
  let v := bs.map PByte.val
  let cnt := leAt v 64 4
  let fl := leAt v 72 1
  if bs.any PByte.poison || bitOn fl 1 != smallest || decide (cnt > 8) then none
  else some
    { slots := (upTo cnt).map fun i => ⟨leAt v (4 * i) 4, leAt v (32 + 4 * i) 4⟩
      nans := leAt v 68 4, poison := bitOn fl 0, smallest := smallest }

/-- TOPK over one row of one array (R180 to R183): the record and whether an input record was ignored. -/
def topkRow (p : DrainStages) (es : List Elem) (input : List PByte) : TopkRec × Bool :=
  let fresh := ((upTo es.length).zip es).filterMap fun (n, e) =>
    if (fp32.decode e.code).isNan then none else some (Cand.mk e.code (p.colBase + n))
  let nans := es.countP fun e => (fp32.decode e.code).isNan
  let pois := es.any Elem.poison
  if p.merge then
    match readTopk p.smallest input with
    | none => (⟨topEight p.smallest fresh, nans, true, p.smallest⟩, true)
    | some r =>
      let old := r.slots.filter fun c => !(fp32.decode c.code).isNan
      (⟨topEight p.smallest (old ++ fresh), min (nans + r.nans) 0xFFFFFFFF, pois || r.poison, p.smallest⟩, false)
  else (⟨topEight p.smallest fresh, nans, pois, p.smallest⟩, false)

/-- Whether a conversion of OUT_FMT takes draws: SR mode and a target other than TB32 (R154). -/
def takesDraw (fmt rmode : Nat) : Bool := rmode == 2 && fmt != 0x0D && fmt != 0x10

/-- Convert codes in order, one draw each under SR; `conv` gets the mode. -/
def convertList (rmode : Nat) (draws : Bool) (conv : Round → Nat → Nat) :
    List Nat → Word32 → List Nat × Word32
  | [], s => ([], s)
  | c :: cs, s =>
    let (mode, s') := if draws then drawMode rmode s else drawMode (if rmode = 2 then 0 else rmode) s
    let (r, s'') := convertList rmode draws conv cs s'
    (conv mode c :: r, s'')

/-- Cut a list into consecutive blocks of 32. -/
def blocks32 {α : Type} (n : Nat) (l : List α) : List (List α) :=
  (upTo (cdiv n 32)).map fun b => (l.drop (32 * b)).take 32

/-- One array's part of an output row: bytes with poison, scale bytes, status, next LFSR (R176, R212). -/
structure RowPart where
  bytes : List PByte
  scales : List Nat
  flags : AccFlags
  lfsr : Word32
deriving DecidableEq, Repr

/-- Poison mark of each output byte: a poisoned element poisons every byte that holds a bit of it (R178). -/
def partBytes (fmt : Nat) (codes : List Nat) (pois : List Bool) : List PByte :=
  if fmt = 0x0D then
    let bs := tritPack codes
    (upTo bs.length).zip bs |>.map fun (j, b) => ⟨b, ((pois.drop (5 * j)).take 5).any id⟩
  else
    let w := fmtBits fmt
    let bs := packElems w codes
    (upTo bs.length).zip bs |>.map fun (j, b) =>
      ⟨b, (upTo codes.length).any fun i =>
        pois.getD i false && decide (i * w / 8 ≤ j) && decide (j ≤ (i * w + w - 1) / 8)⟩

/-- Conversion stage for one array's part of a row (R151 to R159, R176). -/
def convertPart (p : DrainStages) (es : List Elem) (s : Word32) : RowPart :=
  let codes := es.map Elem.code
  let pois := es.map Elem.poison
  let draws := takesDraw p.outFmt p.rmode
  let nanNew (out : List Nat) : Bool :=
    (p.outFmt == 3 || p.outFmt == 5) &&
      ((out.zip codes).any fun (o, c) => o % 128 == 127 && !(fp32.decode c).isNan)
  if fmtBlock p.outFmt then
    let step (acc : List Nat × List Nat × Word32) (blk : List Nat) :=
      let sc := blockScale p.outFmt (blk.map fp32.decode)
      let (r, s') := convertList p.rmode draws
        (fun mode c => blockElem p.outFmt sc mode p.nonSat (fp32.decode c)) blk acc.2.2
      (acc.1 ++ r, acc.2.1 ++ [sc], s')
    let (out, scs, s') := (blocks32 codes.length codes).foldl step ([], [], s)
    ⟨partBytes p.outFmt out pois, scs, ⟨false, nanNew out⟩, s'⟩
  else
    let (out, s') := convertList p.rmode draws
      (fun mode c => convertElem p.outFmt mode p.nonSat (fp32.decode c)) codes s
    ⟨partBytes p.outFmt out pois, [], ⟨false, nanNew out⟩, s'⟩

/-- A whole output row of a drain: bytes, scale bytes, status, whether a top-k input was ignored. -/
structure DrainRow where
  bytes : List PByte
  scales : List Nat
  flags : AccFlags
  badInput : Bool
  lfsr : Word32
deriving DecidableEq, Repr

/-- Stages 2 to 5 of R176 for one row: entries per enabled array, merge input per enabled array. -/
def drainRow (p : DrainStages) (rows : List (List Elem)) (inputs : List (List PByte)) (s : Word32) : DrainRow :=
  let step (acc : DrainRow) (x : Nat × List Elem) : DrainRow :=
    let st := x.2.map fun e => scaleTable p e.code
    let f := st.foldl (fun f r => f.or r.2) (⟨false, false⟩ : AccFlags)
    let es := (st.zip x.2).map fun (r, e) => Elem.mk r.1 e.poison
    let pois := es.any Elem.poison
    if p.reduce = 3 then
      let (r, bad) := topkRow p es (inputs.getD x.1 [])
      { acc with bytes := acc.bytes ++ r.bytes.map (PByte.mk · false), flags := acc.flags.or f,
                 badInput := acc.badInput || bad }
    else
      let (es', f') :=
        if p.reduce = 1 then
          let (c, g) := rowSum (es.map Elem.code)
          ([Elem.mk c pois], f.or g)
        else if p.reduce = 2 then ([Elem.mk (rowMax (es.map Elem.code)) pois], f)
        else (es, f)
      let part := convertPart p es' acc.lfsr
      { acc with bytes := acc.bytes ++ part.bytes, scales := acc.scales ++ part.scales,
                 flags := (acc.flags.or f').or part.flags, lfsr := part.lfsr }
  ((upTo rows.length).zip rows).foldl step ⟨[], [], ⟨false, false⟩, false, s⟩

end Sys2Proof.Machine
end

