-- ==== Sys2Proof/Machine/PebbleCode.lean ====
section
/-! DEFINITION. Pebble instruction words and stream descriptors (spec/09 R244 to R247, R252, R266, R270). -/

namespace Sys2Proof.Machine

/-- A vector instruction word (R245). -/
structure VWord where
  cls : Nat
  op : Nat
  vd : Nat
  va : Nat
  vb : Nat
  vc : Nat
  type : Nat
  type2 : Nat
  mask : Nat
  mz : Bool
  imm : Bool
  rmode : Nat
  nonSat : Bool
  sd : Nat
  aux : Nat
deriving DecidableEq, Repr

/-- A scalar instruction word (R246). -/
structure SWord where
  cls : Nat
  op : Nat
  sd : Nat
  sa : Nat
  sb : Nat
  imm32 : Nat
deriving DecidableEq, Repr

/-- An instruction word (R244). -/
inductive PWord where
  | vec (v : VWord)
  | sca (s : SWord)
deriving DecidableEq, Repr

/-- Widths of the vector layout (R245). -/
def vecWidths : List Nat := [4, 6, 5, 5, 5, 5, 5, 5, 3, 1, 1, 2, 1, 5, 5, 6]
/-- Widths of the scalar layout (R246). -/
def scaWidths : List Nat := [4, 6, 5, 5, 5, 7, 32]

/-- Encode an instruction word (R245, R246). -/
def encodeP : PWord → Nat
  | .vec v => packFields vecWidths [v.cls, v.op, v.vd, v.va, v.vb, v.vc, v.type, v.type2, v.mask, b2n v.mz,
      b2n v.imm, v.rmode, b2n v.nonSat, v.sd, v.aux, 0]
  | .sca s => packFields scaWidths [s.cls, s.op, s.sd, s.sa, s.sb, 0, s.imm32]

/-- Decode an instruction word by its class (R244, R247); none for a class outside R247. -/
def decodeP (w : Nat) : Option PWord :=
  let cls := w % 16
  if 1 ≤ cls ∧ cls ≤ 5 then
    match unpackFields scaWidths w with
    | [c, op, sd, sa, sb, _, i] => some (.sca ⟨c, op, sd, sa, sb, i⟩)
    | _ => none
  else if 8 ≤ cls then
    match unpackFields vecWidths w with
    | [c, op, vd, va, vb, vc, t, t2, m, mz, im, rm, sat, sd, aux, _] =>
      some (.vec ⟨c, op, vd, va, vb, vc, t, t2, m, mz == 1, im == 1, rm, sat == 1, sd, aux⟩)
    | _ => none
  else none

/-- Class and operation of a word; they name its mnemonic (R247, R252, R266). -/
def PWord.kind : PWord → Nat × Nat
  | .vec v => (v.cls, v.op)
  | .sca s => (s.cls, s.op)

/-- Words an instruction takes: two where its IMM bit is set (R244). -/
def PWord.size : PWord → Nat
  | .vec v => if v.imm then 2 else 1
  | .sca _ => 1

/-- Operations that a class lists (R247, R252, R266). -/
def opListed (cls op : Nat) : Bool :=
  match cls with
  | 1 => decide (op ≤ 0x0B)
  | 2 => decide (op ≤ 0x08)
  | 3 => decide (op ≤ 1)
  | 4 => decide (op ≤ 6)
  | 5 => decide (op = 0)
  | 8 => decide (op ≤ 0x0F)
  | 9 => decide (op ≤ 6) || (decide (0x10 ≤ op) && decide (op ≤ 0x13))
  | 0xA => decide (op ≤ 3)
  | 0xB => decide (op = 0)
  | 0xC => decide (op ≤ 2)
  | 0xD => decide (op ≤ 6)
  | 0xE => decide (op ≤ 1)
  | 0xF => decide (op ≤ 4)
  | _ => false

/-- Float types of the vector engine (R251). -/
def isFloatT (t : Nat) : Bool := t == 0 || t == 1 || t == 2
/-- Integer types of the vector engine (R251). -/
def isIntT (t : Nat) : Bool := t == 0x0F || t == 0x0E || t == 0x0B

/-- Lane width of a TYPE (R248). -/
def laneW (t : Nat) : Nat :=
  if t = 0 ∨ t = 0x0F then 32 else if t = 1 ∨ t = 2 ∨ t = 0x0E then 16 else 8

/-- Lanes of a TYPE (R248). -/
def laneN (t : Nat) : Nat := 2048 / laneW t

/-- Latency from issue to a usable result (R252, R266). -/
def PWord.latency : PWord → Nat
  | .vec v =>
    match v.cls with
    | 8 => if v.op ≤ 4 then (if isFloatT v.type then 4 else 2) else 2
    | 9 => if v.op ≥ 0x10 then 1 else 2
    | 0xA => 14
    | 0xB => 6
    | 0xC => 10
    | 0xD => if v.op ≥ 5 then 4 else 2
    | 0xE => if v.op = 0 then 8 else 4
    | _ => 6
  | .sca s =>
    match s.cls with
    | 1 => if s.op = 8 then 3 else 1
    | 3 => 6
    | _ => 1

/-- Least interval between two issues to the unit (R252). -/
def PWord.interval : PWord → Nat
  | .vec v => if v.cls = 0xA then 4 else if v.cls = 0xC then 2 else 1
  | .sca _ => 1

/-- A stream descriptor (R270). -/
structure SDesc where
  kind : Nat
  sigEn : Bool
  sigCairn : Nat
  sigInc : Nat
  rows : Nat
  rowBytes : Nat
  cmemAddr : Nat
  cmemStride : Nat
  dpa : Nat
  dpaStride : Nat
deriving DecidableEq, Repr

/-- Widths of Q0 (R270). -/
def q0Widths : List Nat := [2, 1, 10, 8, 11, 24, 8]
/-- Widths of Q1 (R270). -/
def q1Widths : List Nat := [23, 9, 32]
/-- Widths of Q2 and Q3 (R270). -/
def q2Widths : List Nat := [48, 16]
/-- Widths of Q3 (R270). -/
def q3Widths : List Nat := [32, 32]

/-- Decode a stream descriptor from its four words (R270). -/
def decodeSDesc (q0 q1 q2 q3 : Nat) : Option SDesc :=
  match unpackFields q0Widths q0, unpackFields q1Widths q1 with
  | [k, se, sc, si, r, rb, _], [ca, _, cs] =>
    some ⟨k, se == 1, sc, si, r + 1, rb, ca, cs, q2 % 2 ^ 48, q3 % 2 ^ 32⟩
  | _, _ => none

/-- The four words of a stream descriptor (R270). -/
def encodeSDesc (d : SDesc) : List Nat :=
  [packFields q0Widths [d.kind, b2n d.sigEn, d.sigCairn, d.sigInc, d.rows - 1, d.rowBytes, 0],
   packFields q1Widths [d.cmemAddr, 0, d.cmemStride],
   packFields q2Widths [d.dpa, 0],
   packFields q3Widths [d.dpaStride, 0]]

end Sys2Proof.Machine
end

