-- ==== Sys2Proof/Machine/SlabCode.lean ====
section
/-! DEFINITION. Slab command and descriptor encodings (spec/08 R202, R206 to R215, R225). -/

namespace Sys2Proof.Machine

/-- The wait and signal that W0 attaches to every slab command (R206). -/
structure Attach where
  waitEn : Bool
  waitObs : Bool
  waitCairn : Nat
  waitN : Nat
  sigEn : Bool
  sigCairn : Nat
  sigInc : Nat
deriving DecidableEq, Repr

/-- No wait and no signal. -/
def Attach.none : Attach := ⟨false, false, 0, 0, false, 0, 0⟩

/-- Parameters of PASS (R105, R208). -/
structure PassOp where
  afmt : Nat
  wfmt : Nat
  mode : Nat
  tile : Nat
  kv : Nat
  nv : Nat
  m : Nat
  arrays : Nat
  combine : Bool
  wbank : Nat
  abank : Nat
  accRow : Nat
  accSel : Nat
deriving DecidableEq, Repr

/-- Parameters of STREAK (R189, R210). -/
structure StreakOp where
  afmt : Nat
  wfmt : Nat
  k : Nat
  n : Nat
  m : Nat
  rowq : Bool
  abank : Nat
  combine : Bool
  accRow : Nat
  accSel : Nat
  waddr : Nat
  wSel : Nat
deriving DecidableEq, Repr

/-- Parameters of DRAIN (R175, R211). -/
structure DrainOp where
  accRow : Nat
  accSel : Nat
  rows : Nat
  arrays : Nat
  nv : Nat
  outFmt : Nat
  rmode : Nat
  nonSat : Bool
  table : Nat
  reduce : Nat
  smallest : Bool
  merge : Bool
  clear : Bool
  dst : Nat
  bank : Nat
  dstAddr : Nat
  dstSel : Nat
  auxAddr : Nat
  auxSel : Nat
  scale : Nat
  colBase : Nat
deriving DecidableEq, Repr

/-- The slab operations (R207). -/
inductive SlabOp where
  | pass (p : PassOp)
  | drain (d : DrainOp)
  | streak (k : StreakOp)
  | dma (desc srcSel dstSel ssrcSel : Nat)
  | sync
  | barrier (channel : Nat) (rebase : Bool)
  | base (reg value stride : Nat)
  | loop (count body mask : Nat)
  | nop
  | finish
deriving DecidableEq, Repr

/-- A slab command: its attached wait and signal and its operation. -/
structure SlabCmd where
  at_ : Attach
  op : SlabOp
deriving DecidableEq, Repr

/-- Widths of the fields of W0 (R206). -/
def w0Widths : List Nat := [8, 1, 1, 10, 16, 1, 10, 8, 9]
/-- Widths of PASS W1 (R208). -/
def passWidths : List Nat := [5, 5, 3, 3, 8, 8, 11, 4, 1, 1, 1, 11, 3]
/-- Widths of STREAK W1 (R210). -/
def streakWidths1 : List Nat := [5, 5, 16, 9, 4, 1, 1, 1, 11, 3, 8]
/-- Widths of STREAK W2 (R210). -/
def streakWidths2 : List Nat := [25, 3, 36]
/-- Widths of DRAIN W1 (R211). -/
def drainWidths1 : List Nat := [11, 3, 11, 4, 7, 5, 2, 1, 3, 2, 1, 1, 1, 2, 1, 9]
/-- Widths of DRAIN W2 (R211). -/
def drainWidths2 : List Nat := [25, 3, 25, 3, 8]
/-- Widths of DRAIN W3 (R211). -/
def drainWidths3 : List Nat := [32, 32]
/-- Widths of DMA W1 (R215). -/
def dmaWidths : List Nat := [10, 3, 3, 3, 45]
/-- Widths of BARRIER W1 (R215). -/
def barrierWidths : List Nat := [4, 1, 59]
/-- Widths of BASE W1 and of its W2 (R215). -/
def baseWidths : List Nat := [3, 29, 32]
/-- Widths of BASE W2 (R215). -/
def baseWidths2 : List Nat := [32, 32]
/-- Widths of LOOP W1 (R215). -/
def loopWidths : List Nat := [16, 12, 7, 29]

/-- One-bit field as a Bool. -/
def n2b (n : Nat) : Bool := n == 1

/-- The four 64-bit words of a command. -/
structure CmdWords where
  w0 : Nat
  w1 : Nat
  w2 : Nat
  w3 : Nat
deriving DecidableEq, Repr

/-- Opcode of an operation (R207). -/
def SlabOp.code : SlabOp → Nat
  | .pass _ => 1 | .drain _ => 2 | .streak _ => 3 | .dma _ _ _ _ => 4 | .sync => 5
  | .barrier _ _ => 6 | .base _ _ _ => 7 | .loop _ _ _ => 8 | .nop => 0x0E | .finish => 0x0F

/-- W0 of a command (R206). -/
def encodeW0 (a : Attach) (code : Nat) : Nat :=
  packFields w0Widths [code, b2n a.waitEn, b2n a.waitObs, a.waitCairn, a.waitN, b2n a.sigEn, a.sigCairn, a.sigInc, 0]

/-- The words of a command (R206 to R215). -/
def encodeSlab (c : SlabCmd) : CmdWords :=
  let w0 := encodeW0 c.at_ c.op.code
  match c.op with
  | .pass p =>
    ⟨w0, packFields passWidths [p.afmt, p.wfmt, p.mode, p.tile, p.kv - 1, p.nv - 1, p.m - 1, p.arrays,
      b2n p.combine, p.wbank, p.abank, p.accRow, p.accSel], 0, 0⟩
  | .streak k =>
    ⟨w0, packFields streakWidths1 [k.afmt, k.wfmt, k.k - 1, k.n - 1, k.m - 1, b2n k.rowq, k.abank,
      b2n k.combine, k.accRow, k.accSel, 0], packFields streakWidths2 [k.waddr, k.wSel, 0], 0⟩
  | .drain d =>
    ⟨w0, packFields drainWidths1 [d.accRow, d.accSel, d.rows - 1, d.arrays, d.nv - 1, d.outFmt, d.rmode,
      b2n d.nonSat, d.table, d.reduce, b2n d.smallest, b2n d.merge, b2n d.clear, d.dst, d.bank, 0],
      packFields drainWidths2 [d.dstAddr, d.dstSel, d.auxAddr, d.auxSel, 0],
      packFields drainWidths3 [d.scale, d.colBase]⟩
  | .dma i s t u => ⟨w0, packFields dmaWidths [i, s, t, u, 0], 0, 0⟩
  | .sync => ⟨w0, 0, 0, 0⟩
  | .barrier ch r => ⟨w0, packFields barrierWidths [ch, b2n r, 0], 0, 0⟩
  | .base r v st => ⟨w0, packFields baseWidths [r, 0, v], packFields baseWidths2 [st, 0], 0⟩
  | .loop n b m => ⟨w0, packFields loopWidths [n - 1, b, m, 0], 0, 0⟩
  | .nop => ⟨w0, 0, 0, 0⟩
  | .finish => ⟨w0, 0, 0, 0⟩

/-- Operation of the words W1 to W3 under an opcode; none for an opcode outside R207. -/
def decodeOp (code : Nat) (w : CmdWords) : Option SlabOp :=
  match code with
  | 1 =>
    match unpackFields passWidths w.w1 with
    | [af, wf, mo, ti, kv, nv, m, ar, ac, wb, ab, row, sel] =>
      some (.pass ⟨af, wf, mo, ti, kv + 1, nv + 1, m + 1, ar, n2b ac, wb, ab, row, sel⟩)
    | _ => none
  | 2 =>
    match unpackFields drainWidths1 w.w1, unpackFields drainWidths2 w.w2, unpackFields drainWidths3 w.w3 with
    | [row, sel, rows, ar, nv, f, rm, sat, tb, rd, dir, mg, cl, dst, bk, _], [da, ds, aa, as', _], [sc, cb] =>
      some (.drain ⟨row, sel, rows + 1, ar, nv + 1, f, rm, n2b sat, tb, rd, n2b dir, n2b mg, n2b cl, dst, bk,
        da, ds, aa, as', sc, cb⟩)
    | _, _, _ => none
  | 3 =>
    match unpackFields streakWidths1 w.w1, unpackFields streakWidths2 w.w2 with
    | [af, wf, k, n, m, q, ab, ac, row, sel, _], [wa, ws, _] =>
      some (.streak ⟨af, wf, k + 1, n + 1, m + 1, n2b q, ab, n2b ac, row, sel, wa, ws⟩)
    | _, _ => none
  | 4 =>
    match unpackFields dmaWidths w.w1 with
    | [i, s, t, u, _] => some (.dma i s t u)
    | _ => none
  | 5 => some .sync
  | 6 =>
    match unpackFields barrierWidths w.w1 with
    | [ch, r, _] => some (.barrier ch (n2b r))
    | _ => none
  | 7 =>
    match unpackFields baseWidths w.w1, unpackFields baseWidths2 w.w2 with
    | [r, _, v], [st, _] => some (.base r v st)
    | _, _ => none
  | 8 =>
    match unpackFields loopWidths w.w1 with
    | [n, b, m, _] => some (.loop (n + 1) b m)
    | _ => none
  | 0x0E => some .nop
  | 0x0F => some .finish
  | _ => none

/-- Decode a command; none for an opcode outside R207 (R207: BAD_FIELD at IMAGE_LOAD). -/
def decodeSlab (w : CmdWords) : Option SlabCmd :=
  match unpackFields w0Widths w.w0 with
  | [code, we, wo, wc, wn, se, sc, si, _] =>
    (decodeOp code w).map fun op => ⟨⟨n2b we, n2b wo, wc, wn, n2b se, sc, si⟩, op⟩
  | _ => none

/-- The words whose reserved bits are zero (R13, R206): the encoding of what was decoded is the input. -/
def slabReservedOk (w : CmdWords) : Bool :=
  match decodeSlab w with
  | some c => encodeSlab c == w
  | none => true

/-- The four words of a 32-byte command (R202, R7). -/
def cmdWordsOf (bs : List Byte) : CmdWords := ⟨leAt bs 0 8, leAt bs 8 8, leAt bs 16 8, leAt bs 24 8⟩

/-- The bytes of a command in command memory (R202, R7). -/
def CmdWords.bytes (w : CmdWords) : List Byte := natLe 8 w.w0 ++ natLe 8 w.w1 ++ natLe 8 w.w2 ++ natLe 8 w.w3

/-- K of a TILE code (R105, R208). -/
def tileK (t : Nat) : Nat :=
  match t with
  | 0 => 128 | 1 => 128 | 2 => 64 | 3 => 64 | 4 => 128 | 5 => 32 | 6 => 32 | _ => 0

/-- N of a TILE code (R105, R208). -/
def tileN (t : Nat) : Nat :=
  match t with
  | 0 => 128 | 1 => 64 | 2 => 128 | 3 => 64 | 4 => 32 | 5 => 128 | 6 => 32 | _ => 0

/-- A DMA descriptor (R225); counts are stored as their values, not less one. -/
structure Desc where
  kind : Nat
  src : Nat
  dst : Nat
  fmt : Nat
  pfmt : Nat
  tile : Nat
  kv : Nat
  nv : Nat
  m : Nat
  bank : Nat
  arrays : Nat
  trans : Bool
  srcAddr : Nat
  srcSaddr : Nat
  rowStride : Nat
  srowStride : Nat
  arrayStride : Nat
  arraySstride : Nat
  k0 : Nat
  klen : Nat
  dstAddr : Nat
  bytes : Nat
deriving DecidableEq, Repr

/-- Widths of D0 (R225). -/
def d0Widths : List Nat := [2, 2, 2, 5, 5, 3, 8, 8, 11, 1, 4, 1, 12]
/-- Widths of D1, D2 and D6. -/
def d48Widths : List Nat := [48, 16]
/-- Widths of D3, D4 and D7. -/
def d32Widths : List Nat := [32, 32]
/-- Widths of D5. -/
def d5Widths : List Nat := [20, 16, 28]

/-- The eight words of a descriptor. -/
structure DescWords where
  d0 : Nat
  d1 : Nat
  d2 : Nat
  d3 : Nat
  d4 : Nat
  d5 : Nat
  d6 : Nat
  d7 : Nat
deriving DecidableEq, Repr

/-- Words of a descriptor (R225). -/
def encodeDesc (d : Desc) : DescWords :=
  { d0 := packFields d0Widths [d.kind, d.src, d.dst, d.fmt, d.pfmt, d.tile, d.kv - 1, d.nv - 1, d.m - 1, d.bank,
      d.arrays, b2n d.trans, 0]
    d1 := packFields d48Widths [d.srcAddr, 0]
    d2 := packFields d48Widths [d.srcSaddr, 0]
    d3 := packFields d32Widths [d.rowStride, d.srowStride]
    d4 := packFields d32Widths [d.arrayStride, d.arraySstride]
    d5 := packFields d5Widths [d.k0, d.klen - 1, 0]
    d6 := packFields d48Widths [d.dstAddr, 0]
    d7 := packFields d32Widths [d.bytes, 0] }

/-- Decode the words of a descriptor (R225). -/
def decodeDesc (w : DescWords) : Option Desc :=
  match unpackFields d0Widths w.d0, unpackFields d5Widths w.d5 with
  | [kind, src, dst, fmt, pf, ti, kv, nv, m, bk, ar, tr, _], [k0, kl, _] =>
    some
      { kind := kind, src := src, dst := dst, fmt := fmt, pfmt := pf, tile := ti, kv := kv + 1, nv := nv + 1,
        m := m + 1, bank := bk, arrays := ar, trans := n2b tr
        srcAddr := w.d1 % 2 ^ 48, srcSaddr := w.d2 % 2 ^ 48
        rowStride := w.d3 % 2 ^ 32, srowStride := w.d3 / 2 ^ 32 % 2 ^ 32
        arrayStride := w.d4 % 2 ^ 32, arraySstride := w.d4 / 2 ^ 32 % 2 ^ 32
        k0 := k0, klen := kl + 1, dstAddr := w.d6 % 2 ^ 48, bytes := w.d7 % 2 ^ 32 }
  | _, _ => none

/-- The words of a 64-byte descriptor (R225, R7). -/
def descWordsOf (bs : List Byte) : DescWords :=
  ⟨leAt bs 0 8, leAt bs 8 8, leAt bs 16 8, leAt bs 24 8, leAt bs 32 8, leAt bs 40 8, leAt bs 48 8, leAt bs 56 8⟩

/-- Streaming duration of M rows at a doubled row rate (R103). -/
def streamD (m rho2 : Nat) : Nat := cdiv (2 * m) rho2

/-- Step at which activation row m enters (R101): the floor of m / ρ. -/
def rowStep (rho2 m : Nat) : Nat := 2 * m / rho2

/-- Columns per weight group of a Streak weight format (R186). -/
def streakG (wfmt : Nat) : Nat :=
  match wfmt with
  | 0x0D => 16 | 0x0C => 16 | 0x09 => 16
  | 0x01 => 4 | 0x02 => 4
  | _ => 8

/-- Element bytes of one weight-group record (R229). -/
def streakEb (wfmt : Nat) : Nat := 128 * streakG wfmt * fmtBits wfmt / 8

end Sys2Proof.Machine
end

