-- ==== Sys2Proof/Machine/Special.lean ====
section
/-! DEFINITION. Special functions of the vector engine, correctly rounded (spec/09 R262, R263). EXP and LOG
are evaluated in fixed point with 400 fraction bits; that no input lies closer to a rounding boundary than that
is PRESUMED (log entry 15). -/

namespace Sys2Proof.Machine

/-- Fraction bits of the fixed-point evaluation. -/
def sfBits : Nat := 400

/-- e^r for a fixed-point 0 ≤ r ≤ 1/8, by n Taylor terms in Horner form. -/
def expTaylor (r : Nat) : Nat → Nat → Nat
  | 0, acc => acc
  | n + 1, acc => expTaylor r n (2 ^ sfBits + (acc * r / 2 ^ sfBits) / (n + 1))

/-- Square a fixed-point value k times. -/
def sqTimes : Nat → Nat → Nat
  | 0, v => v
  | k + 1, v => sqTimes k (v * v / 2 ^ sfBits)

/-- e^x of a nonnegative x = m × 2^e below 256, in fixed point. -/
def expFix (m : Nat) (e : Int) : Nat :=
  let p : Int := e + sfBits - 12
  let r := if p ≥ 0 then m <<< p.toNat else m >>> (-p).toNat
  sqTimes 12 (expTaylor r 80 (2 ^ sfBits))

/-- e^x of a finite x, exact up to the fixed-point error; magnitudes of 256 and more count as far out of range. -/
def expVal (neg : Bool) (m : Nat) (e : Int) : Val :=
  if m = 0 then .one
  else if floorLog2 m e ≥ 8 then .fin false 1 (if neg then -2000 else 2000)
  else
    let q := expFix m e
    if neg then
      if floorLog2 m e < -200 then .fin false (2 ^ 200 - 1) (-200)
      else .fin false (2 ^ (2 * sfBits) / q) (-(sfBits : Int))
    else if floorLog2 m e < -200 then .fin false (2 ^ 200 + 1) (-200)
    else .fin false q (-(sfBits : Int))

/-- Sum of z^(2i+1)/(2i+1) for i from k to k + n − 1, z² given, `t` the running power. -/
def atanhTerms (z2 : Nat) : Nat → Nat → Nat → Nat → Nat
  | 0, _, _, acc => acc
  | n + 1, i, t, acc => atanhTerms z2 n (i + 1) (t * z2 / 2 ^ sfBits) (acc + t / (2 * i + 1))

/-- 2 atanh(a/b) in fixed point for a/b at most 1/3. -/
def twoAtanh (a b : Nat) : Nat :=
  let z := (a <<< sfBits) / b
  2 * atanhTerms (z * z / 2 ^ sfBits) 130 0 z 0

/-- ln x of a positive x = m × 2^e. -/
def logVal (m : Nat) (e : Int) : Val :=
  let k := m.log2
  let y0 := 2 ^ k
  let i : Int := (floorLog2 m e) * (twoAtanh 1 3 : Nat) + (twoAtanh (m - y0) (m + y0) : Nat)
  if m = y0 ∧ floorLog2 m e = 0 then .pzero
  else .fin (decide (i < 0)) i.natAbs (-(sfBits : Int))

/-- 1 / x of a nonzero x = m × 2^e, with a sticky bit below the quotient. -/
def rcpVal (neg : Bool) (m : Nat) (e : Int) : Val :=
  let p := 300 + m.log2
  let q := 2 ^ p / m
  let s := if q * m = 2 ^ p then 0 else 1
  .fin neg (2 * q + s) (-(p : Int) - e - 1)

/-- Integer square root, one bit at a time from bit n − 1 down. -/
def isqrtFrom (v : Nat) : Nat → Nat → Nat
  | 0, q => q
  | n + 1, q => if (q + 2 ^ n) * (q + 2 ^ n) ≤ v then isqrtFrom v n (q + 2 ^ n) else isqrtFrom v n q

/-- 1 / √x of a positive x = m × 2^e, with a sticky bit. -/
def rsqrtVal (m : Nat) (e : Int) : Val :=
  let odd := e % 2 ≠ 0
  let m' := if odd then 2 * m else m
  let e' := if odd then e - 1 else e
  let p := 300
  let n := 2 ^ (2 * p) / m'
  let q := isqrtFrom n (p + 1) 0
  let s := if q * q * m' = 2 ^ (2 * p) then 0 else 1
  .fin false (2 * q + s) (-(p : Int) - e' / 2 - 1)

/-- Value of a special function: 0 EXP, 1 LOG, 2 RCP, 3 RSQRT, before its one rounding (R262, R263). -/
def specialVal (op : Nat) (x : Val) : Val :=
  match op, x with
  | _, .nan => .nan
  | 0, .inf n => if n then .pzero else .inf false
  | 0, .fin n m e => expVal n m e
  | 1, .inf n => if n then .nan else .inf false
  | 1, .fin n m e => if m = 0 then .inf true else if n then .nan else logVal m e
  | 2, .inf n => .fin n 0 0
  | 2, .fin n m e => if m = 0 then .inf n else rcpVal n m e
  | _, .inf n => if n then .nan else .pzero
  | _, .fin n m e => if m = 0 then .inf n else if n then .nan else rsqrtVal m e

end Sys2Proof.Machine
end

