-- ==== Sys2Proof/Machine/VecOps.lean ====
section
/-! DEFINITION. The vector engine as functions of its operands: lanes, masks, poison, arithmetic, comparison,
reduction, permutation, conversion and summary (spec/09 R248 to R264, R274). -/

namespace Sys2Proof.Machine

/-- A vector register with its poison bits, one per 64-bit granule (R237, R274). -/
structure VReg where
  bits : VecReg := 0
  poison : BitVec 32 := 0
deriving DecidableEq, Repr

/-- A scalar register with its poison bit (R237, R274). -/
structure SReg where
  bits : Word64 := 0
  poison : Bool := false
deriving DecidableEq, Repr

/-- What an operation adds to PebbleFpCount (R261). -/
structure FpAdd where
  sat : Nat
  nan : Nat
  trit : Nat
deriving DecidableEq, Repr

/-- One output element of a vector operation: bit position, width, bits, poison, what it adds to the counters. -/
structure OutElem where
  pos : Nat
  width : Nat
  bits : Nat
  poison : Bool
  sat : Bool
  nan : Bool
deriving DecidableEq, Repr

/-- Bits [pos+w−1 : pos] of a register. -/
def VReg.get (v : VReg) (pos w : Nat) : Nat := fld v.bits.toNat pos w

/-- Lane i of width w (R248). -/
def VReg.lane (v : VReg) (w i : Nat) : Nat := v.get (w * i) w

/-- Whether any granule that bits [pos+w−1 : pos] touch is poisoned (R274). -/
def VReg.pois (v : VReg) (pos w : Nat) : Bool :=
  (upTo ((pos + w - 1) / 64 - pos / 64 + 1)).any fun k => v.poison.getLsbD (pos / 64 + k)

/-- Write output elements into a register under a mask (R249, R274). Element i is governed by mask bit i; a lane
that is not enabled keeps its old bits (MZ = 0) or becomes zero. `clear` zeroes the bits that no element covers
(R257). -/
def writeElems (old : VReg) (mask : MaskReg) (mz clear : Bool) (outs : List OutElem) : VReg :=
  let idx := (upTo outs.length).zip outs
  let base := if clear then (0 : Nat) else old.bits.toNat
  let put (acc : Nat) (p : Nat × OutElem) : Nat :=
    let o := p.2
    let hole := 2 ^ o.pos * (2 ^ o.width - 1)
    let v := if mask.getLsbD p.1 then o.bits else if mz then 0 else old.get o.pos o.width
    (acc ^^^ (acc &&& hole)) ||| (v % 2 ^ o.width * 2 ^ o.pos)
  let covered (g : Nat) : List (Nat × OutElem) :=
    idx.filter fun p => decide (p.2.pos < 64 * (g + 1)) && decide (64 * g < p.2.pos + p.2.width)
  let pg (g : Nat) : Bool :=
    let c := covered g
    if c.isEmpty then (!clear && old.poison.getLsbD g)
    else c.any fun p =>
      if mask.getLsbD p.1 then p.2.poison else (!mz && old.poison.getLsbD g)
  { bits := BitVec.ofNat 2048 (idx.foldl put base)
    poison := BitVec.ofNat 32 ((upTo 32).foldl (fun acc g => if pg g then acc + 2 ^ g else acc) 0) }

/-- Counter additions of the enabled elements (R261: masked elements never count). -/
def countElems (mask : MaskReg) (outs : List OutElem) : FpAdd :=
  let on := ((upTo outs.length).zip outs).filter fun p => mask.getLsbD p.1
  ⟨on.countP (fun p => p.2.sat), on.countP (fun p => p.2.nan), 0⟩

/-- Float layout of a float TYPE (R251). -/
def typeLayout (t : Nat) : FLayout := if t = 1 then fp16 else if t = 2 then bf16 else fp32

/-- Result code of one lane with its counter marks. -/
structure LaneRes where
  code : Nat
  sat : Bool
  nan : Bool
deriving DecidableEq, Repr

/-- Round an exact float result to TYPE under RMODE and SAT (R253, R156); `inNan` says an operand was NaN. -/
def roundType (t : Nat) (mode : Round) (nonSat inNan : Bool) (v : Val) : LaneRes :=
  let f := typeLayout t
  let c := f.convert mode nonSat v
  let ovf := match v with
    | .fin _ m e => decide (f.roundMag mode m e > f.maxCode) && mode != .rtz
    | _ => false
  ⟨c, ovf && !nonSat, v.isNan && !inNan⟩

/-- Clamp or wrap an exact integer to TYPE under SAT (R253). -/
def clampType (t : Nat) (nonSat : Bool) (v : Int) : LaneRes :=
  let w := laneW t
  let lo : Int := -(2 ^ (w - 1) : Nat)
  let hi : Int := (2 ^ (w - 1) : Nat) - 1
  if nonSat then ⟨unsgn w v, false, false⟩
  else if v < lo then ⟨unsgn w lo, true, false⟩
  else if v > hi then ⟨unsgn w hi, true, false⟩
  else ⟨unsgn w v, false, false⟩

/-- Minimum of R253: canonical NaN if either operand is NaN, −0 below +0. -/
def fMin (a b : Val) : Val := Val.minZ a b
/-- Maximum of R253. -/
def fMax (a b : Val) : Val := Val.maxZ a b

/-- One lane of V.ARITH on a float TYPE, operations 0x00 to 0x09 (R252, R253). -/
def arithFloat (t op : Nat) (mode : Round) (nonSat : Bool) (a b c : Nat) : LaneRes :=
  let f := typeLayout t
  let x := f.decode a
  let y := f.decode b
  let z := f.decode c
  match op with
  | 0 => roundType t mode nonSat (x.isNan || y.isNan) (Val.add x y)
  | 1 => roundType t mode nonSat (x.isNan || y.isNan) (Val.add x y.neg)
  | 2 => roundType t mode nonSat (x.isNan || y.isNan) (Val.mul x y)
  | 3 => roundType t mode nonSat (x.isNan || y.isNan || z.isNan) (Val.add (Val.mul x y) z)
  | 4 => roundType t mode nonSat (x.isNan || y.isNan || z.isNan) (Val.add (Val.mul x y) z.neg)
  | 5 => roundType t .rne true true (fMin x y)
  | 6 => roundType t .rne true true (fMax x y)
  | 7 => roundType t .rne true true x.abs
  | 8 => roundType t .rne true true x.neg
  | _ => ⟨b, false, false⟩

/-- One lane of V.ARITH on an integer TYPE (R252, R253). -/
def arithInt (t op aux : Nat) (nonSat : Bool) (a b c : Nat) : LaneRes :=
  let w := laneW t
  let x := sgn w a
  let y := sgn w b
  let z := sgn w c
  match op with
  | 0 => clampType t nonSat (x + y)
  | 1 => clampType t nonSat (x - y)
  | 2 => clampType t nonSat (x * y)
  | 3 => clampType t nonSat (x * y + z)
  | 4 => clampType t nonSat (x * y - z)
  | 5 => ⟨unsgn w (min x y), false, false⟩
  | 6 => ⟨unsgn w (max x y), false, false⟩
  | 7 => clampType t nonSat (x.natAbs : Int)
  | 8 => clampType t nonSat (-x)
  | 9 => ⟨b, false, false⟩
  | 0xA => ⟨a &&& b, false, false⟩
  | 0xB => ⟨a ||| b, false, false⟩
  | 0xC => ⟨a ^^^ b, false, false⟩
  | 0xD => ⟨(a <<< aux) % 2 ^ w, false, false⟩
  | 0xE => ⟨unsgn w (x >>> aux), false, false⟩
  | _ => ⟨a >>> aux, false, false⟩

/-- One lane of V.ARITH for either kind of TYPE. -/
def arithLane (t op aux : Nat) (mode : Round) (nonSat : Bool) (a b c : Nat) : LaneRes :=
  if isFloatT t then arithFloat t op mode nonSat a b c else arithInt t op aux nonSat a b c

/-- Whether an operation of V.ARITH reads its operands a, b, c (R252). -/
def arithReads (op : Nat) : Bool × Bool × Bool :=
  match op with
  | 3 | 4 => (true, true, true)
  | 7 | 8 | 0xD | 0xE | 0xF => (true, false, false)
  | 9 => (false, true, false)
  | _ => (true, true, false)

/-- Operands of a vector operation. `b` is VB or the broadcast immediate (R250). -/
structure VSrc where
  a : VReg
  b : VReg
  c : VReg
  old : VReg
  mask : MaskReg
deriving DecidableEq, Repr

/-- A value broadcast to every lane (R250). -/
def broadcast (w v : Nat) : VReg :=
  ⟨BitVec.ofNat 2048 ((upTo (2048 / w)).foldl (fun acc i => acc + v % 2 ^ w * 2 ^ (w * i)) 0), 0⟩

/-- Result of an operation that writes a vector register. -/
structure VRes where
  reg : VReg
  lfsr : Word32
  cnt : FpAdd
deriving DecidableEq, Repr

/-- Lane results in lane order, with one draw each under SR (R154). -/
def lanesWith (n : Nat) (rmode : Nat) (draws : Bool) (f : Round → Nat → LaneRes) (s : Word32) :
    List LaneRes × Word32 :=
  let r := (upTo n).foldl (fun (acc : List LaneRes × Word32) i =>
    let (mode, s') := if draws then drawMode rmode acc.2 else drawMode (if rmode = 2 then 0 else rmode) acc.2
    (f mode i :: acc.1, s')) ([], s)
  (r.1.reverse, r.2)

/-- V.ARITH (R252, R253). SR takes one draw per lane for the float operations that round. -/
def vArith (v : VWord) (x : VSrc) (s : Word32) : VRes :=
  let w := laneW v.type
  let n := laneN v.type
  let (ra, rb, rc) := arithReads v.op
  let draws := v.rmode == 2 && isFloatT v.type && decide (v.op ≤ 4)
  let (ls, s') := lanesWith n v.rmode draws
    (fun mode i => arithLane v.type v.op v.aux mode v.nonSat (x.a.lane w i) (x.b.lane w i) (x.c.lane w i)) s
  let outs := ((upTo n).zip ls).map fun (i, r) =>
    OutElem.mk (w * i) w r.code
      ((ra && x.a.pois (w * i) w) || (rb && x.b.pois (w * i) w) || (rc && x.c.pois (w * i) w)) r.sat r.nan
  ⟨writeElems x.old x.mask v.mz false outs, s', countElems x.mask outs⟩

/-- One comparison (R254): 0 EQ, 1 NE, 2 LT, 3 LE, 4 GT, 5 GE, 6 UNORD. -/
def cmpVals (op : Nat) (a b : Val) : Bool :=
  let un := a.isNan || b.isNan
  match op with
  | 0 => Val.eq a b
  | 1 => !Val.eq a b
  | 2 => Val.lt a b
  | 3 => !un && !Val.lt b a
  | 4 => Val.lt b a
  | 5 => !un && !Val.lt a b
  | _ => un

/-- Value of a lane of an arithmetic TYPE. -/
def laneVal (t c : Nat) : Val :=
  if isFloatT t then (typeLayout t).decode c else Val.ofInt (sgn (laneW t) c)

/-- Write mask bits under the enabling mask (R249, R254); bits at L and above are kept. -/
def writeMask (old en : MaskReg) (mz : Bool) (n : Nat) (f : Nat → Bool) : MaskReg :=
  BitVec.ofNat 256 ((upTo 256).foldl (fun acc i =>
    let b := if decide (i < n) then (if en.getLsbD i then f i else if mz then false else old.getLsbD i)
      else old.getLsbD i
    if b then acc + 2 ^ i else acc) 0)

/-- V.CMP comparisons (R254). -/
def vCompare (v : VWord) (x : VSrc) (old : MaskReg) : MaskReg :=
  let w := laneW v.type
  writeMask old x.mask v.mz (laneN v.type) fun i =>
    cmpVals v.op (laneVal v.type (x.a.lane w i)) (laneVal v.type (x.b.lane w i))

/-- V.CMP mask logic (R252): 0x10 AND, 0x11 OR, 0x12 XOR, 0x13 AND NOT. -/
def vMaskLogic (v : VWord) (a b en old : MaskReg) : MaskReg :=
  let r := match v.op with
    | 0x10 => a &&& b
    | 0x11 => a ||| b
    | 0x12 => a ^^^ b
    | _ => a &&& ~~~b
  writeMask old en v.mz (laneN v.type) fun i => r.getLsbD i

/-- V.SF (R262, R263). -/
def vSpecial (v : VWord) (x : VSrc) : VReg × FpAdd :=
  let w := laneW v.type
  let src := if v.imm then x.b else x.a
  let outs := (upTo (laneN v.type)).map fun i =>
    let a := (typeLayout v.type).decode (src.lane w i)
    let r := roundType v.type .rne v.nonSat a.isNan (specialVal v.op a)
    OutElem.mk (w * i) w r.code (src.pois (w * i) w) r.sat r.nan
  (writeElems x.old x.mask v.mz false outs, countElems x.mask outs)

/-- One level of the reduction tree (R255). -/
def reduceLevel (f : LaneRes → LaneRes → LaneRes) : List (Option LaneRes) → List (Option LaneRes)
  | a :: b :: t =>
    (match a, b with
      | some x, some y => some (f x y)
      | some x, none => some x
      | none, y => y) :: reduceLevel f t
  | l => l

/-- Root of the reduction tree over at most 2^k lanes (R255). -/
def reduceTree (f : LaneRes → LaneRes → LaneRes) : Nat → List (Option LaneRes) → Option LaneRes
  | 0, l => l.head?.join
  | k + 1, l => reduceTree f k (reduceLevel f l)

/-- Result of a reduction with no enabled lane (R255): +0, the minimum side or the maximum side. -/
def reduceEmpty (t op : Nat) : Nat :=
  let w := laneW t
  if op = 0 then 0
  else if isFloatT t then (typeLayout t).pack (op == 1) (typeLayout t).infCode
  else if op = 1 then 2 ^ (w - 1) else 2 ^ (w - 1) - 1

/-- Value of a reduction over the enabled lanes (R255): 0 RSUM, 1 RMAX, 2 RMIN. -/
def reduceVal (t op : Nat) (nonSat : Bool) (lanes : List (Option Nat)) : LaneRes :=
  let leaf := lanes.map (Option.map fun c => LaneRes.mk c false false)
  if lanes.all Option.isNone then ⟨reduceEmpty t op, false, false⟩
  else if isFloatT t then
    let f := typeLayout t
    let comb (a b : LaneRes) : LaneRes :=
      let x := f.decode a.code
      let y := f.decode b.code
      if op = 0 then
        let r := roundType t .rne nonSat (x.isNan || y.isNan) (Val.add x y)
        ⟨r.code, a.sat || b.sat || r.sat, a.nan || b.nan || r.nan⟩
      else ⟨f.convert .rne true (if op = 1 then fMax x y else fMin x y), false, false⟩
    (reduceTree comb 8 leaf).getD ⟨0, false, false⟩
  else
    let w := laneW t
    let vs := lanes.filterMap (Option.map (sgn w))
    if op = 0 then clampType t nonSat (vs.foldl (· + ·) 0)
    else ⟨unsgn w (match vs with
      | [] => 0
      | h :: tl => tl.foldl (if op = 1 then max else min) h), false, false⟩

/-- Lanes of a register, absent where not enabled. -/
def enabledLanes (t : Nat) (v : VReg) (mask : MaskReg) : List (Option Nat) :=
  (upTo (laneN t)).map fun i => if mask.getLsbD i then some (v.lane (laneW t) i) else none

/-- Whether an enabled lane lies in a poisoned granule (R274). -/
def enabledPoison (t : Nat) (v : VReg) (mask : MaskReg) : Bool :=
  (upTo (laneN t)).any fun i => mask.getLsbD i && v.pois (laneW t * i) (laneW t)

/-- V.RED (R255): the root goes to every enabled lane. -/
def vReduce (v : VWord) (x : VSrc) : VReg × FpAdd :=
  let w := laneW v.type
  let r := reduceVal v.type v.op v.nonSat (enabledLanes v.type x.a x.mask)
  let p := enabledPoison v.type x.a x.mask
  let outs := (upTo (laneN v.type)).map fun i => OutElem.mk (w * i) w r.code p r.sat r.nan
  (writeElems x.old x.mask v.mz false outs, countElems x.mask outs)

/-- V.PERM SPLAT, SHUP, SHDN, SEL and SWAP2 (R256): lane i of the result. -/
def permLane (v : VWord) (imm : Nat) (x : VSrc) (i : Nat) : Nat × Bool :=
  let w := laneW v.type
  let n := laneN v.type
  let from_ (r : VReg) (j : Nat) : Nat × Bool := (r.lane w j, r.pois (w * j) w)
  match v.op with
  | 0 => from_ x.a (imm % 256)
  | 1 => if i < imm % 256 then (0, false) else from_ x.a (i - imm % 256)
  | 2 => if i + imm % 256 < n then from_ x.a (i + imm % 256) else (0, false)
  | 3 => if x.mask.getLsbD i then from_ x.a i else from_ x.b i
  | _ => from_ x.a (i ^^^ 1)

/-- V.PERM SPLAT, SHUP, SHDN, SEL and SWAP2 (R256). -/
def vPerm (v : VWord) (imm : Nat) (x : VSrc) : VReg :=
  let w := laneW v.type
  let outs := (upTo (laneN v.type)).map fun i =>
    let (c, p) := permLane v imm x i
    OutElem.mk (w * i) w c p false false
  writeElems x.old (if v.op = 3 then BitVec.allOnes 256 else x.mask) v.mz false outs

/-- PACK5 (R256): digits in lanes 0 to 159, five per byte, ignoring MASK. A digit above 2 has no code in R145:
its byte is a free value (log entry 16). -/
def vPack5 (a : VReg) : VReg :=
  let byte (j : Nat) : Nat × Bool :=
    let ds := (upTo 5).map fun k => a.lane 8 (5 * j + k)
    let p := (upTo 5).any fun k => a.pois (8 * (5 * j + k)) 8
    (if ds.all (decide <| · ≤ 2) then tritByte ds else (Config.packBad ds).toNat, p)
  let outs := (upTo 32).map fun j => OutElem.mk (8 * j) 8 (byte j).1 (byte j).2 false false
  writeElems {} (BitVec.allOnes 256) false true outs

/-- UNPACK5 (R256): bytes 0 to 31 into digit lanes 0 to 159, zero above; an invalid byte gives digits 1. -/
def vUnpack5 (v : VWord) (x : VSrc) : VReg × Nat :=
  let dig (i : Nat) : Nat × Bool :=
    if i < 160 then
      let b := x.a.lane 8 (i / 5)
      ((if tritValid b then (tritDigits b).getD (i % 5) 0 else 1), x.a.pois (8 * (i / 5)) 8)
    else (0, false)
  let outs := (upTo 256).map fun i => OutElem.mk (8 * i) 8 (dig i).1 (dig i).2 false false
  let bad := (upTo 32).countP fun j =>
    !tritValid (x.a.lane 8 j) && (upTo 5).any fun k => x.mask.getLsbD (5 * j + k)
  (writeElems x.old x.mask v.mz false outs, bad)

/-- Bit width of an element of V.CVT (R257, R259): TB32 digits fill 8-bit lanes. -/
def cvtBits (t : Nat) : Nat := if t = 0x0D then 8 else fmtBits t

/-- Bit position of element j of V.CVT (R257). -/
def cvtPos (t j : Nat) : Nat := cvtBits t * j

/-- Elements of a V.CVT (R257). -/
def cvtCount (t t2 : Nat) : Nat := 2048 / max (laneW t) (laneW t2)

/-- Source element value under its block scale code (R258, R259). -/
def cvtSource (t bits scale : Nat) : Val :=
  if t = 0x0D then
    if scale % 256 = 255 then .nan
    else (if bits ≤ 2 then Val.ofInt ((bits : Int) - 1) else Val.pzero).scale ((scale % 256 : Nat) - 127 : Int)
  else decodeScaled t bits scale

/-- Conversion to E8M0 (R260). -/
def toE8m0 : Val → Nat
  | .nan => 0xFF
  | .inf _ => 0xFF
  | .fin _ m e => if m = 0 then 0 else (max 0 (min 254 (floorLog2 m e + 127))).toNat

/-- One converted element with its counter marks (R156, R159, R261). -/
def cvtElem (t2 scale : Nat) (mode : Round) (nonSat : Bool) (v : Val) : LaneRes :=
  if t2 = 0x10 then ⟨toE8m0 v, false, false⟩
  else
    let x := if fmtBlock t2 then v.scale (127 - (scale : Int)) else v
    let blockNan := fmtBlock t2 && scale == 0xFF
    let c := if fmtBlock t2 then blockElem t2 scale mode nonSat v else convertElem t2 mode nonSat v
    let sat :=
      match fmtLayout t2, x with
      | some f, .fin _ m e => decide (f.roundMag mode m e > f.maxCode) && (!nonSat || f.special == .none) && mode != .rtz
      | some f, .inf _ => f.special == .none || (f.special == .nanOnly && !nonSat)
      | none, .inf _ => true
      | none, .fin _ _ _ => t2 != 0x0D && clampsInt (fmtBits t2) (fmtUnit t2) mode x
      | _, .nan => false
    let nan :=
      match fmtLayout t2 with
      | some f => f.special == .nanOnly && c % 128 == f.nanCode && !v.isNan
      | none => false
    ⟨c, sat && !blockNan, nan && !blockNan⟩

/-- V.CVT (R257 to R260). `scales` are the source scales, or the target scales of an extension word; the answer
holds the computed target scales where there are any; a poisoned element reaches its whole block through a computed scale (R274). -/
def vConvert (v : VWord) (x : VSrc) (srcScales : Nat) (extScales : Option Nat) (s : Word32) :
    VRes × Option Nat :=
  let n := cvtCount v.type v.type2
  let srcOf (j : Nat) : Nat := x.a.get (cvtPos v.type j) (cvtBits v.type)
  let vals := (upTo n).map fun j => cvtSource v.type (srcOf j) (fld srcScales (8 * (j / 32)) 8)
  let scaleOf (b : Nat) : Nat :=
    match extScales with
    | some e => fld e (8 * b) 8
    | none => blockScale v.type2 (((upTo n).zip vals).filterMap fun (j, a) =>
        if j / 32 = b ∧ x.mask.getLsbD j then some a else none)
  let draws := v.rmode == 2 && v.type2 != 0x0D && v.type != 0x10 && v.type2 != 0x10
  let (ls, s') := lanesWith n v.rmode draws
    (fun mode j => cvtElem v.type2 (if fmtBlock v.type2 then scaleOf (j / 32) else 0) mode v.nonSat
      (vals.getD j Val.pzero)) s
  let poisoned (j : Nat) : Bool := x.a.pois (cvtPos v.type j) (cvtBits v.type)
  let scaleBad (b : Nat) : Bool := fmtBlock v.type2 && extScales.isNone
    && (upTo 32).any fun i => x.mask.getLsbD (32 * b + i) && poisoned (32 * b + i)
  let outs := ((upTo n).zip ls).map fun (j, r) =>
    OutElem.mk (cvtPos v.type2 j) (cvtBits v.type2) r.code (poisoned j || scaleBad (j / 32)) r.sat r.nan
  let trit := if v.type = 0x0D then
    (upTo n).countP fun j => decide (srcOf j > 2) && x.mask.getLsbD j else 0
  let c := countElems x.mask outs
  let computed := if fmtBlock v.type2 && extScales.isNone then
    some ((upTo (n / 32)).foldl (fun acc b => acc + scaleOf b * 2 ^ (8 * b)) 0) else none
  (⟨writeElems x.old x.mask v.mz true outs, s', { c with trit := trit }⟩, computed)

/-- V.SUM ANY, ALL, COUNT, FIRST on a mask register (R264). -/
def vSumMask (op t : Nat) (m en : MaskReg) : Nat :=
  let n := laneN t
  let on := (upTo n).filter fun i => en.getLsbD i
  match op with
  | 0 => b2n (on.any fun i => m.getLsbD i)
  | 1 => b2n (on.all fun i => m.getLsbD i)
  | 2 => on.countP fun i => m.getLsbD i
  | _ => ((on.filter fun i => m.getLsbD i).head?).getD n

/-- V.SUM MAX (R264): the float exactly in FP32, an integer sign-extended to 64 bits. -/
def vSumMax (t : Nat) (v : VReg) (en : MaskReg) : Nat :=
  let r := reduceVal t 1 true (enabledLanes t v en)
  if isFloatT t then fp32.convert .rne true ((typeLayout t).decode r.code)
  else unsgn 64 (sgn (laneW t) r.code)

end Sys2Proof.Machine
end

