-- ==== Sys2Proof/Machine/State.lean ====
section
/-! DEFINITION. The state of the block: everything the spec gives the machine, as plain data.
Each structure names the rules that give it. Tables are lists of key and value pairs in canonical
form (`tabWf`): keys rising, no entry equal to the value an unlisted key reads as. -/

namespace Sys2Proof.Machine

/-- The fields of an event that the raiser gives (R567, R569). `cls` to `ctx` are UNIT bytes 32 to 35; `key` tells raisers apart that the record
does not name (R568). -/
structure Ev where
  code : Nat
  cause : Nat := 0
  flags : Nat := 0
  sev : Nat
  die : Nat := 0xFF
  partition : Nat := 0xFF
  cls : Nat := 0
  idx : Nat := 0
  sub : Nat := 0xFF
  ctx : Nat := 0xFF
  addr : Nat := 0
  endpoint : Nat := 0
  index : Nat := 0
  valueA : Nat := 0
  valueB : Nat := 0
  key : Nat := 0
deriving DecidableEq, Repr

/-- An event record (R567): SEQ, BEAT, WALL_TIME and COUNT beside the raiser's fields. `at_` is the wall
beat of the record, which folds once-per-beat repeats (R568). -/
structure EvRec where
  seq : Nat
  beat : Nat
  wallTime : Nat
  count : Nat
  at_ : Nat
  ev : Ev
deriving DecidableEq, Repr

/-- The window of R568 that keeps one code of one unit below 1,000 records a second. -/
structure EvRate where
  code : Nat
  cls : Nat
  idx : Nat
  sub : Nat
  die : Nat
  since : Nat
  n : Nat
  carried : Nat
deriving DecidableEq, Repr

/-- The event log (R567, R568): the next SEQ, every record kept, how many wait for the flush. -/
structure Events where
  seq : Nat
  log : List EvRec
  held : Nat
  heldSince : Nat
  rates : List EvRate
deriving DecidableEq, Repr

/-- What the last command put on the block's outputs: this model's own record (log entry 5). -/
inductive Out where
  | hostWrite (addr : Nat) (bytes : List Byte)
  | hostRead (bytes : List Byte)
  | completerAbort
  | msix (port function vector : Nat)
  | header (port : Nat) (payload : List Byte)
  | idleSlot0 (port : Nat)
  | flit (port slot : Nat) (bytes : List Byte)
  | packet (router outPort : Nat) (p : Packet)
  | training (port : Nat) (block : List Byte)
  | reply (transport : Nat) (bytes : List Byte)
  | setpoint (rail millivolts : Nat)
  | pin (name : Nat) (level : Bool)
  | ringMsg (die dest id : Nat)
  | mate (kind : Nat) (fields : List Nat)
deriving DecidableEq, Repr

/-- What one port has delivered of beat headers (R42, R49, R52). -/
structure BeatPort where
  expected : Option Nat := none
  good : Nat := 0
  hop : Nat := 0
  master : Nat := 0
  gotThis : Bool := false
  anyValid : Bool := false
  misses : Nat := 0
deriving DecidableEq, Repr

/-- An open hold request at the master (R58, R59). `seen` is none until a hold first serves it. -/
structure HoldReq where
  device : Nat
  n : Nat
  s : Nat
  seen : Option Nat
deriving DecidableEq, Repr

/-- Beat registers and beat logic (R33, R42 to R70). -/
structure Beat where
  role : Nat
  source : Nat
  holdCap : Nat
  domain : Nat
  maskVein : Nat
  maskD2d : Nat
  state : Nat
  hop : Nat
  parentPort : Nat
  parentD2d : Bool
  beatInOk : Bool
  lossCause : Nat
  lossSeen : Bool
  master : Nat
  number : Nat
  holdCount : Nat
  highWater : Nat
  latency : List (Nat × Nat)
  configGen : Nat
  extSource : Bool
  fwdHoldCap : Nat
  ports : List (Nat × BeatPort)
  heldBeats : List Nat
  annFrom : Nat
  annTo : Nat
  requests : List HoldReq
deriving DecidableEq, Repr

/-- The rest of the beat logic: joining, alignment, BEAT_IN and the device's own request (R46 to R65). -/
structure BeatAux where
  ownLeft : Nat
  ownRaised : Bool
  joinSince : Nat
  searchSince : Nat
  alignGood : Nat
  lossSince : Nat
  lostByJoin : Bool
  conflictNow : Bool
  conflictBeats : Nat
  conflictHeld : Bool
  conflictRaised : Bool
  lastValid : Nat
  missing : Nat
  stopAtEdge : Bool
  edgePhase : Int
  alignErrs : List Int
  alignWait : Nat
  alignBad : Nat
  beatInIgnored : Nat
  beatInGood : Nat
  beatInPhase : Int
  approach : Bool
  startPending : Option Nat
  parentNext : Option Nat
deriving DecidableEq, Repr

/-- One half of a die (R22, R83, R94): frequency index, job cycles up to the current beat edge. -/
structure Half where
  freq : Nat := 0x10
  cycBase : Nat := 0
  partition : Option Nat := none
deriving DecidableEq, Repr

/-- A frequency change that waits or runs in the Seam (R89): half and new frequency index; both halves
of a partition change together. -/
structure SeamReq where
  h0 : Option Nat
  h1 : Option Nat
deriving DecidableEq, Repr

/-- The Seam of one die (R87 to R95). -/
structure Seam where
  mode : Nat := 0
  slipSeen : Bool := false
  slipCause : Nat := 0
  slipRows : Nat := 0
  slips : Nat := 0
  slipBeat : Option Nat := none
  changes : Nat := 0
  changeAt : Nat := 0
  current : Option SeamReq := none
  queue : List SeamReq := []
  poisoned : Nat := 0
deriving DecidableEq, Repr

/-- What one lane of a mesh output carried in a job cycle (R75, R78): 64 bytes, or a prefetched delivery for a cycle (R302). -/
structure LaneWord where
  at_ : Nat
  bytes : List PByte
deriving DecidableEq, Repr

/-- Cursor of a LOCAL slot entry (R301). -/
structure Cursor where
  base : Nat := 0
  wrap : Nat := 0
  pos : Nat := 0
deriving DecidableEq, Repr

/-- The scheduled mesh (R75 to R79, R290, R301, R302). Slots, cursors and prefetched deliveries are keyed by 1024 × tile + entry with
tile = 32p + 16h + 4row + column; `lanes` by (tile × 8 + port) × 16 + lane, the last sends of each; `claims` under the same key holds
8 × (cycle + 1) + IN of the entry that holds the lane; `banks`, keyed 64 × tile + bank, the last cycle + 1 in which a quarry bank was granted. -/
structure Mesh where
  slots : List (Nat × Word64)
  cursors : List (Nat × Cursor)
  lanes : List (Nat × List LaneWord)
  claims : List (Nat × Nat)
  prefetch : List (Nat × List LaneWord)
  banks : List (Nat × Nat)
deriving DecidableEq, Repr

/-- An accumulator word (R98, R167, R174). -/
structure AccWord where
  code : Nat := 0
  poison : Bool := false
deriving DecidableEq, Repr

/-- A slab effect that takes place at a later job cycle (R101, R179, R191, R227). `acc` carries the column sums of one row
from a column on: with `skew` one column a cycle (R101), else all at once (R191);
mode 9 only marks entries poisoned (R129). `streakRec` reads weight-group record r (R229) and processes row 0, `streakRow` a later row m against the record's weights
(columns × K rows, R191); `drainRow` reads row j (R179). -/
inductive SlabEff where
  | acc (array row col : Nat) (sums : List ColSum) (skew : Bool) (mode : Nat) (combine pair : Bool)
  | streakRec (x : Nat) (k : StreakOp) (c r : Nat)
  | streakRow (x : Nat) (k : StreakOp) (r m : Nat) (weights : List (List (Val × Bool)))
  | drainRow (x : Nat) (d : DrainOp) (j : Nat)
  | store (off : Nat) (bytes : List PByte)
  | fifo (bytes : List PByte) (copy : Bool)
  | sbank (bank off : Nat) (bytes : List PByte)
deriving DecidableEq, Repr

/-- Rows that an issued command still writes (kind 0 pass, 1 Streak) or reads (kind 2 drain) (R106, R194, R195).
`c` is the issue cycle; p1 to p3 are K, N, 2ρ of a pass, and S, N, G of a Streak command. -/
structure RowLock where
  ctx : Nat
  kind : Nat
  arrays : Nat
  lo : Nat
  m : Nat
  pair : Bool
  c : Nat
  p1 : Nat
  p2 : Nat
  p3 : Nat
deriving DecidableEq, Repr

/-- A reader of a staging or Streak bank (R222): bank key, when selected, and when it finishes if known. -/
structure BankRead where
  key : Nat
  sel : Nat
  fin : Option Nat
deriving DecidableEq, Repr

/-- A DMA descriptor from dispatch to completion (R224 to R227), its addresses and counts effective: when it started, when its reading ended
(`readEnd`), the bytes got so far and the tags of its routed requests still unanswered. -/
structure DmaJob where
  x : Nat
  desc : Desc
  at_ : Attach
  dispatched : Nat
  started : Option Nat
  readEnd : Option Nat
  got : List PByte
  tags : List Nat
deriving DecidableEq, Repr

/-- The pass that streams and the one selected behind it (R109 to R111). -/
structure PassRun where
  x : Nat
  c : Nat
  d : Nat
  k : Nat
deriving DecidableEq, Repr

/-- A selected pass: context, selection cycle, load start L, captured weight bank (R109, R111). -/
structure PassSel where
  x : Nat
  selAt : Nat
  load : Nat
  wbank : List (Nat × PByte)
  wbad : List Nat
deriving DecidableEq, Repr

/-- A pass (kind 0), Streak command (1) or drain (2) in flight that completes at a cycle (R191, R179, R204); `bank` is the Streak bank that a drain fills. -/
structure InFlight where
  x : Nat
  kind : Nat
  issued : Nat
  done : Nat
  bank : Option Nat
  at_ : Attach
deriving DecidableEq, Repr

/-- Memories and engines of one slab (R98, R188, R214, R224). Banks are keyed by
bank × size + offset, activation banks by (array × 2 + bank) × 131072 + offset, accumulators by
(array × 2048 + row) × 128 + column. `weightErr` lists array × 128 + column with a parity error (R128), `accErr` accumulator words with an
ECC error, true if uncorrectable (R174), `sbankErr` uncorrectable Streak words by bank × 8192 + word (R198). -/
structure SlabMem where
  wbank : List (Nat × PByte) := []
  wbad : List Nat := []
  abank : List (Nat × PByte) := []
  sbank : List (Nat × PByte) := []
  acc : List (Nat × AccWord) := []
  outFifo : List PByte := []
  inFifo : List PByte := []
  weightErr : List Nat := []
  accErr : List (Nat × Bool) := []
  sbankErr : List Nat := []
deriving DecidableEq, Repr

/-- Sequencer state of one slab (R106 to R111, R194 to R197, R213, R224). -/
structure SlabSeq where
  cur : Nat := 0
  effs : List (Nat × SlabEff) := []
  locks : List RowLock := []
  readers : List BankRead := []
  inflight : List InFlight := []
  active : Option PassRun := none
  selected : Option PassSel := none
  lastPass : Nat := 1
  lastStreak : Nat := 1
  streakSel : Option (Nat × Nat) := none
  streakFree : Nat := 0
  storeReads : List (Nat × Nat) := []
  lastDrain : Nat := 1
  drainFree : Nat := 0
  dmaQ : List DmaJob := []
  dmaRun : List DmaJob := []
  memFree : Nat := 0
  meshFree : Nat := 0
  lastMem : Nat := 1
  lastMesh : Nat := 1
deriving DecidableEq, Repr

/-- Registers of one slab (R132 to R134, R184, R185, R200, R201, R236) and its gravel (R505, R513, R515). -/
structure SlabRegs where
  accSplit : Nat := 4
  gravelEn : Bool := false
  pair0 : Bool := false
  pair1 : Bool := false
  ovfSeen : Bool := false
  nanSeen : Bool := false
  eccSeen : Bool := false
  topkBad : Bool := false
  lastCtx : Nat := 0
  gravelOn : Bool := false
  stopCause : Nat := 0
  poisonSeen : Bool := false
  passes : Nat := 0
  streamCycles : Nat := 0
  streamEnd : Nat := 0
  bubbleCycles : Nat := 0
  streakLastCtx : Nat := 0
  streakLastSrc : Nat := 0
  streakPoison : Bool := false
  streakCommands : Nat := 0
  streakCycles : Nat := 0
  fifoUnder : Bool := false
  fifoOver : Bool := false
  retired : Bool := false
  arraysOff : Nat := 0
  gravelG : Nat := 0
  gravelG0 : Nat := 0
deriving DecidableEq, Repr

/-- Issue throttling and gravel windows of one slab (R505, R513, R515). -/
structure SlabPow where
  passCredit : Int := 0
  streakCredit : Int := 0
  creditAt : Nat := 0
  activity : List (Nat × Nat) := []
  gravelAt : Nat := 0
deriving DecidableEq, Repr

/-- One slab. -/
structure Slab where
  mem : SlabMem := {}
  seq : SlabSeq := {}
  regs : SlabRegs := {}
  pow : SlabPow := {}
deriving DecidableEq, Repr

/-- An open loop (R216, R217): start index, index of its last body command, iterations left, step mask. -/
structure LoopRec where
  start : Nat
  last : Nat
  left : Nat
  mask : Nat
deriving DecidableEq, Repr

/-- One slab context (R121, R160, R177, R203, R216, R235). -/
structure SCtx where
  bound : Bool := false
  started : Bool := false
  ended : Bool := false
  endDone : Bool := false
  stopped : Bool := false
  pc : Nat := 0
  loops : List LoopRec := []
  baseVal : List (Nat × Nat) := []
  baseStride : List (Nat × Nat) := []
  cmds : List CmdWords := []
  descs : List DescWords := []
  codeErr : List Nat := []
  lfsr : Word32 := 0
  seed : Word32 := 0
  tables : List (Nat × Option ActTable) := []
  waitReg : Bool := false
  waitSat : Option Nat := none
  arrived : Bool := false
  lastDispatch : Option Nat := none
deriving DecidableEq, Repr

/-- Error held by a 64-bit protected word (R286, R287): corrected, uncorrectable, or stored poisoned. -/
inductive WordErr where
  | none
  | ce
  | ue
  | poison
deriving DecidableEq, Repr

/-- An HBM region (R309); BASE in GiB. -/
structure Region where
  valid : Bool := false
  mode : Nat := 0
  stackBits : Nat := 0
  partition : Nat := 0
  base : Nat := 0
  firstBand : Nat := 0
  bands : Nat := 0
deriving DecidableEq, Repr

/-- A stack's registers and its repair state (R304 to R307, R310, R311). -/
structure Stack where
  state : Nat := 0
  migrating : Bool := false
  reserveUsed : Bool := false
  retiredPc : Nat := 0
  retrainCh : Nat := 0
  sppr : Nat := 0
  lostWrites : Bool := false
  pcRetired : Nat := 0
  retiring : Option Nat := none
  retireChannel : Option Nat := none
  copySince : Nat := 0
  attempt : Nat := 0
  attemptSince : Nat := 0
  lost : List Nat := []
  overflow : Bool := false
  unrepaired : List (Nat × Nat) := []
  repaired : List (Nat × Nat × Nat) := []
  corrections : Nat := 0
deriving DecidableEq, Repr

/-- Scrub registers of a die (R312, R313) and the pass in progress. -/
structure Scrub where
  sramHours : Nat := 0x18
  hbmHours : Nat := 0x48
  autoRetire : Bool := true
  autoSppr : Bool := true
  pending : Option (Nat × Nat × Bool × Bool) := none
  sramPasses : Nat := 0
  hbmPasses : Nat := 0
  progress : Nat := 0
  late : Bool := false
  sramSince : Nat := 0
  hbmSince : Nat := 0
deriving DecidableEq, Repr

/-- A queued write-back (R288): memory, word index, poisoned form or corrected word. -/
structure WriteBack where
  memory : Nat
  word : Nat
  poison : Bool
deriving DecidableEq, Repr

/-- All DPA-addressable memory (R285, R292): bytes by DPA, errors by word index DPA / 8. -/
structure Mem where
  cells : List Host.Cell
  err : List (Nat × WordErr)
  writeBacks : List WriteBack
  regions : List (Nat × Region)
  stackTab : List (Nat × Stack)
  scrub : List (Nat × Scrub)
deriving DecidableEq, Repr

/-- A registered cairn wait (R322 to R325, R347); `tile` is 16p + T, `id` the context ID of R317, `fresh` the cycle of a
registration that has not been evaluated yet. -/
structure Waiter where
  tile : Nat
  id : Nat
  index : Nat
  vid : Nat
  n : Nat
  observe : Bool
  limit : Nat
  elapsed : Nat
  fresh : Option Nat
deriving DecidableEq, Repr

/-- The cairn map of a context (R318, R319). -/
structure CMap where
  entries : List Nat := []
  timeoutUs : Nat := 0
  barrierMask : Nat := 0
  releaseBeats : List Nat := []
  owner : Option Nat := none
deriving DecidableEq, Repr

/-- A routed signal whose acknowledgement is outstanding (R332). -/
structure OpenSignal where
  tile : Nat
  id : Nat
  tag : Nat
  device : Nat
  target : Nat
  index : Nat
  limit : Nat
  elapsed : Nat
  partition : Nat
  inc : Nat
  sent : Bool
deriving DecidableEq, Repr

/-- An operation on a cairn that applies at a job cycle (R315, R323): kind 0 SIGNAL, 1 REBASE; port and context order it
within the cycle. -/
structure CairnOp where
  time : Nat
  tile : Nat
  index : Nat
  port : Nat
  id : Nat
  kind : Nat
  amount : Nat
  src : Nat
deriving DecidableEq, Repr

/-- Registers of a cairn tile (R346). -/
structure CairnTile where
  rangeSeen : Bool := false
  timeoutSeen : Bool := false
  signalLost : Bool := false
  setSeen : Bool := false
  orphans : Nat := 0
deriving DecidableEq, Repr

/-- Cairns, maps and waits of the device (R314 to R332). Values are keyed by 1024 × tile + index. -/
structure Cairns where
  values : List (Nat × Nat)
  ops : List CairnOp
  waiters : List Waiter
  maps : List (Nat × CMap)
  signals : List OpenSignal
  tiles : List (Nat × CairnTile)
deriving DecidableEq, Repr

/-- An arrival at a barrier channel of a die (R334, R335): member, round, rebase flag, job beat and cycle. -/
structure Arrival where
  tile : Nat
  id : Nat
  round : Nat
  rebase : Bool
  beat : Nat
  time : Nat
  /-- Released, while others of its round still wait for their own beat (R340). -/
  gone : Bool
deriving DecidableEq, Repr

/-- One barrier channel of a die (R333 to R341, R349). -/
structure BarrierCh where
  round : Nat := 0
  arrivals : List Arrival := []
  parked : List Arrival := []
  counts : List (Nat × Nat) := []
  dead : Bool := false
  timeoutSeen : Bool := false
  lateSeen : Bool := false
  assigned : Bool := false
  partition : Nat := 0
  timer : List (Nat × Nat) := []
  portRecv : List (Nat × Nat) := []
  portLast : List (Nat × Nat) := []
deriving DecidableEq, Repr

/-- BarrierTree of a channel (R348). -/
structure BarrierTree where
  enabled : Bool := false
  root : Bool := false
  parentPort : Nat := 0
  children : Nat := 0
deriving DecidableEq, Repr

/-- Barrier channels, keyed by 16p + c, and the trees, keyed by c. -/
structure Barriers where
  ch : List (Nat × BarrierCh)
  tree : List (Nat × BarrierTree)
deriving DecidableEq, Repr

/-- A notice that waits for a free completion entry (R454). -/
structure Notice where
  partition : Nat
  result0 : Nat
  result1 : Nat
deriving DecidableEq, Repr

/-- A ring slot: the command rings 0 to 65 (R437 to R443). -/
structure Ring where
  descBase : Nat := 0
  cplBase : Nat := 0
  enable : Bool := false
  sizeLog2 : Nat := 4
  head : Nat := 0
  tail : Nat := 0
  cplTail : Nat := 0
  cplHead : Nat := 0
  phase : Bool := false
  state : Nat := 0
  errCause : Nat := 0
  boundPort : Nat := 0
  wrongPort : Bool := false
  executing : Bool := false
  disabling : Bool := false
  discard : Bool := false
  notices : List Notice := []
deriving DecidableEq, Repr

/-- The event ring slot (R438, R456). -/
structure EvtRing where
  base : Nat := 0
  enable : Bool := false
  sizeLog2 : Nat := 4
  tail : Nat := 0
  head : Nat := 0
  phase : Bool := false
  overflow : Bool := false
  lost : Nat := 0
  boundPort : Nat := 0
deriving DecidableEq, Repr

/-- ApertureWindow (R435). -/
structure Window where
  valid : Bool := false
  write : Bool := false
  base : Nat := 0
deriving DecidableEq, Repr

/-- A command that executes on a ring and completes when its own event comes (R449, R451). -/
structure Waiting where
  ring : Nat
  opcode : Nat
  tag : Nat
  irq : Bool
  audited : Bool
  headAfter : Nat
  partition : Nat
  a0 : Nat
  a1 : Nat
  a2 : Nat
  targets : List Nat
  session : Nat
  since : Nat
deriving DecidableEq, Repr

/-- The host interface (R424 to R456). Rings are keyed 0 to 65, windows 0 to 31; `parked` are commands that wait for a die's Bedrock (R461). -/
structure HostIf where
  rings : List (Nat × Ring)
  evt : EvtRing
  windows : List (Nat × Window)
  waiting : List Waiting
  parked : List MbxCmd
  scratch : List (Nat × Word64)
deriving DecidableEq, Repr

/-- Identity and Bedrock registers (R432), watchdogs, takeover and activation (R457 to R462, R563). -/
structure Bedrock where
  ready : Bool
  owned : Bool
  deepIdle : Bool
  primary : Nat
  standbyOk : Bool
  paused : Bool
  pauseCause : Nat
  failoverSeen : Bool
  failovers : Nat
  activeBank : Nat
  heartbeat : Nat
  securityMatch : Bool
  takeoverSince : Option Nat
  standbyRestart : Option Nat
  subdieRestart : List (Nat × Nat)
  subdieFails : List (Nat × Nat)
  fwBank : Nat
  fwPhase : Nat
  fwSince : Nat
  fwSwitch : Nat
  fwVersion : List (Nat × Nat)
deriving DecidableEq, Repr

/-- Deep idle (R28, R29): phase 0 awake, 1 entering, 2 in deep idle, 3 exiting. -/
structure DeepIdle where
  enabled : Bool
  phase : Nat
  since : Nat
  exitAfter : Bool
  awakeUntil : Nat
deriving DecidableEq, Repr

/-- One operating-point entry of an image (R233). -/
structure OppEntry where
  beat : Nat
  point : Nat
  freq : Nat
deriving DecidableEq, Repr

/-- A link allotment of a loaded image (R231, R411). -/
structure Allot where
  port : Nat
  highest : Nat
  widthProof : Bool
  txEntries : List Nat
  release0 : Nat
  release1 : Nat
deriving DecidableEq, Repr

/-- What the partition holds of its image (R230 to R234). -/
structure Image where
  check : Nat
  lockstep : Bool
  freq : Nat
  halves : Nat
  scl : Nat
  formats : Nat
  buildId : List Byte
  oppoints : List OppEntry
  oppPeriod : Nat
  allots : List Allot
  usesSeam : Bool
deriving DecidableEq, Repr

/-- A partition's job (R35, R451, R453, R454). -/
structure Job where
  state : Nat := 0
  cause : Nat := 0
  byHand : Bool := false
  lockstep : Bool := false
  jobBeat : Nat := 0
  beat : Nat := 0
  startBeat : Nat := 0
  waitStart : Bool := false
  waitExit : Bool := false
  notify : Option Nat := none
  stopPending : Option Nat := none
  oppIndex : Nat := 0
  stopRing : Bool := false
  fault : Nat := 0
deriving DecidableEq, Repr

/-- A partition (R451 PARTITION_CREATE, R296, R333, R464). -/
structure Part where
  live : Bool := false
  halves : Nat := 0
  channels : Nat := 0
  rings : Nat := 0
  filling : Bool := false
  image : Option Image := none
  job : Job := {}
deriving DecidableEq, Repr

/-- One pebble context (R237, R238, R241, R243, R280 to R283). `state` is 0 NO_TASK, 1 RUNNING, 2 PARKED,
3 STOPPED; `park` is 0 none, 1 cairn wait, 2 barrier, 3 FENCE; the ready tables hold, by register, the
cycle from which a result in flight is usable (R240, R252). -/
structure PCtx where
  state : Nat := 0
  pc : Nat := 0
  entry : Nat := 0
  bound : Bool := false
  ended : Bool := false
  endIssued : Bool := false
  park : Nat := 0
  wake : Nat := 0
  s : List (Nat × SReg) := []
  v : List (Nat × VReg) := []
  m : List (Nat × MaskReg) := []
  lfsr : Word32 := 0
  seed : Word32 := 0
  satCount : Nat := 0
  nanCount : Nat := 0
  tritInvalid : Nat := 0
  sReady : List (Nat × Nat) := []
  vReady : List (Nat × Nat) := []
  mReady : List (Nat × Nat) := []
  storesUntil : Nat := 0
  streams : Nat := 0
deriving DecidableEq, Repr

/-- One pebble by logical name (R237, R239, R252, R277, R280): instruction words by index, the cycle of the last
issue and the busy times of the special-function and reduction units. -/
structure Pebble where
  imem : List (Nat × Word64) := []
  imemErr : List Nat := []
  codeWords : Nat := 0
  lastCtx : Nat := 3
  stopCause : Nat := 0
  poisonSeen : Bool := false
  needImage : Bool := false
  sfFree : Nat := 0
  redFree : Nat := 0
  nextIssue : Nat := 0
deriving DecidableEq, Repr

/-- A stream descriptor from dispatch to completion (R270, R271), effective addresses resolved. `ctx` is
4 × pebble + context; `moved` counts bytes moved; `tags` are unanswered routed requests. -/
structure StreamJob where
  ctx : Nat
  desc : SDesc
  cmem : Nat
  ea : Nat
  at_ : Nat
  started : Option Nat
  moved : Nat
  done : Option Nat
  tags : List Nat
deriving DecidableEq, Repr

/-- A stream channel (R271): the descriptor that runs, those that wait, and when the channel is free. -/
structure StreamCh where
  run : Option StreamJob := none
  queue : List StreamJob := []
  free : Nat := 0
deriving DecidableEq, Repr

/-- A memory access that has issued and waits for its banks (R268): context 4 × pebble + x, where a load goes, the bytes a store writes
(none where a lane is not enabled), and the mask and lane width of a vector load. -/
structure MemAcc where
  ctx : Nat
  load : Bool
  vec : Bool
  reg : Nat
  off : Nat
  issued : Nat
  mask : MaskReg
  mz : Bool
  width : Nat
  data : List (Option PByte)
deriving DecidableEq, Repr

/-- A pebble cluster (R237, R267 to R272, R284). `pend` holds the accesses that claim banks, `cur` the next
cycle of the tile's own work. -/
structure Cluster where
  descs : List (Nat × List Nat) := []
  descErr : List Nat := []
  chIn : StreamCh := {}
  chOut : StreamCh := {}
  chRouted : StreamCh := {}
  inFifo : List PByte := []
  outFifo : List PByte := []
  fifoUnder : Bool := false
  fifoOver : Bool := false
  pend : List MemAcc := []
  cur : Nat := 0
deriving DecidableEq, Repr

/-- All clusters, pebbles and pebble contexts, keyed 8p + k, 8 × cluster + q and 4 × pebble + x. -/
structure Pebbles where
  clusters : List (Nat × Cluster)
  pebbles : List (Nat × Pebble)
  ctxs : List (Nat × PCtx)
deriving DecidableEq, Repr

/-- A packet at a router (R359 to R361): router 256p + unit, input port, output port, when its head came (65536 × wall beat + cycle), whether
a table change holds it (R375), and how many of its flits have left on a link. Output ports: 0 to 6 of R376; 64 + n link end n (0 to 15 vein
ports, 16 + l the end of D2D link l at its clockwise endpoint HB7, 20 + l its other end at HB3); 128 waits at its source; 129 has arrived and waits
for its lookup. -/
structure QPkt where
  router : Nat
  inPort : Nat
  outPort : Nat
  since : Nat
  held : Bool
  sent : Nat
  pkt : Packet
deriving DecidableEq, Repr

/-- Who waits for the answer of a request (R366, R367). -/
inductive ReqOwner where
  | dma (slab : Nat)
  | stream (cluster : Nat)
  | signal
  | aperture
  | mirror (seq : Nat)
  | bedrock
deriving DecidableEq, Repr

/-- An unanswered request of this device (R366, R367). `at_` is where its bytes go in the owner's transfer. -/
structure Req where
  src : Nat
  dest : Nat
  tag : Nat
  kind : Nat
  part : Nat
  addr : Nat
  bytes : Nat
  group : Nat
  since : Nat
  owner : ReqOwner
  at_ : Nat
deriving DecidableEq, Repr

/-- A partial TAG at a reduction node (R373, R374): hub 8p + h, group, tag, the filled slots. -/
structure RedNode where
  hub : Nat
  entry : Nat
  group : Nat
  tag : Nat
  part : Nat
  since : Nat
  slots : List (Nat × Packet)
deriving DecidableEq, Repr

/-- A routing table change that drains (R375): table 0 DEVICE, 1 LOCAL, 2 REDUCE. -/
structure RouteChange where
  table : Nat
  sel : Nat
  first : Nat
  values : List Nat
  drainUs : Nat
  since : Nat
  held : List QPkt
deriving DecidableEq, Repr

/-- Counters of one output port and VC of a router (R376). -/
structure PortCount where
  flits : Nat := 0
  stall : Nat := 0
  depth : Nat := 0
  maxDepth : Nat := 0
deriving DecidableEq, Repr

/-- RoutedDrops of a router (R377). -/
structure Drops where
  noRoute : Nat := 0
  format : Nat := 0
  late : Nat := 0
  linkDown : Nat := 0
deriving DecidableEq, Repr

/-- A control-ring message on its way (R363, R549). -/
structure RingMsg where
  die : Nat
  src : Nat
  dest : Nat
  id : Nat
  fails : Nat
deriving DecidableEq, Repr

/-- PartitionFabric (R381). -/
structure PartFabric where
  priority : Bool := false
  timeoutUs : Nat := 0x7D0
deriving DecidableEq, Repr

/-- The routed plane and the control ring (R350 to R381). Tables: `device` by device number, `local` by
1024p + e, `reduce` words by ((8p + h) × 16 + i) × 8 + word, `counts` by ((256p + unit) × 8 + port) × 4 + vc,
`drops` by 256p + unit. -/
structure Fabric where
  selfDevice : Nat
  selfValid : Bool
  parts : List (Nat × PartFabric)
  device : List (Nat × Nat)
  locals : List (Nat × Nat)
  reduce : List (Nat × Nat)
  counts : List (Nat × PortCount)
  drops : List (Nat × Drops)
  queue : List QPkt
  requests : List Req
  nextTag : Nat
  nodes : List RedNode
  closedTags : List (Nat × Nat × Nat)
  change : Option RouteChange
  laps : List (Nat × Nat)
  ringQueues : List (Nat × Nat)
  ringMsgs : List RingMsg
  lastVc : List (Nat × Nat)
deriving DecidableEq, Repr

/-- Training of a port (R398 to R408). `lanesUp` are receive lanes that delivered good blocks with their own number. -/
structure Train where
  stage : Nat := 0
  since : Nat := 0
  attemptSince : Nat := 0
  fullEq : Bool := false
  cached : Bool := false
  lanesUp : Nat := 0
  inverted : Nat := 0
  peerMask : Nat := 0
  ownDone : Bool := false
  peerDone : Bool := false
  round : Nat := 1
  width : Nat := 0
  used : Nat := 0
  capSeen : Bool := false
  peerMax : Nat := 0
  samples : List Int := []
  downSince : Nat := 0
deriving DecidableEq, Repr

/-- A routed flit as sent, kept for replay (R395): beat, slot, VC or none, bytes, and how often it was replayed. -/
structure SentFlit where
  beat : Nat
  slot : Nat
  vc : Option Nat
  bytes : List Byte
  tries : Nat := 0
deriving DecidableEq, Repr

/-- A flit received and held while a NAK is open (R395). -/
structure HeldFlit where
  vc : Nat
  bytes : List Byte
deriving DecidableEq, Repr

/-- An open NAK (R395, R396). -/
structure OpenNak where
  beat : Nat
  slot : Nat
  since : Nat
  tries : Nat
deriving DecidableEq, Repr

/-- Routed traffic of a link end (R393 to R396). `credits` counts credits spent by VC, `freed` the buffer entries freed and `told` the counts last
sent, `ctrlOut` and `resend` what goes before new packets (R394). -/
structure LinkRouted where
  credits : List (Nat × Nat) := []
  freed : List (Nat × Nat) := []
  peerFreed : List (Nat × Nat) := []
  told : List (Nat × Nat) := []
  headsRun : Nat := 0
  txSlot : Nat := 0
  ctrlOut : List (List Byte) := []
  resend : List SentFlit := []
  record : List SentFlit := []
  naks : List OpenNak := []
  held : List HeldFlit := []
  asm : List (Nat × Packet) := []
  badBeats : List Nat := []
deriving DecidableEq, Repr

/-- A scheduled flit that waits for its release time (R415): job beat, slot, and bytes. -/
structure SchedRx where
  beat : Nat
  slot : Nat
  bytes : List PByte
deriving DecidableEq, Repr

/-- Scheduled traffic of a port (R411 to R415). -/
structure LinkSched where
  outFifo : List PByte := []
  inFifo : List PByte := []
  rx : List SchedRx := []
  allot : Option Allot := none
  owner : Nat := 0
deriving DecidableEq, Repr

/-- Registers of a port (R378, R419 to R423). -/
structure LinkRegs where
  enable : Bool := true
  maxWidth : Nat := 0
  mate : Bool := false
  autoRetry : Bool := true
  state : Nat := 0
  width : Nat := 0
  fallback : Bool := false
  attempt : Nat := 0
  lastCause : Nat := 0
  schedOk : Bool := false
  mateOk : Bool := false
  degradedSeen : Bool := false
  downgradeSeen : Bool := false
  mismatchSeen : Bool := false
  offered : Nat := 0
  used : Nat := 0
  fecCorrected : Nat := 0
  crcFail : Nat := 0
  replays : Nat := 0
  laneFault : Nat := 0
deriving DecidableEq, Repr

/-- What the peer announced and what both agreed (R399, R401, R422, R423). -/
structure LinkPeer where
  lpv : Nat := 0
  dieRev : Nat := 0
  scl : Nat := 0
  device : Nat := 0
  deviceValid : Bool := false
  port : Nat := 0
  mate : Bool := false
  uid : Nat := 0
  features : Nat := 0
  formats : Nat := 0
deriving DecidableEq, Repr

/-- One port: vein ports 0 to 15, D2D links 16 to 19 (R382). -/
structure Link where
  regs : LinkRegs := {}
  peer : LinkPeer := {}
  train : Train := {}
  routed : LinkRouted := {}
  sched : LinkSched := {}
deriving DecidableEq, Repr

/-- An operating point (R498); the offset in mV. -/
structure OpPoint where
  freq : Nat
  cap : Nat
  offset : Int
deriving DecidableEq, Repr

/-- Throttling levels of a partition outside lockstep, in sixteenths below full (R504): 0 is unthrottled. -/
structure Levels where
  compute : Nat := 0
  memory : Nat := 0
  links : Nat := 0
deriving DecidableEq, Repr

/-- A guarantee (R509) and the window it is judged in (R512). -/
structure Guarantee where
  rank : Nat := 0
  v1 : Nat := 0
  v2 : Nat := 0
  breach : Bool := false
  since : Nat := 0
  repeated : Nat := 0
  shortfall : Nat := 0
  cause : Nat := 0
  beats : Nat := 0
  jobBeats : Nat := 0
  answered : Nat := 0
  overCount : Nat := 0
  energyAt : Nat := 0
  windows : Nat := 0
  throttled : Bool := false
  pend : Option (Nat × Nat × Nat) := none
deriving DecidableEq, Repr

/-- Supply of one half (R490, R494 to R497): millivolts; `tries` counts AVSBus commands without acknowledgement. -/
structure HalfPower where
  trim : Int := 0
  offset : Int := 0
  setpoint : Nat := 800
  highCount : Nat := 0
  frozen : Bool := false
  emergencies : Nat := 0
  tries : Nat := 0
  regulatorBad : Bool := false
  emergencyDue : Bool := false
deriving DecidableEq, Repr

/-- Sensed values of a rail (R491, R579): mV, 10 mA, 0.1 W; recalibration sums and coefficient (R501). -/
structure Rail where
  voltage : Nat := 0
  current : Nat := 0
  power : Nat := 0
  coeff : Nat := 1000
  estSum : Nat := 0
deriving DecidableEq, Repr

/-- Power control (R489 to R517). Energies are counted in nJ; the registers show mJ. `est`, `p10` are in mW, `halfEst` in mA. -/
structure Power where
  capW : Nat
  order : Nat × Nat × Nat
  slope : Nat
  floor : Nat
  pend : List (Nat × Nat × Nat)
  points : List (Nat × OpPoint)
  levels : List (Nat × Levels)
  levelsNext : List (Nat × Levels)
  hold : Nat
  hold12Since : Option Nat
  est : List Nat
  halfEst : List (Nat × List Nat)
  p10 : Nat
  capEff : Nat
  under : Nat
  throttledSince : Option Nat
  throttleCause : Nat
  deepest : Nat
  repeats : Nat
  energy : List (Nat × Nat)
  gravel : List (Nat × Nat)
  unassigned : Nat
  energyFlash : List (Nat × Nat)
deriving DecidableEq, Repr

/-- The rest of power control: guarantees by 4 × partition + kind, halves by 2p + h, rails 0 to 37. -/
structure PowerUnits where
  guar : List (Nat × Guarantee)
  halves : List (Nat × HalfPower)
  rails : List (Nat × Rail)
deriving DecidableEq, Repr

/-- Temperature control (R518 to R522), in 0.01 °C. -/
structure Thermal where
  temp : List (Nat × Int)
  excluded : List Nat
  stack : List (Nat × Int)
  tj : Int
  tstack : Int
  cap : Option Nat
  warned : Bool
  overLimit : Nat
  tripped : Bool
  tripCause : Nat
  tripUnit : Nat
  tripTemp : Int
  tripLogged : Bool
deriving DecidableEq, Repr

/-- A forwarded write: in the ACTIVE engine's buffer, not numbered yet, or in the STANDBY's reorder buffer (R560). `src` is who gets the answer. -/
structure FwdWrite where
  seq : Nat
  addr : Nat
  bytes : List PByte
  src : Nat
deriving DecidableEq, Repr

/-- The mirror registers and the agreed pair (R555, R561, R562). -/
structure MirrorRegs where
  mode : Nat := 0
  state : Nat := 0
  side : Nat := 0
  slow : Bool := false
  mismatchSeen : Bool := false
  partition : Nat := 0
  commits : Nat := 0
  dirty : List Nat := []
  passes : Nat := 0
  jobBeat : Nat := 0
  interval : Nat := 64
  peerUid : Nat := 0
  ranges : List (Nat × Nat) := []
deriving DecidableEq, Repr

/-- The mirror engine (R556 to R561). `cand` is the pair that MIRROR_PAIR asks for until the handshake, `sent` and `peerSent` are job beat, value and ERR of the
commit values, `fwdQueue` the forwarding buffer, `fwdOpen` the unanswered numbers; a resync source copies block and offset `copyAt`, its pass has
come to block `copyFrom` and found a dirty block if `copyFound`. -/
structure Mirror where
  regs : MirrorRegs := {}
  crc : List (Nat × Nat) := []
  err : Bool := false
  count : Nat := 0
  sent : Option (Nat × Nat × Bool) := none
  sentSince : Nat := 0
  peerSent : Option (Nat × Nat × Bool) := none
  cand : Option MirrorRegs := none
  peerCfg : Option MirrorCfg := none
  ownStart : Option (Nat × Nat) := none
  peerStart : Option (Nat × Nat) := none
  matePort : Option Nat := none
  fwdSeq : Nat := 0
  fwdQueue : List FwdWrite := []
  fwdOpen : List Nat := []
  fwdBytes : Nat := 0
  nextApply : Nat := 0
  reorder : List FwdWrite := []
  missingSince : Option Nat := none
  answerDue : Option (Nat × Nat) := none
  copying : Bool := false
  copyAt : Option (Nat × Nat) := none
  copyFrom : Nat := 0
  copyFound : Bool := false
  rejoined : Bool := false
deriving DecidableEq, Repr

/-- An owner slot of the fuses (R467, R474). -/
structure OwnerSlot where
  hash : BitVec 384 := 0
  valid : Bool := false
  revoked : Bool := false
deriving DecidableEq, Repr

/-- The security fuses of P0 or P2 (R467). -/
structure SecFuse where
  keyRevoke : Nat := 0
  svn : Nat := 0
  slots : List (Nat × OwnerSlot) := []
  debugDisable : Bool := false
deriving DecidableEq, Repr

/-- Fuses of the device (R467, R542, R543): variant and repair fuses by die. -/
structure Fuses where
  p0 : SecFuse
  p2 : SecFuse
  variant : List (Nat × BitVec 96)
  repair : List (Nat × BitVec 2048)
deriving DecidableEq, Repr

/-- A firmware bank (R470, R471). -/
structure FwBank where
  image : List Byte
  verified : Bool
  present : Bool
deriving DecidableEq, Repr

/-- A record with a two-copy commit (R550): two generations and which copies are valid. -/
structure TwoCopy where
  genA : Nat := 0
  genB : Nat := 0
  validA : Bool := false
  validB : Bool := false
deriving DecidableEq, Repr

/-- What the configuration store holds (R529): what the commands it names set. -/
structure ConfigStore where
  parts : List (Nat × Part)
  regions : List (Nat × Region)
  beatRole : Nat
  beatSource : Nat
  beatHoldCap : Nat
  beatDomain : Nat
  beatMaskVein : Nat
  beatMaskD2d : Nat
  links : List (Nat × Nat)
  selfDevice : Nat
  selfValid : Bool
  fabParts : List (Nat × PartFabric)
  device : List (Nat × Nat)
  locals : List (Nat × Nat)
  reduce : List (Nat × Nat)
  tree : List (Nat × BarrierTree)
  windows : List (Nat × Window)
  capW : Nat
  order : Nat × Nat × Nat
  slope : Nat
  floor : Nat
  deepIdle : Bool
  gravel : List (Nat × Bool)
  scrub : List (Nat × Nat)
  points : List (Nat × OpPoint)
  guar : List (Nat × Guarantee)
  mirror : MirrorRegs
deriving DecidableEq, Repr

/-- Flash of P0 and P2 (R470 to R474, R545, R550, R568). -/
structure Flash where
  p0A : FwBank
  p0B : FwBank
  p2A : FwBank
  p2B : FwBank
  p2Present : Bool
  activeBank : Nat
  activeRec : TwoCopy
  ownerKey : List Byte
  ownerRec : TwoCopy
  energyRec : TwoCopy
  repairRec : TwoCopy
  configRec : TwoCopy
  calRec : TwoCopy
  repairLog : List (Nat × Nat)
  config : Option ConfigStore
  eventFlushed : Nat
  auditBytes : List (List Byte)
  auditBase : Nat
  writesOff : Bool
deriving DecidableEq, Repr

/-- A session of a role (R477 to R479). -/
structure Session where
  isOpen : Bool := false
  id : Nat := 0
  key : List Byte := []
  nextSeq : Nat := 1
  fails : Nat := 0
  last : Nat := 0
deriving DecidableEq, Repr

/-- Negotiation of the SPDM responder (R476): phase (1 version, 2 capabilities, 3 algorithms), the session ID and body of an open KEY_EXCHANGE, and how
many sessions this boot has opened. -/
structure Spdm where
  phase : Nat
  pending : Option (Nat × List Byte)
  generation : Nat
deriving DecidableEq, Repr

/-- Security state (R476 to R488). -/
structure Security where
  installer : Session
  maker : Session
  spdm : Spdm
  wallBase : Option Nat
  wallAt : Nat
  auditSeq : Nat
  auditLast : List Byte
  nonce : BitVec 128
  debugScope : Nat
deriving DecidableEq, Repr

/-- Capability state (R2 to R5, R433): what fuses leave, what is retired or disabled, the words' update count. -/
structure Caps where
  generation : Nat
  slabs : List (Nat × Nat)
  arrays : List (Nat × Nat)
  veins : Nat
  d2ds : Nat
  names : List (Nat × Nat)
  spare : List (Nat × Option Nat)
  stackOff : List Nat
  retired : List (Nat × Nat × Nat × Nat)
  disabled : List (Nat × Nat × Nat × Nat)
  leaving : List (Nat × Nat × Nat × Nat)
  reserveUse : List (Nat × Nat)
deriving DecidableEq, Repr

/-- The boot record (R547). -/
structure BootRec where
  seq : Nat
  cause : Nat
  mode : Nat
  lastStage : Nat
  result : Nat
  attempt : Nat
  activeBank : Nat
  flags : Nat
  failDie : Nat
  failUnit : Nat
  stageMs : List Nat
deriving DecidableEq, Repr

/-- What the device does as a whole (R525 to R532, R522, R565, R603): a boot stage, Ready, BOOT_FAILED, firmware recovery, held by
RESET_N, in a self-initiated reset, tripped, or without power. -/
inductive Phase where
  | stage (n : Nat)
  | ready
  | bootFailed
  | recovery
  | heldReset
  | selfReset
  | tripped
  | powerFail
  | noPower
deriving DecidableEq, Repr

/-- The calibration cache (R545): what decides a fast restore, and the stored trims in mV. -/
structure CalCache where
  digest : BitVec 384
  biv : BitVec 384
  tj : Int
  trims : List (Nat × Int)
deriving DecidableEq, Repr

/-- Boot state (R525 to R547): `since` is the wall beat at which the stage or hold began. -/
structure Boot where
  phase : Phase
  since : Nat
  record : BootRec
  records : List BootRec
  fast : Bool
  cache : CalCache
  updateBytes : Nat
  updateVerified : Bool
  updateBody : List Byte
deriving DecidableEq, Repr

/-- Pins (R551, R594, R601 to R606, R576). -/
structure Pins where
  resetN : Bool
  resetActed : Bool
  resetWait : Bool
  pwrFailN : Bool
  stopped : Bool
  perst0N : Bool
  perst2N : Bool
  thermTripN : Bool
  alertN : Bool
  beatOut : Bool
  addrPins : Nat
  addrStrap : Nat
deriving DecidableEq, Repr

/-- A partial MCTP message (R572): transport, source EID, message type, tag, the sequence number expected next, when its last packet came,
and the bytes so far. -/
structure Assembly where
  transport : Nat
  eid : Nat
  mtype : Nat
  tag : Nat
  seq : Nat
  since : Nat
  bytes : List Byte
deriving DecidableEq, Repr

/-- Sideband management (R570 to R577). Endpoint IDs by transport: 0 SMBus, 1 and 2 the PCIe VDM of host ports 0 and 2; the event receiver as
256 × transport + EID; `smbQueue` is what the device last sent as SMBus master, `smbTries` its lost arbitrations. -/
structure Mgmt where
  eids : List (Nat × Nat)
  assembly : List Assembly
  eventReceiver : Option Nat
  pdrSignature : Nat
  smbTries : Nat
  smbQueue : List (List Byte)
deriving DecidableEq, Repr

/-- An Assay parameter block (R580). -/
structure AssayBlk where
  width : Nat := 8
  enable : Bool := false
  refin : Bool := false
  refout : Bool := false
  check : Bool := false
  oneShot : Bool := false
  source : Nat := 0
  port : Nat := 0
  interval : Nat := 64
  poly : Nat := 0
  init : Nat := 0
  xorout : Nat := 0
  expected : Nat := 0
  base : Nat := 0
  partition : Nat := 0xFF
  length : Nat := 0
deriving DecidableEq, Repr

/-- One Assay unit (R580 to R585). `state` is 0 OFF, 1 RUNNING, 2 IDLE, 3 DONE. -/
structure Assay where
  blk : AssayBlk := {}
  pend : Option AssayBlk := none
  state : Nat := 0
  mismatchSeen : Bool := false
  poisonSeen : Bool := false
  intervals : Nat := 0
  value : Nat := 0
  reg : Nat := 0
  count : Nat := 0
deriving DecidableEq, Repr

/-- The TAP of one die and its BIST (R586 to R589). -/
structure Tap where
  ir : Nat := 1
  test : Nat := 0
  target : Nat := 0
  state : Nat := 0
  refused : Bool := false
  failures : Nat := 0
  first : Nat := 0
deriving DecidableEq, Repr

/-- Assay units by 8p + u, TAPs by p, and test mode (R588). -/
structure Test where
  assay : List (Nat × Assay)
  taps : List (Nat × Tap)
  testMode : Bool
deriving DecidableEq, Repr

/-- Time and free values (log entries 3, 4, 5): `wall` counts local beat edges, `freeCtr` numbers the free values
drawn, `out` is what the last command put on the block's outputs. -/
structure Clock where
  wall : Nat
  freeCtr : Nat
  out : List Out
deriving DecidableEq, Repr

/-- Slabs, keyed 8p + s, and their contexts, keyed 2 × slab + x. -/
structure Slabs where
  slabs : List (Nat × Slab)
  ctxs : List (Nat × SCtx)
deriving DecidableEq, Repr

/-- Halves by 2p + h and Seams by die. -/
structure Dies where
  halves : List (Nat × Half)
  seams : List (Nat × Seam)
deriving DecidableEq, Repr

/-- The whole device. -/
structure Dev where
  clock : Clock
  pins : Pins
  boot : Boot
  fuses : Fuses
  flash : Flash
  caps : Caps
  beat : Beat
  aux : BeatAux
  dies : Dies
  mesh : Mesh
  slab : Slabs
  peb : Pebbles
  mem : Mem
  cairn : Cairns
  barr : Barriers
  fab : Fabric
  links : List (Nat × Link)
  host : HostIf
  bed : Bedrock
  idle : DeepIdle
  parts : List (Nat × Part)
  sec : Security
  pow : Power
  powu : PowerUnits
  therm : Thermal
  evt : Events
  mirror : Mirror
  mgmt : Mgmt
  test : Test
deriving DecidableEq, Repr

/-- The state of the block: the device, and the commands that wait, first in first out. -/
structure State where
  dev : Dev
  pending : List Instr
deriving DecidableEq, Repr

/-- No fault stops the block: every error of the spec is an effect on its state (18 R548 to R553). -/
inductive Fault where
deriving Repr

/-- Why a command has no meaning. -/
inductive Refusal where
  /-- Raised by a dispatch arm whose command this model does not give a meaning yet; safe: the run stops. -/
  | notModelled (mnemonic : String)
deriving DecidableEq, Repr

/-- Security fuses as shipped: nothing burned (log entry 9). -/
def SecFuse.blank : SecFuse := ⟨0, 0, [], false⟩

/-- A closed session. -/
def Session.closed : Session := {}

/-- The device right after the release of RESET_N: stage 0 of boot runs (R525, R530), every register reads its reset value and
memory lists nothing. Values the spec does not give are those of log entries 3 to 13. -/
def Dev.reset : Dev where
  clock := ⟨0, 0, []⟩
  pins := ⟨true, false, false, true, false, true, true, true, true, false, 0, 0⟩
  boot := { phase := .stage 0, since := 0
            record := ⟨1, 1, 0, 0, 0, 1, 0, 0, 0xFF, 0, [0, 0, 0, 0, 0, 0, 0]⟩
            records := [], fast := false, cache := ⟨0, 0, 0, []⟩
            updateBytes := 0, updateVerified := false, updateBody := [] }
  fuses := ⟨SecFuse.blank, SecFuse.blank, [], []⟩
  flash := { p0A := ⟨Config.shippedImage, true, true⟩, p0B := ⟨[], false, false⟩
             p2A := ⟨Config.shippedImage, true, true⟩, p2B := ⟨[], false, false⟩
             p2Present := true, activeBank := 0, activeRec := ⟨1, 0, true, false⟩
             ownerKey := [], ownerRec := {}, energyRec := {}, repairRec := {}, configRec := {}, calRec := {}
             repairLog := [], config := none, eventFlushed := 0, auditBytes := [], auditBase := 0
             writesOff := false }
  caps := { generation := 0, slabs := [], arrays := [], veins := 0xFFFF, d2ds := 0xF, names := [], spare := []
            stackOff := [], retired := [], disabled := [], leaving := [], reserveUse := [] }
  beat := { role := 0, source := 0, holdCap := 8, domain := 0, maskVein := 0xFFFF, maskD2d := 0xF
            state := 0, hop := 0, parentPort := 0, parentD2d := false, beatInOk := false, lossCause := 0
            lossSeen := false, master := 0, number := 0, holdCount := 0, highWater := 0, latency := []
            configGen := 0, extSource := false, fwdHoldCap := 0, ports := [], heldBeats := [], annFrom := 0
            annTo := 0, requests := [] }
  aux := { ownLeft := 0, ownRaised := false, joinSince := 0, searchSince := 0, alignGood := 0, lossSince := 0
           lostByJoin := false, conflictNow := false, conflictBeats := 0, conflictHeld := false, conflictRaised := false
           lastValid := 0, missing := 0
           stopAtEdge := false, edgePhase := 0, alignErrs := [], alignWait := 0, alignBad := 0
           beatInIgnored := 0, beatInGood := 0, beatInPhase := 0, approach := false, startPending := none, parentNext := none }
  dies := ⟨[], []⟩
  mesh := ⟨[], [], [], [], [], []⟩
  slab := ⟨[], []⟩
  peb := ⟨[], [], []⟩
  mem := ⟨[], [], [], [], [], []⟩
  cairn := ⟨[], [], [], [], [], []⟩
  barr := ⟨[], []⟩
  fab := { selfDevice := 0, selfValid := false, parts := [], device := [], locals := [], reduce := []
           counts := [], drops := [], queue := [], requests := [], nextTag := 0, nodes := [], closedTags := []
           change := none, laps := [], ringQueues := [], ringMsgs := [], lastVc := [] }
  links := []
  host := { rings := [], evt := {}, windows := [], waiting := [], parked := [], scratch := [] }
  bed := { ready := false, owned := false, deepIdle := false, primary := 0, standbyOk := false, paused := false
           pauseCause := 0, failoverSeen := false, failovers := 0, activeBank := 0, heartbeat := 0
           securityMatch := true, takeoverSince := none, standbyRestart := none, subdieRestart := []
           subdieFails := [], fwBank := 0, fwPhase := 0, fwSince := 0, fwSwitch := 0, fwVersion := [] }
  idle := ⟨false, 0, 0, false, 0⟩
  parts := []
  sec := { installer := Session.closed, maker := Session.closed, spdm := ⟨0, none, 0⟩, wallBase := none
           wallAt := 0, auditSeq := 0, auditLast := [], nonce := Config.freeNonce 0, debugScope := 0 }
  pow := { capW := 2400, order := (0, 1, 2), slope := 20, floor := 4, pend := [], points := [(0, ⟨16, 16, 0⟩)]
           levels := [], levelsNext := [], hold := 0, hold12Since := none, est := [], halfEst := [], p10 := 0
           capEff := 2400, under := 0, throttledSince := none, throttleCause := 0, deepest := 0, repeats := 0
           energy := [], gravel := [], unassigned := 0, energyFlash := [] }
  powu := ⟨[], [], []⟩
  therm := { temp := [], excluded := [], stack := [], tj := 0, tstack := 0, cap := none, warned := false
             overLimit := 0, tripped := false, tripCause := 0, tripUnit := 0, tripTemp := 0, tripLogged := false }
  evt := ⟨0, [], 0, 0, []⟩
  mirror := {}
  mgmt := ⟨[], [], none, 0, 0, []⟩
  test := ⟨[], [], false⟩

/-- The machine right after reset: the queue is empty. -/
def State.reset : State := ⟨Dev.reset, []⟩

end Sys2Proof.Machine
end

