-- ==== Sys2Proof/Machine/Ops.lean ====
section
/-! DEFINITION. The named operations over the state: one reader and one writer for every table, time (R22, R32, R83), the
events of R567 to R569, and how a command ends. -/

namespace Sys2Proof.Machine

/-- Read the Slab under a key. -/
def Dev.getSlab (d : Dev) (k : Nat) : Slab := tabGet {} k d.slab.slabs
/-- Change the Slab under a key. -/
def Dev.modSlab (d : Dev) (k : Nat) (f : Slab → Slab) : Dev :=
  { d with slab.slabs := tabSet {} k (f (tabGet {} k d.slab.slabs)) d.slab.slabs }
/-- Read the SCtx under a key. -/
def Dev.getSCtx (d : Dev) (k : Nat) : SCtx := tabGet {} k d.slab.ctxs
/-- Change the SCtx under a key. -/
def Dev.modSCtx (d : Dev) (k : Nat) (f : SCtx → SCtx) : Dev :=
  { d with slab.ctxs := tabSet {} k (f (tabGet {} k d.slab.ctxs)) d.slab.ctxs }
/-- Read the Half under a key. -/
def Dev.getHalf (d : Dev) (k : Nat) : Half := tabGet {} k d.dies.halves
/-- Change the Half under a key. -/
def Dev.modHalf (d : Dev) (k : Nat) (f : Half → Half) : Dev :=
  { d with dies.halves := tabSet {} k (f (tabGet {} k d.dies.halves)) d.dies.halves }
/-- Read the Seam under a key. -/
def Dev.getSeam (d : Dev) (k : Nat) : Seam := tabGet {} k d.dies.seams
/-- Change the Seam under a key. -/
def Dev.modSeam (d : Dev) (k : Nat) (f : Seam → Seam) : Dev :=
  { d with dies.seams := tabSet {} k (f (tabGet {} k d.dies.seams)) d.dies.seams }
/-- Read the Cluster under a key. -/
def Dev.getCluster (d : Dev) (k : Nat) : Cluster := tabGet {} k d.peb.clusters
/-- Change the Cluster under a key. -/
def Dev.modCluster (d : Dev) (k : Nat) (f : Cluster → Cluster) : Dev :=
  { d with peb.clusters := tabSet {} k (f (tabGet {} k d.peb.clusters)) d.peb.clusters }
/-- Read the Pebble under a key. -/
def Dev.getPebble (d : Dev) (k : Nat) : Pebble := tabGet {} k d.peb.pebbles
/-- Change the Pebble under a key. -/
def Dev.modPebble (d : Dev) (k : Nat) (f : Pebble → Pebble) : Dev :=
  { d with peb.pebbles := tabSet {} k (f (tabGet {} k d.peb.pebbles)) d.peb.pebbles }
/-- Read the PCtx under a key. -/
def Dev.getPCtx (d : Dev) (k : Nat) : PCtx := tabGet {} k d.peb.ctxs
/-- Change the PCtx under a key. -/
def Dev.modPCtx (d : Dev) (k : Nat) (f : PCtx → PCtx) : Dev :=
  { d with peb.ctxs := tabSet {} k (f (tabGet {} k d.peb.ctxs)) d.peb.ctxs }
/-- Read the Link under a key. -/
def Dev.getLink (d : Dev) (k : Nat) : Link := tabGet {} k d.links
/-- Change the Link under a key. -/
def Dev.modLink (d : Dev) (k : Nat) (f : Link → Link) : Dev :=
  { d with links := tabSet {} k (f (tabGet {} k d.links)) d.links }
/-- Read the Ring under a key. -/
def Dev.getRing (d : Dev) (k : Nat) : Ring := tabGet {} k d.host.rings
/-- Change the Ring under a key. -/
def Dev.modRing (d : Dev) (k : Nat) (f : Ring → Ring) : Dev :=
  { d with host.rings := tabSet {} k (f (tabGet {} k d.host.rings)) d.host.rings }
/-- Read the Part under a key. -/
def Dev.getPart (d : Dev) (k : Nat) : Part := tabGet {} k d.parts
/-- Change the Part under a key. -/
def Dev.modPart (d : Dev) (k : Nat) (f : Part → Part) : Dev :=
  { d with parts := tabSet {} k (f (tabGet {} k d.parts)) d.parts }
/-- Read the CairnTile under a key. -/
def Dev.getCairnTile (d : Dev) (k : Nat) : CairnTile := tabGet {} k d.cairn.tiles
/-- Change the CairnTile under a key. -/
def Dev.modCairnTile (d : Dev) (k : Nat) (f : CairnTile → CairnTile) : Dev :=
  { d with cairn.tiles := tabSet {} k (f (tabGet {} k d.cairn.tiles)) d.cairn.tiles }
/-- Read the CMap under a key. -/
def Dev.getCMap (d : Dev) (k : Nat) : CMap := tabGet {} k d.cairn.maps
/-- Change the CMap under a key. -/
def Dev.modCMap (d : Dev) (k : Nat) (f : CMap → CMap) : Dev :=
  { d with cairn.maps := tabSet {} k (f (tabGet {} k d.cairn.maps)) d.cairn.maps }
/-- Read the BarrierCh under a key. -/
def Dev.getChan (d : Dev) (k : Nat) : BarrierCh := tabGet {} k d.barr.ch
/-- Change the BarrierCh under a key. -/
def Dev.modChan (d : Dev) (k : Nat) (f : BarrierCh → BarrierCh) : Dev :=
  { d with barr.ch := tabSet {} k (f (tabGet {} k d.barr.ch)) d.barr.ch }
/-- Read the BarrierTree under a key. -/
def Dev.getTree (d : Dev) (k : Nat) : BarrierTree := tabGet {} k d.barr.tree
/-- Change the BarrierTree under a key. -/
def Dev.modTree (d : Dev) (k : Nat) (f : BarrierTree → BarrierTree) : Dev :=
  { d with barr.tree := tabSet {} k (f (tabGet {} k d.barr.tree)) d.barr.tree }
/-- Read the Stack under a key. -/
def Dev.getStack (d : Dev) (k : Nat) : Stack := tabGet {} k d.mem.stackTab
/-- Change the Stack under a key. -/
def Dev.modStack (d : Dev) (k : Nat) (f : Stack → Stack) : Dev :=
  { d with mem.stackTab := tabSet {} k (f (tabGet {} k d.mem.stackTab)) d.mem.stackTab }
/-- Read the Region under a key. -/
def Dev.getRegion (d : Dev) (k : Nat) : Region := tabGet {} k d.mem.regions
/-- Change the Region under a key. -/
def Dev.modRegion (d : Dev) (k : Nat) (f : Region → Region) : Dev :=
  { d with mem.regions := tabSet {} k (f (tabGet {} k d.mem.regions)) d.mem.regions }
/-- Read the Scrub under a key. -/
def Dev.getScrub (d : Dev) (k : Nat) : Scrub := tabGet {} k d.mem.scrub
/-- Change the Scrub under a key. -/
def Dev.modScrub (d : Dev) (k : Nat) (f : Scrub → Scrub) : Dev :=
  { d with mem.scrub := tabSet {} k (f (tabGet {} k d.mem.scrub)) d.mem.scrub }
/-- Read the Assay under a key. -/
def Dev.getAssay (d : Dev) (k : Nat) : Assay := tabGet {} k d.test.assay
/-- Change the Assay under a key. -/
def Dev.modAssay (d : Dev) (k : Nat) (f : Assay → Assay) : Dev :=
  { d with test.assay := tabSet {} k (f (tabGet {} k d.test.assay)) d.test.assay }
/-- Read the Tap under a key. -/
def Dev.getTap (d : Dev) (k : Nat) : Tap := tabGet {} k d.test.taps
/-- Change the Tap under a key. -/
def Dev.modTap (d : Dev) (k : Nat) (f : Tap → Tap) : Dev :=
  { d with test.taps := tabSet {} k (f (tabGet {} k d.test.taps)) d.test.taps }
/-- Read the HalfPower under a key. -/
def Dev.getHalfPow (d : Dev) (k : Nat) : HalfPower := tabGet {} k d.powu.halves
/-- Change the HalfPower under a key. -/
def Dev.modHalfPow (d : Dev) (k : Nat) (f : HalfPower → HalfPower) : Dev :=
  { d with powu.halves := tabSet {} k (f (tabGet {} k d.powu.halves)) d.powu.halves }
/-- Read the Rail under a key. -/
def Dev.getRail (d : Dev) (k : Nat) : Rail := tabGet {} k d.powu.rails
/-- Change the Rail under a key. -/
def Dev.modRail (d : Dev) (k : Nat) (f : Rail → Rail) : Dev :=
  { d with powu.rails := tabSet {} k (f (tabGet {} k d.powu.rails)) d.powu.rails }
/-- Read the Guarantee under a key. -/
def Dev.getGuar (d : Dev) (k : Nat) : Guarantee := tabGet {} k d.powu.guar
/-- Change the Guarantee under a key. -/
def Dev.modGuar (d : Dev) (k : Nat) (f : Guarantee → Guarantee) : Dev :=
  { d with powu.guar := tabSet {} k (f (tabGet {} k d.powu.guar)) d.powu.guar }
/-- Read the BeatPort under a key. -/
def Dev.getBPort (d : Dev) (k : Nat) : BeatPort := tabGet {} k d.beat.ports
/-- Change the BeatPort under a key. -/
def Dev.modBPort (d : Dev) (k : Nat) (f : BeatPort → BeatPort) : Dev :=
  { d with beat.ports := tabSet {} k (f (tabGet {} k d.beat.ports)) d.beat.ports }
/-- Read the PartFabric under a key. -/
def Dev.getPartFab (d : Dev) (k : Nat) : PartFabric := tabGet {} k d.fab.parts
/-- Change the PartFabric under a key. -/
def Dev.modPartFab (d : Dev) (k : Nat) (f : PartFabric → PartFabric) : Dev :=
  { d with fab.parts := tabSet {} k (f (tabGet {} k d.fab.parts)) d.fab.parts }
/-- Read the Drops under a key. -/
def Dev.getDrop (d : Dev) (k : Nat) : Drops := tabGet {} k d.fab.drops
/-- Change the Drops under a key. -/
def Dev.modDrop (d : Dev) (k : Nat) (f : Drops → Drops) : Dev :=
  { d with fab.drops := tabSet {} k (f (tabGet {} k d.fab.drops)) d.fab.drops }
/-- Read the PortCount under a key. -/
def Dev.getPortCnt (d : Dev) (k : Nat) : PortCount := tabGet {} k d.fab.counts
/-- Change the PortCount under a key. -/
def Dev.modPortCnt (d : Dev) (k : Nat) (f : PortCount → PortCount) : Dev :=
  { d with fab.counts := tabSet {} k (f (tabGet {} k d.fab.counts)) d.fab.counts }
/-- Read the Window under a key. -/
def Dev.getWindow (d : Dev) (k : Nat) : Window := tabGet {} k d.host.windows
/-- Change the Window under a key. -/
def Dev.modWindow (d : Dev) (k : Nat) (f : Window → Window) : Dev :=
  { d with host.windows := tabSet {} k (f (tabGet {} k d.host.windows)) d.host.windows }

/-- The high-water mark follows the beat number (R33), and the outputs start empty at each command. -/
def settle (d : Dev) : Dev :=
  { d with beat.highWater := max d.beat.highWater d.beat.number }

/-- Forget the outputs of the last command (log entry 5). -/
def Dev.fresh (d : Dev) : Dev := { d with clock.out := [] }

/-- How every command ends: the device takes its effect, the queue stays as it is (log entry 2). -/
def State.run (s : State) (f : Dev → Dev) : Host.Outcome State Fault Refusal :=
  .next { s with dev := settle (f s.dev.fresh) }

/-- The phases in which the device runs: not held in reset, tripped or without power (R522, R526, R527, R566). -/
def Phase.live : Phase → Bool
  | .stage _ => true
  | .ready => true
  | .bootFailed => true
  | .recovery => true
  | .powerFail => true
  | .heldReset => false
  | .selfReset => false
  | .tripped => false
  | .noPower => false

/-- How a command ends that only a running device carries out. -/
def State.live (s : State) (f : Dev → Dev) : Host.Outcome State Fault Refusal :=
  s.run (fun d => if d.boot.phase.live then f d else d)

/-- Take an effect only where its condition holds; otherwise nothing changes (log entry 2). -/
def Dev.gate (d : Dev) (c : Bool) (f : Dev → Dev) : Dev := if c then f d else d

/-- Put something on the outputs. -/
def Dev.emit (d : Dev) (o : Out) : Dev := { d with clock.out := d.clock.out ++ [o] }

/-- Apply a function for every element of a list. -/
def Dev.each {α : Type} (l : List α) (f : Dev → α → Dev) (d : Dev) : Dev := l.foldl f d

/-- Nanoseconds of one beat (R32). -/
def beatNs : Nat := 680

/-- A timer of so many nanoseconds, started at a wall beat, has run out (R552, log entry 3). -/
def Dev.due (d : Dev) (since ns : Nat) : Bool := decide (ns ≤ beatNs * (d.clock.wall - since))

/-- The next free-value index, and the device that has drawn it (log entry 4). -/
def Dev.draw (d : Dev) : Nat × Dev := (d.clock.freeCtr, { d with clock.freeCtr := d.clock.freeCtr + 1 })

/-- Half of a slab or cluster (R8, R71): keys 8p + s. -/
def halfOfUnit (k : Nat) : Nat := 2 * (k / 8) + (k % 8) / 4

/-- Job cycles of one beat at a frequency index (R22, R94). -/
def beatCycles (freq : Nat) : Nat := 544 + 34 * freq

/-- The job cycle of a half at a cycle of the current beat (log entry 6). -/
def Dev.now (d : Dev) (half cyc : Nat) : Nat := (d.getHalf half).cycBase + cyc

/-- Cycles of the current beat in a half. -/
def Dev.cyclesOf (d : Dev) (half : Nat) : Nat := beatCycles (d.getHalf half).freq

/-- Wall time in µs (R480): the value set + 0.68 µs for each beat since, or 0 if never set. -/
def Dev.wallTime (d : Dev) : Nat :=
  match d.sec.wallBase with
  | none => 0
  | some t => t + 17 * (d.clock.wall - d.sec.wallAt) / 25

/-- Mesh and routed unit number of a slab (0 to 7), quarry tile, cluster tile and hub tile of a die (R71, R350). -/
def unitSlab (s : Nat) : Nat := 16 * (s / 4) + 4 * (s % 4) + 2
def unitQuarry (q : Nat) : Nat := 16 * (q / 4) + 4 * (q % 4) + 1
def unitCluster (k : Nat) : Nat := 16 * (k / 4) + 4 * (k % 4) + 3
def unitHub (h : Nat) : Nat := 16 * (h / 4) + 4 * (h % 4)

/-- Unit number of a cairn tile T: slab tiles 0 to 7, cluster tiles 8 to 15 (R314, R350). -/
def unitOfCairn (t : Nat) : Nat := if t < 8 then unitSlab t else unitCluster (t - 8)

/-- Cairn tile of a unit number, where it has one. -/
def cairnOfUnit (u : Nat) : Option Nat :=
  if u % 4 = 2 then some (4 * (u / 16) + (u % 16) / 4)
  else if u % 4 = 3 then some (8 + 4 * (u / 16) + (u % 16) / 4) else none

/-- Endpoint ID (R350). -/
def endpointOf (device die unit : Nat) : Nat := device * 1024 + die * 256 + unit

/-- Partition that holds a half. -/
def Dev.holder (d : Dev) (half : Nat) : Option Nat := (d.getHalf half).partition

/-- Partition number of a half as events and counters name it. -/
def Dev.holderNo (d : Dev) (half : Nat) : Nat := (d.holder half).getD 0xFF

/-- Rows of R569 whose severity is ERROR or FATAL assert ALERT_N (R576). -/
def alertSev (sev : Nat) : Bool := decide (2 ≤ sev)

/-- The 64 bytes of an event record with its phase in byte 63 (R456, R567). -/
def eventBytes (r : EvRec) (phase : Bool) : List Byte :=
  natLe 4 r.seq ++ natLe 2 r.ev.code ++ natLe 1 r.ev.cause ++ natLe 1 r.ev.flags ++ natLe 1 r.ev.sev
  ++ natLe 1 r.ev.die ++ natLe 1 r.ev.partition ++ natLe 1 0 ++ natLe 7 r.beat ++ natLe 1 0
  ++ natLe 8 r.wallTime ++ natLe 4 r.count ++ natLe 1 r.ev.cls ++ natLe 1 r.ev.idx ++ natLe 1 r.ev.sub
  ++ natLe 1 r.ev.ctx ++ natLe 6 r.ev.addr ++ natLe 3 r.ev.endpoint ++ natLe 2 r.ev.index
  ++ natLe 8 r.ev.valueA ++ natLe 8 r.ev.valueB ++ natLe 1 (b2n phase)

/-- Write a record into the event ring (R456): TAIL, the phase and the vector of R434, or OVERFLOW and LOST. -/
def Dev.eventRing (d : Dev) (r : EvRec) : Dev :=
  let e := d.host.evt
  if e.enable then
    let size := 2 ^ e.sizeLog2
    if (e.tail + 1) % size = e.head then
      { d with host.evt := { e with overflow := true, lost := satAdd 16 e.lost 1 } }
    else
      let t := (e.tail + 1) % size
      (({ d with host.evt := { e with tail := t, phase := if t = 0 then !e.phase else e.phase } }).emit
        (.hostWrite (e.base + 64 * e.tail) (eventBytes r e.phase))).emit (.msix e.boundPort 0 2)
  else d

/-- Records an event log holds before its oldest sector of 64 is erased (R568). -/
def logCapacity : Nat := 131072

/-- Append a new record with the given COUNT (R567, R568, R576). -/
def Dev.record (d : Dev) (ev : Ev) (count : Nat) : Dev :=
  let r : EvRec := ⟨d.evt.seq, d.beat.number, d.wallTime, count, d.clock.wall, ev⟩
  let log := if d.evt.log.length < logCapacity then d.evt.log else d.evt.log.drop 64
  let d := { d with evt := { d.evt with
    seq := wrapAdd 32 d.evt.seq 1, log := log ++ [r], held := d.evt.held + 1,
    heldSince := if d.evt.held = 0 then d.clock.wall else d.evt.heldSince } }
  let d := if alertSev ev.sev then { d with pins.alertN := false } else d
  d.eventRing r

/-- Same code and UNIT (R568). -/
def EvRate.of (r : EvRate) (ev : Ev) : Bool :=
  r.code == ev.code && r.cls == ev.cls && r.idx == ev.idx && r.sub == ev.sub && r.die == ev.die

/-- Wall beats in one second, rounded up (R568). -/
def beatsPerSecond : Nat := 1470589

/-- The codes of R558's detected errors: ECC_UNCORRECTABLE, POISON_DELIVERED, SEAM_SLIP, SLOT_COLLISION, CAIRN_TIMEOUT and BARRIER_TIMEOUT. -/
def detectedError (code : Nat) : Bool :=
  code == 0x0602 || code == 0x0603 || code == 0x0202 || code == 0x0201 || code == 0x0101 || code == 0x0103

/-- A detected error that concerns the partition of a LOCKSTEP mirror sets ERR (R558). -/
def Dev.noteError (d : Dev) (ev : Ev) : Dev :=
  if d.mirror.regs.mode = 1 ∧ d.mirror.regs.partition = ev.partition ∧ detectedError ev.code = true then
    { d with mirror.err := true }
  else d

/-- Raise an event: at most 1,000 records a second for one code and UNIT; further occurrences go to the COUNT of
the next record (R568). -/
def Dev.raise (d : Dev) (ev : Ev) : Dev :=
  let d := d.noteError ev
  match d.evt.rates.find? (·.of ev) with
  | none =>
    let fresh := d.evt.rates.filter (fun r => decide (d.clock.wall - r.since < beatsPerSecond))
    { d with evt.rates := ⟨ev.code, ev.cls, ev.idx, ev.sub, ev.die, d.clock.wall, 1, 0⟩ :: fresh }.record ev 1
  | some r =>
    let rest := d.evt.rates.filter (fun q => !q.of ev)
    if beatsPerSecond ≤ d.clock.wall - r.since then
      { d with evt.rates := { r with since := d.clock.wall, n := 1, carried := 0 } :: rest }.record ev (1 + r.carried)
    else if r.n < 1000 then
      { d with evt.rates := { r with n := r.n + 1, carried := 0 } :: rest }.record ev (1 + r.carried)
    else { d with evt.rates := { r with carried := r.carried + 1 } :: rest }

/-- Add to the COUNT of the newest record of this beat with the same code, cause and UNIT, if there is one. -/
def foldCount (wall : Nat) (ev : Ev) : List EvRec → Option (List EvRec)
  | [] => none
  | r :: rs =>
    match foldCount wall ev rs with
    | some rs' => some (r :: rs')
    | none =>
      if r.at_ = wall ∧ r.ev.code = ev.code ∧ r.ev.cause = ev.cause ∧ r.ev.cls = ev.cls ∧ r.ev.idx = ev.idx
          ∧ r.ev.sub = ev.sub ∧ r.ev.die = ev.die ∧ r.ev.key = ev.key then
        some ({ r with count := r.count + 1 } :: rs)
      else none

/-- Raise an event that its rule limits to once per beat (R568): repeats within the beat only count. -/
def Dev.raiseOnce (d : Dev) (ev : Ev) : Dev :=
  match foldCount d.clock.wall ev (d.evt.log.drop (d.evt.log.length - 256)) with
  | some tail => { (d.noteError ev) with evt.log := d.evt.log.take (d.evt.log.length - 256) ++ tail }
  | none => d.raise ev

/-- One byte of DPA memory (R285): 0 where nothing is listed (R539, R546, log entry 12). -/
def Mem.byte (m : Mem) (a : Nat) : Byte := tabGet (0 : Byte) a m.cells

/-- Write one byte and keep the canonical form. -/
def Mem.setByte (m : Mem) (a : Nat) (b : Byte) : Mem := { m with cells := tabSet (0 : Byte) a b m.cells }

/-- The canonical form of memory: addresses strictly rising and no listed byte zero. -/
def Mem.wf (m : Mem) : Bool := tabWf (0 : Byte) m.cells

/-- The error a 64-bit word holds (R286, R287). -/
def Mem.errOf (m : Mem) (word : Nat) : WordErr := tabGet .none word m.err

/-- Set the error of a word. -/
def Mem.setErr (m : Mem) (word : Nat) (e : WordErr) : Mem := { m with err := tabSet .none word e m.err }

/-- The n bytes from an address on. -/
def Mem.bytes (m : Mem) (a n : Nat) : List Byte := (upTo n).map (fun i => m.byte (a + i))

/-- Write bytes from an address on. -/
def Mem.setBytes (m : Mem) (a : Nat) : List Byte → Mem
  | [] => m
  | b :: bs => (m.setByte a b).setBytes (a + 1) bs

end Sys2Proof.Machine
end

