-- ==== Sys2Proof/Machine/Mem.lean ====
section
/-! DEFINITION. DPA memory: the address map (R292 to R294), HBM regions (R296 to R298), word protection (R286 to R289, R300),
and what a write feeds: Assay units (R582, R583) and the mirror (R557, R560). -/

namespace Sys2Proof.Machine

/-- Where a DPA lies (R292, R293): die, unit and tile-local offset; an HBM address with its region and offset in it. -/
inductive Place where
  | quarry (die n off : Nat)
  | store (die s off : Nat)
  | cluster (die k off : Nat)
  | hbm (die region off : Nat)
  | mmio (die off : Nat)
  | unmapped
deriving DecidableEq, Repr

/-- Presence of units in the capability words (R2, R433, R294); tables list what differs from the full complement. -/
def Caps.slabOn (c : Caps) (die s : Nat) : Bool := (tabGet 0xFF die c.slabs).testBit s
def Caps.arraysOf (c : Caps) (die s : Nat) : Nat := if c.slabOn die s then fld (tabGet 0xFFFFFFFF die c.arrays) (4 * s) 4 else 0
def Caps.namesOf (c : Caps) (cluster : Nat) : Nat := tabGet 8 cluster c.names
def Caps.stackOn (c : Caps) (stack : Nat) : Bool := !c.stackOff.contains stack

/-- Bytes of one band in one pseudo-channel (R296). -/
def bandBytes : Nat := if Config.stacksAre64 then 16 * 2 ^ 20 else 12 * 2 ^ 20

/-- Stacks of a region, ascending (R298). -/
def Region.stackList (r : Region) : List Nat := (upTo 5).filter (fun m => r.stackBits.testBit m)

/-- Data granules of one pseudo-channel's share (R297). -/
def Region.granules (r : Region) : Nat :=
  let a := r.bands * bandBytes
  if r.mode = 1 then a / 256
  else
    let g := a / 320
    g - cdiv g 64

/-- Region bytes (R297). -/
def Region.bytes (r : Region) : Nat := r.stackList.length * 64 * r.granules * 256

/-- First address of a region in the die's HBM window (R296, R309). -/
def Region.first (r : Region) : Nat := r.base * 2 ^ 30

/-- The surviving pseudo-channels of a stack, ascending (R298). -/
def survivors (retired : Nat) : List Nat := (upTo 64).filter (fun p => p != retired)

/-- Physical location of an offset in a region (R298): stack of the die, pseudo-channel, index in its share. -/
def Dev.hbmLoc (d : Dev) (die : Nat) (r : Region) (off : Nat) : Nat × Nat × Nat :=
  let g := off / 256
  let ss := r.stackList
  let m := ss.getD (g % ss.length) 0
  let q := g / ss.length
  let st := d.getStack (5 * die + m)
  let pc := q % 64
  let u := q / 64
  if r.mode = 0 ∧ st.reserveUsed ∧ pc = st.retiredPc then
    (m, (survivors pc).getD (u % 63) 0, r.granules + u / 63)
  else (m, pc, u)

/-- A granule is unbacked (R306, R307, R452): the pseudo-channel where it lies, after any move into the reserve, is retired or lost. -/
def Dev.unbacked (d : Dev) (die : Nat) (r : Region) (off : Nat) : Bool :=
  let l := d.hbmLoc die r off
  (d.getStack (5 * die + l.1)).pcRetired.testBit l.2.1

/-- Region of a die that holds an offset of its HBM window. -/
def Dev.regionAt (d : Dev) (die off : Nat) : Option Nat :=
  (upTo 16).find? (fun n =>
    let r := d.getRegion (16 * die + n)
    r.valid && decide (r.first ≤ off) && decide (off < r.first + r.bytes))

/-- The address map (R292 to R294). -/
def Dev.locate (d : Dev) (a : Nat) : Place :=
  let die := fld a 46 2
  let o := a % 2 ^ 46
  if 2 ^ 48 ≤ a then .unmapped
  else if o < 0x8000000000 then
    match d.regionAt die o with
    | some n =>
      let r := d.getRegion (16 * die + n)
      let off := o - r.first
      let ss := r.stackList
      if d.caps.stackOn (5 * die + ss.getD ((off / 256) % ss.length) 0) then .hbm die n off else .unmapped
    | none => .unmapped
  else if 0x200000000000 ≤ o ∧ o < 0x200010000000 then
    .quarry die ((o - 0x200000000000) / 0x2000000) ((o - 0x200000000000) % 0x2000000)
  else if 0x200100000000 ≤ o ∧ o < 0x200110000000 then
    let s := (o - 0x200100000000) / 0x2000000
    let off := (o - 0x200100000000) % 0x2000000
    if off < 0x1800000 ∧ d.caps.slabOn die s then .store die s off else .unmapped
  else if 0x200200000000 ≤ o ∧ o < 0x200208000000 then
    let k := (o - 0x200200000000) / 0x1000000
    let off := (o - 0x200200000000) % 0x1000000
    if off < 0x800000 ∧ 0 < d.caps.namesOf (8 * die + k) then .cluster die k off else .unmapped
  else if 0x300000000000 ≤ o then .mmio die (o - 0x300000000000)
  else .unmapped

/-- DPA of an offset in a quarry tile, slab store or cluster memory (R292, R293). -/
def dpaQuarry (die n off : Nat) : Nat := die * 2 ^ 46 + 0x200000000000 + n * 0x2000000 + off
def dpaStore (die s off : Nat) : Nat := die * 2 ^ 46 + 0x200100000000 + s * 0x2000000 + off
def dpaCluster (die k off : Nat) : Nat := die * 2 ^ 46 + 0x200200000000 + k * 0x1000000 + off

/-- Key of the memory a place belongs to, for its write-back queue (R288): quarry tiles 0 to 7, stores from 8, cluster memories
from 16, stacks from 24, plus 64 for each die. -/
def Dev.memoryOf (d : Dev) : Place → Nat
  | .quarry p n _ => 64 * p + n
  | .store p s _ => 64 * p + 8 + s
  | .cluster p k _ => 64 * p + 16 + k
  | .hbm p n off => 64 * p + 24 + (d.hbmLoc p (d.getRegion (16 * p + n)) off).1
  | _ => 0

/-- UNIT fields of a place (R567): class, index and sub-index, with the die. -/
def Dev.unitOfPlace (d : Dev) : Place → Nat × Nat × Nat × Nat
  | .quarry p n _ => (p, 1, unitQuarry n, 0xFF)
  | .store p s _ => (p, 1, unitSlab s, 0xFF)
  | .cluster p k _ => (p, 1, unitCluster k, 0xFF)
  | .hbm p n off =>
    let l := d.hbmLoc p (d.getRegion (16 * p + n)) off
    (p, 3, 5 * p + l.1, l.2.1)
  | .mmio p _ => (p, 0, 0, 0xFF)
  | .unmapped => (0xFF, 0, 0, 0xFF)

/-- An event about a place at an address. -/
def Dev.placeEv (d : Dev) (pl : Place) (code cause sev addr flags : Nat) : Ev :=
  let u := d.unitOfPlace pl
  let half := match pl with
    | .quarry p n _ | .store p n _ | .cluster p n _ => d.holderNo (2 * p + n / 4)
    | .hbm p n _ => (d.getRegion (16 * p + n)).partition
    | _ => 0xFF
  { code := code, cause := cause, flags := flags, sev := sev, die := u.1, partition := half
    cls := u.2.1, idx := u.2.2.1, sub := u.2.2.2, addr := addr }

/-- Queue a write-back (R288): at most 16 for a memory, dropped beyond. -/
def Dev.queueWriteBack (d : Dev) (memory word : Nat) (poison : Bool) : Dev :=
  let q := d.mem.writeBacks
  if (q.filter (fun w => w.memory == memory)).length < 16 ∧ !q.any (fun w => w.word == word) then
    { d with mem.writeBacks := q ++ [⟨memory, word, poison⟩] }
  else d

/-- Event codes of R569 that memory raises. -/
def evCorrected : Nat := 0x0601
def evUncorrectable : Nat := 0x0602
def evPoison : Nat := 0x0603
def evFirewall : Nat := 0x0804

/-- Stack-ECC region of a place (R300). -/
def Dev.stackEcc (d : Dev) : Place → Bool
  | .hbm p n _ => (d.getRegion (16 * p + n)).mode == 1
  | _ => false

/-- Unbacked granule at a place (R306, R307). -/
def Dev.unbackedAt (d : Dev) : Place → Bool
  | .hbm p n off => d.unbacked p (d.getRegion (16 * p + n)) off
  | _ => false

/-- The HBM channel of a place retrains (R307). -/
def Dev.retrainingAt (d : Dev) : Place → Bool
  | .hbm p n off =>
    let l := d.hbmLoc p (d.getRegion (16 * p + n)) off
    let s := d.getStack (5 * p + l.1)
    s.state == 1 && s.retrainCh == l.2.1 / 2
  | _ => false

/-- A routed access to an address waits for its HBM channel (R307). -/
def Dev.hbmWaits (d : Dev) (a : Nat) : Bool := d.retrainingAt (d.locate a)

/-- Granules that the lost-write log of a stack holds (R307). -/
def lostLog : Nat := 4096

/-- A scheduled write to a channel that retrains is recorded as lost (R307). -/
def Dev.logLost (d : Dev) (a : Nat) : Dev :=
  match d.locate a with
  | .hbm p n off =>
    let l := d.hbmLoc p (d.getRegion (16 * p + n)) off
    let g := a / 256
    d.modStack (5 * p + l.1) (fun s =>
      if s.lost.contains g then s
      else if s.lost.length < lostLog then { s with lost := s.lost ++ [g] } else { s with overflow := true })
  | _ => d

/-- Read one 64-bit word that lies at a place (R286 to R288, R300, R306): its bytes, whether they are delivered poisoned, and the device
with the events raised and the write-back queued. -/
def Dev.readWord (d : Dev) (pl : Place) (word flags : Nat) : List Byte × Bool × Dev :=
  let bs := d.mem.bytes (8 * word) 8
  if d.unbackedAt pl then (bs, true, d.raiseOnce (d.placeEv pl evPoison 3 2 (8 * word) flags))
  else match d.mem.errOf word with
    | .none => (bs, false, d)
    | .poison => (bs, true, d)
    | .ce =>
      if d.stackEcc pl then (bs, false, d)
      else (bs, false, (d.raise (d.placeEv pl evCorrected 0 0 (8 * word) flags)).queueWriteBack (d.memoryOf pl) word false)
    | .ue =>
      if d.stackEcc pl then (bs, true, d.raise (d.placeEv pl evUncorrectable 4 2 (8 * word) flags))
      else (bs, true, (d.raise (d.placeEv pl evUncorrectable 1 2 (8 * word) flags)).queueWriteBack (d.memoryOf pl) word true)

/-- The event of an unmapped access (R294). -/
def Dev.unmappedEv (d : Dev) (addr src index : Nat) : Dev :=
  d.raiseOnce { code := evFirewall, cause := 1, sev := 1, die := fld addr 46 2, addr := addr, endpoint := src, index := index }

/-- Read n bytes from a DPA on, word by word, each byte with its poison (R286, R294). `fuel` bounds the words. -/
def Dev.readWords (d : Dev) : Nat → Nat → Nat → List PByte × Dev
  | 0, _, _ => ([], d)
  | fuel + 1, a, n =>
    if n = 0 then ([], d)
    else
      let word := a / 8
      let k := min n (8 - a % 8)
      let pl := d.locate a
      match pl with
      | .unmapped | .mmio _ _ =>
        let d := d.unmappedEv a 0 0
        let r := d.readWords fuel (a + k) (n - k)
        (List.replicate k ⟨0, true⟩ ++ r.1, r.2)
      | _ =>
        let (bs, p, d) := d.readWord pl word 0
        let r := d.readWords fuel (a + k) (n - k)
        (((bs.drop (a % 8)).take k).map (fun b => ⟨b, p⟩) ++ r.1, r.2)

/-- Read n bytes from a DPA on. -/
def Dev.readMem (d : Dev) (a n : Nat) : List PByte × Dev := d.readWords (n / 8 + 2) a n

/-- Reverse the bits of a byte (R582 REFIN). -/
def rev8 (b : Byte) : Nat := revBits 8 b.toNat

/-- One Assay register after a byte (R582). -/
def assayStep (b : AssayBlk) (reg : Nat) (x : Byte) : Nat :=
  crcBits b.width b.poly 8 (reg ^^^ ((if b.refin then rev8 x else x.toNat) <<< (b.width - 8)))

/-- Feed bytes to an Assay unit that runs (R582, R583). -/
def Assay.feed (u : Assay) (bs : List Byte) : Assay :=
  if u.state = 1 then { u with reg := bs.foldl (assayStep u.blk) u.reg } else u

/-- A poisoned word is fed as eight zero bytes and sets POISON_SEEN (R583). -/
def Assay.feedWord (u : Assay) (bs : List Byte) (poison : Bool) : Assay :=
  if u.state = 1 then
    if poison then { (u.feed (List.replicate 8 0)) with poisonSeen := true } else u.feed bs
  else u

/-- Feed a written word to every Assay unit of the die whose WRITES range holds it (R583). -/
def Dev.assayWrite (d : Dev) (die word : Nat) (bs : List Byte) (poison : Bool) : Dev :=
  if d.test.assay.isEmpty then d
  else Dev.each (upTo 8) (fun d u =>
    let a := d.getAssay (8 * die + u)
    if a.blk.source = 0 ∧ a.blk.base ≤ 8 * word ∧ 8 * word < a.blk.base + a.blk.length then
      d.modAssay (8 * die + u) (·.feedWord bs poison)
    else d) d

/-- Base DPA of the memory unit of a place (R557); an HBM unit is named by its region (log entry 30). -/
def Dev.unitBase (d : Dev) : Place → Nat
  | .quarry p n _ => dpaQuarry p n 0
  | .store p s _ => dpaStore p s 0
  | .cluster p k _ => dpaCluster p k 0
  | .hbm p n _ => p * 2 ^ 46 + (d.getRegion (16 * p + n)).first
  | _ => 0

/-- Initial value of the CRC-64 of R557. -/
def crcStart : Nat := 0xFFFFFFFFFFFFFFFF

/-- The mirrored range that holds an address (R555). -/
def MirrorRegs.holds (m : MirrorRegs) (a : Nat) : Bool :=
  m.ranges.any (fun r => decide (r.1 ≤ a) && decide (a < r.1 + r.2))

/-- Index of the 64 KiB block of the mirrored ranges that holds an address (R561). -/
def MirrorRegs.blockOf (m : MirrorRegs) (a : Nat) : Nat :=
  let rec go : List (Nat × Nat) → Nat → Nat
    | [], n => n
    | r :: rs, n => if r.1 ≤ a ∧ a < r.1 + r.2 then n + (a - r.1) / 65536 else go rs (n + r.2 / 65536)
  go m.ranges 0

/-- Insert into a sorted list without repeats. -/
def insertNat (x : Nat) : List Nat → List Nat
  | [] => [x]
  | y :: ys => if x < y then x :: y :: ys else if x = y then y :: ys else y :: insertNat x ys

/-- Mark a block dirty (R561). -/
def Dev.markDirty (d : Dev) (b : Nat) : Dev := { d with mirror.regs.dirty := insertNat b d.mirror.regs.dirty }

/-- The forwarding buffer of R560. -/
def fwdBufBytes : Nat := 8 * 2 ^ 20

/-- A resync begins at its source (R560, R561): passes over the dirty blocks run until one finds none. In SHADOW the state becomes RESYNC; a LOCKSTEP
source stays in SOLO. -/
def Dev.startResync (d : Dev) : Dev :=
  let d := if d.mirror.regs.mode = 2 then { d with mirror.regs.state := 2 } else d
  if d.mirror.copying then d
  else { d with mirror.copying := true, mirror.copyAt := none, mirror.copyFrom := 0, mirror.copyFound := false, mirror.regs.passes := 0
                mirror.regs.slow := false }

/-- Who writes (R557, R560): the partition's own scheduled transfers and drains, any other initiator, or the mirror engine itself. -/
inductive Writer where
  | own (partition : Nat)
  | other
  | engine
deriving DecidableEq, Repr

/-- What a write of a word into a mirrored range does: the LOCKSTEP check value (R557), or forwarding and the dirty bit (R560, R561). -/
def Dev.mirrorWrite (d : Dev) (pl : Place) (word : Nat) (bs : List Byte) (poison : Bool) (w : Writer) : Dev :=
  let m := d.mirror.regs
  if m.mode = 0 ∨ !m.holds (8 * word) then d
  else
    let d := match w with
      | .own p =>
        if m.mode = 1 ∧ p = m.partition then
          let b := d.unitBase pl
          { d with mirror.crc := tabSet crcStart b (crc64Run (tabGet crcStart b d.mirror.crc) bs) d.mirror.crc }
        else d
      | _ => d
    let b := m.blockOf (8 * word)
    if m.mode = 1 then
      if m.state = 4 ∨ m.state = 2 then d.markDirty b else d
    else if m.side = 0 ∧ w ≠ .engine then
      let d := if d.mirror.copyAt.any (fun c => c.1 == b) then d.markDirty b else d
      if fwdBufBytes < d.mirror.fwdBytes + 8 then (d.markDirty b).startResync
      else { d with mirror.fwdQueue := d.mirror.fwdQueue ++ [⟨0, 8 * word, bs.map (fun b => ⟨b, poison⟩), 0⟩], mirror.fwdBytes := d.mirror.fwdBytes + 8 }
    else d

/-- Cancel a queued write-back of a word that is written (R288). -/
def Dev.cancelWriteBack (d : Dev) (word : Nat) : Dev :=
  { d with mem.writeBacks := d.mem.writeBacks.filter (fun w => w.word != word) }

/-- Store a word (R286, R287, R300): all eight bytes, with the poison it holds from now on. -/
def Dev.storeWord (d : Dev) (pl : Place) (word : Nat) (bs : List Byte) (poison : Bool) (w : Writer) : Dev :=
  let d := d.cancelWriteBack word
  let d :=
    if d.stackEcc pl ∧ poison then
      { (d.raise (d.placeEv pl evUncorrectable 6 2 (8 * word) 0)) with
        mem := (d.mem.setBytes (8 * word) (List.replicate 8 0)).setErr word .none }
    else { d with mem := (d.mem.setBytes (8 * word) bs).setErr word (if poison then .poison else .none) }
  (d.assayWrite ((8 * word) / 2 ^ 46) word bs poison).mirrorWrite pl word bs poison w

/-- Write part of a word, or all of it (R289, R300): the old word is read and merged; an error it holds is corrected, or poisons the
merged word. Unbacked granules discard writes (R306). -/
def Dev.writeWord (d : Dev) (pl : Place) (word off : Nat) (bs : List PByte) (w : Writer) : Dev :=
  if d.unbackedAt pl then d
  else
    let newPoison := bs.any (·.poison)
    if bs.length = 8 then d.storeWord pl word (bs.map (·.val)) newPoison w
    else
      let old := d.mem.bytes (8 * word) 8
      let merged := old.take off ++ bs.map (·.val) ++ old.drop (off + bs.length)
      match d.mem.errOf word with
      | .none => d.storeWord pl word merged newPoison w
      | .poison => d.storeWord pl word merged true w
      | .ce =>
        if d.stackEcc pl then d.storeWord pl word merged newPoison w
        else (d.raise (d.placeEv pl evCorrected 0 0 (8 * word) 0)).storeWord pl word merged newPoison w
      | .ue =>
        if d.stackEcc pl then d.storeWord pl word merged true w
        else (d.raise (d.placeEv pl evUncorrectable 1 2 (8 * word) 0)).storeWord pl word merged true w

/-- Write bytes from a DPA on, word by word; unmapped words are discarded with the event of R294. -/
def Dev.writeWords (d : Dev) (w : Writer) : Nat → Nat → List PByte → Dev
  | 0, _, _ => d
  | fuel + 1, a, bs =>
    if bs.isEmpty then d
    else
      let k := 8 - a % 8
      let pl := d.locate a
      let d := match pl with
        | .unmapped | .mmio _ _ => d.unmappedEv a 0 0
        | _ => d.writeWord pl (a / 8) (a % 8) (bs.take k) w
      d.writeWords w fuel (a + k) (bs.drop k)

/-- Write bytes from a DPA on. -/
def Dev.writeMem (d : Dev) (a : Nat) (bs : List PByte) (w : Writer) : Dev := d.writeWords w (bs.length / 8 + 2) a bs

/-- Memory is zeroed over a range with valid check bits (R296, R539, R546, R589). -/
def Mem.zero (m : Mem) (a n : Nat) : Mem :=
  { m with cells := m.cells.filter (fun c => !(decide (a ≤ c.1) && decide (c.1 < a + n)))
           err := m.err.filter (fun e => !(decide (a ≤ 8 * e.1) && decide (8 * e.1 < a + n)))
           writeBacks := m.writeBacks.filter (fun w => !(decide (a ≤ 8 * w.word) && decide (8 * w.word < a + n))) }

/-- Zero every SRAM of a half (R539, R589): its quarry tiles, slab stores and cluster memories. -/
def Mem.zeroHalf (m : Mem) (half : Nat) : Mem :=
  (upTo 4).foldl (fun m i =>
    let p := half / 2
    let n := 4 * (half % 2) + i
    ((m.zero (dpaQuarry p n 0) 0x2000000).zero (dpaStore p n 0) 0x1800000).zero (dpaCluster p n 0) 0x800000) m

/-! ## The commands of this chapter -/

/-- R288: the oldest queued write-back lands: a corrected word is good again, an uncorrectable one is stored poisoned. -/
def eccWriteback (d : Dev) : Dev :=
  match d.mem.writeBacks with
  | [] => d
  | w :: rest =>
    let e := d.mem.errOf w.word
    let m := { d.mem with writeBacks := rest }
    let m := match e with
      | .ce => m.setErr w.word .none
      | .ue => m.setErr w.word .poison
      | _ => m
    { d with mem := m }

def execEccWriteback (s : State) : Host.Outcome State Fault Refusal := s.live eccWriteback

/-- R303: patrol scrub reads a word of a die; `found` is an error that arose in it since it was last written or read. -/
def patrolScrubRead (die word : Nat) (found : FoundErr) (d : Dev) : Dev :=
  let a := die * 2 ^ 46 + 8 * word
  let w := a / 8
  match d.locate a with
  | .unmapped | .mmio _ _ => d
  | pl =>
    let m := match found, d.mem.errOf w with
      | .clean, _ => d.mem
      | .corrected, .none => d.mem.setErr w .ce
      | .corrected, _ => d.mem
      | .uncorrectable, .poison => d.mem
      | .uncorrectable, _ => d.mem.setErr w .ue
    let d := { d with mem := m }
    if d.stackEcc pl then
      let l := match pl with
        | .hbm p n off => 5 * p + (d.hbmLoc p (d.getRegion (16 * p + n)) off).1
        | _ => 0
      let d := if d.mem.errOf w = .ce then d.modStack l (fun st => { st with corrections := st.corrections + 1 }) else d
      (d.readWord pl w 1).2.2
    else (d.readWord pl w 1).2.2

def execPatrolScrubRead (die word : Nat) (found : FoundErr) (s : State) : Host.Outcome State Fault Refusal :=
  s.live (patrolScrubRead die word found)

/-- Nanoseconds of an hour. -/
def hourNs : Nat := 3600000000000

/-- R312, R313: a scrub pass of a die ends: it is counted, LATE is set if it took longer than its period, and a new ScrubConfig takes effect. -/
def scrubPassEnd (die : Nat) (hbm : Bool) (d : Dev) : Dev :=
  d.modScrub die (fun s =>
    let since := if hbm then s.hbmSince else s.sramSince
    let hours := if hbm then s.hbmHours else s.sramHours
    let late := decide (hours * hourNs < beatNs * (d.clock.wall - since))
    let s := if late then { s with late := true } else s
    let s := if hbm then { s with hbmPasses := wrapAdd 16 s.hbmPasses 1, progress := 0, hbmSince := d.clock.wall }
             else { s with sramPasses := wrapAdd 16 s.sramPasses 1, sramSince := d.clock.wall }
    match s.pending with
    | some (a, b, r, p) => { s with sramHours := a, hbmHours := b, autoRetire := r, autoSppr := p, pending := none }
    | none => s)

def execScrubPassEnd (die : Nat) (hbm : Bool) (s : State) : Host.Outcome State Fault Refusal := s.live (scrubPassEnd die hbm)

/-- R304, R541: soft repair of a row with AUTO_SPPR set: with a spare row left the repair is counted and recorded for the next boot;
without one the row counts against its pseudo-channel (R305). Which addresses a row holds is not given, so the words it copies keep their DPAs. -/
def softRepair (stack pc bank row : Nat) (ok : Bool) (d : Dev) : Dev :=
  d.gate ((d.getScrub (stack / 5)).autoSppr && d.caps.stackOn stack) (fun d =>
    if ok then
      let d := d.modStack stack (fun s => { s with sppr := satAdd 8 s.sppr 1, repaired := s.repaired ++ [(pc, bank, row)] })
      { d with flash.repairLog := d.flash.repairLog ++ [(16 + stack, 2 ^ 31 + pc * 2 ^ 24 + bank * 2 ^ 18 + row)] }
    else d.modStack stack (fun s => { s with unrepaired := s.unrepaired ++ [(pc, d.clock.wall)] }))

def execSoftRepair (stack pc bank row : Nat) (ok : Bool) (s : State) : Host.Outcome State Fault Refusal :=
  s.live (softRepair stack pc bank row ok)

end Sys2Proof.Machine
end

