-- ==== Sys2Proof/Machine/Jobs.lean ====
section
/-! DEFINITION. Partitions and their jobs: which units a partition holds, how contexts and jobs stop, draining and notices
(R35, R131, R242, R332, R334, R453, R454). -/

namespace Sys2Proof.Machine

/-- Halves that a partition holds, as indices 2p + h. -/
def Part.halfList (p : Part) : List Nat := (upTo 8).filter (fun h => p.halves.testBit h)

/-- Slab keys (and cluster keys) of a half. -/
def unitsOfHalf (h : Nat) : List Nat := (upTo 4).map (fun i => 8 * (h / 2) + 4 * (h % 2) + i)

/-- Slab keys of a partition; its clusters carry the same keys. -/
def Part.units (p : Part) : List Nat := p.halfList.flatMap unitsOfHalf

/-- Slab context keys of a partition. -/
def Part.slabCtxs (p : Part) : List Nat := p.units.flatMap (fun s => [2 * s, 2 * s + 1])

/-- Pebble keys of a partition. -/
def Part.pebs (p : Part) : List Nat := p.units.flatMap (fun k => (upTo 8).map (fun q => 8 * k + q))

/-- Pebble context keys of a partition. -/
def Part.pebCtxs (p : Part) : List Nat := p.pebs.flatMap (fun b => (upTo 4).map (fun x => 4 * b + x))

/-- Dies of a partition. -/
def Part.dies (p : Part) : List Nat := (upTo 4).filter (fun q => p.halves.testBit (2 * q) || p.halves.testBit (2 * q + 1))

/-- Cairn tile of a slab or cluster key (R314). -/
def tileOfSlab (s : Nat) : Nat := 16 * (s / 8) + s % 8
def tileOfCluster (k : Nat) : Nat := 16 * (k / 8) + 8 + k % 8

/-- Die of a cairn tile key, and its unit number (R314, R350). -/
def dieOfTile (t : Nat) : Nat := t / 16
def unitOfTile (t : Nat) : Nat := unitOfCairn (t % 16)

/-- Slab key of a slab tile, cluster key of a cluster tile. -/
def keyOfTile (t : Nat) : Nat := 8 * (t / 16) + t % 8

/-- Half of a cairn tile. -/
def halfOfTile (t : Nat) : Nat := halfOfUnit (keyOfTile t)

/-- Whether a cairn tile is a slab tile. -/
def isSlabTile (t : Nat) : Bool := decide (t % 16 < 8)

/-- STOP_CAUSE of R132 and R280 for a job cause of R453. -/
def stopCauseOf (cause : Nat) : Nat := if cause = 1 then 1 else if cause = 2 then 2 else 3

/-- A partition has a running job (R453 RUNNING). -/
def Part.running (p : Part) : Bool := p.live && p.job.state == 2

/-- A partition drains (R332, R453 DRAINING). -/
def Part.draining (p : Part) : Bool := p.live && p.job.state == 3

/-- A running or draining job (R28, R277). -/
def Part.busy (p : Part) : Bool := p.running || p.draining

/-- Some partition has a running or draining job. -/
def Dev.anyBusy (d : Dev) : Bool := (upTo 8).any (fun n => (d.getPart n).busy)

/-- A partition with a running lockstep job. -/
def Part.lockRun (p : Part) : Bool := p.running && p.job.lockstep

/-- The partition of a half runs a lockstep job. -/
def Dev.lockHalf (d : Dev) (h : Nat) : Bool :=
  match d.holder h with
  | some n => (d.getPart n).lockRun
  | none => false

/-- The partition of a half runs a job. -/
def Dev.halfRuns (d : Dev) (h : Nat) : Bool :=
  match d.holder h with
  | some n => (d.getPart n).running
  | none => false

/-- The clock of a half relocks in a frequency change, and its work pauses (R89). -/
def Dev.pausedHalf (d : Dev) (h : Nat) : Bool :=
  let s := d.getSeam (h / 2)
  match s.current with
  | some r =>
    (if h % 2 = 0 then r.h0.isSome else r.h1.isSome)
      && decide (1 ≤ d.clock.wall - s.changeAt) && decide (d.clock.wall - s.changeAt < 13)
  | none => false

/-- The current beat is held (R56). -/
def Dev.heldBeat (d : Dev) : Bool := d.beat.heldBeats.contains d.beat.number

/-- The job beat that ended last, once the edge has passed: the counter stands in a held beat (R35, R56). -/
def Dev.lastJobBeat (d : Dev) (n : Nat) : Nat := (d.getPart n).job.jobBeat - (if d.heldBeat ∧ (d.getPart n).job.lockstep then 0 else 1)

/-- A half does work of its job at a cycle of the current beat: the job has begun (R35), the beat is not held for it (R56), its clock runs (R89). -/
def Dev.working (d : Dev) (h cyc : Nat) : Bool :=
  match d.holder h with
  | some n =>
    let p := d.getPart n
    p.running && !p.job.waitStart && !(d.heldBeat && p.job.lockstep) && !d.pausedHalf h && decide (cyc < d.cyclesOf h)
  | none => false

/-- Remove the registered waits of a context (R321, R326). -/
def Dev.dropWaits (d : Dev) (tile id : Nat) : Dev :=
  { d with cairn.waiters := d.cairn.waiters.filter (fun w => !(w.tile == tile && w.id == id)) }

/-- A slab context stops with a cause (R131, R132). -/
def Dev.stopSlabCtx (d : Dev) (key cause : Nat) : Dev :=
  let slab := key / 2
  let c := d.getSCtx key
  if c.bound ∧ c.started ∧ ¬c.ended ∧ ¬c.stopped then
    ((d.modSCtx key (fun c => { c with stopped := true })).modSlab slab (fun s => { s with regs.stopCause := cause })).dropWaits
      (tileOfSlab slab) (key % 2)
  else d

/-- A result in flight at a stop is not valid (R242): its register holds a free value, poison clear (log entry 4). -/
def freeResults (ctr now : Nat) (c : PCtx) : PCtx :=
  { c with
    s := (c.sReady.filter (fun r => decide (now < r.2))).foldl
      (fun t r => tabSet ⟨0, false⟩ r.1 ⟨(Config.freeWord (ctr + r.1)).setWidth 64, false⟩ t) c.s
    v := (c.vReady.filter (fun r => decide (now < r.2))).foldl
      (fun t r => tabSet ⟨0, 0⟩ r.1 ⟨Config.freeVec (ctr + r.1), 0⟩ t) c.v
    m := (c.mReady.filter (fun r => decide (now < r.2))).foldl
      (fun t r => tabSet 0 r.1 (Config.freeWord (ctr + 32 + r.1)) t) c.m
    sReady := [], vReady := [], mReady := [] }

/-- A pebble context stops with a cause (R242, R280). -/
def Dev.stopPebCtx (d : Dev) (key cause : Nat) : Dev :=
  let peb := key / 4
  let c := d.getPCtx key
  if c.bound ∧ (c.state = 1 ∨ c.state = 2) then
    let now := d.now (halfOfUnit (peb / 8)) 0
    let ctr := d.clock.freeCtr
    let d := { d with clock.freeCtr := ctr + 64 }
    ((d.modPCtx key (fun c => { freeResults ctr now c with state := 3, park := 0 })).modPebble peb
      (fun p => { p with stopCause := cause })).dropWaits (tileOfCluster (peb / 8)) (4 * (peb % 8) + key % 4)
  else d

/-- A context of a running job has stopped alone: the job remembers the cause of the first such stop as R453 codes it (log entry 171). -/
def Dev.noteFault (d : Dev) (n cause : Nat) : Dev :=
  if (d.getPart n).running ∧ (d.getPart n).job.fault = 0 then d.modPart n (fun p => { p with job.fault := cause }) else d

/-- No context of a partition goes on: each bound one has finished its program or has stopped (log entry 171). -/
def Dev.noneGoesOn (d : Dev) (n : Nat) : Bool :=
  let p := d.getPart n
  p.slabCtxs.all (fun k => let c := d.getSCtx k; !c.bound || c.endDone || c.stopped)
  && p.pebCtxs.all (fun k => let c := d.getPCtx k; !c.bound || c.ended || c.state == 3)

/-- A context fails alone: it enters STOPPED with cause FAULT, its registers kept (R205, R274, R275, R326). -/
def Dev.faultPebCtx (d : Dev) (key : Nat) : Dev :=
  let peb := key / 4
  ((d.modPCtx key (fun c => { c with state := 3, park := 0 })).modPebble peb
    (fun p => { p with stopCause := 3 })).dropWaits (tileOfCluster (peb / 8)) (4 * (peb % 8) + key % 4)

/-- Slab work in flight ends at a stop: what its effects would still have done is dropped (R131), and the streaming counts end with it. -/
def Slab.stopWork (s : Slab) : Slab :=
  let regs := { s.regs with
    streamCycles := s.regs.streamCycles - (s.regs.streamEnd - s.seq.cur), streamEnd := min s.regs.streamEnd s.seq.cur
    streakCycles := s.regs.streakCycles - (s.seq.streakFree - s.seq.cur) }
  { s with regs := regs, seq := { lastPass := s.seq.lastPass, lastDrain := s.seq.lastDrain, lastMem := s.seq.lastMem,
                                  lastMesh := s.seq.lastMesh, cur := s.seq.cur } }

/-- Stream work of a cluster ends at a stop. -/
def Cluster.stopWork (c : Cluster) : Cluster := { c with chIn := {}, chOut := {}, chRouted := {}, pend := [] }

/-- Channel state is reset to round 0 with no arrivals (R334). -/
def Dev.resetChannels (d : Dev) (n : Nat) : Dev :=
  Dev.each (upTo 64) (fun d k =>
    let c := d.getChan k
    if c.assigned ∧ c.partition = n then
      d.modChan k (fun c => { c with round := 0, arrivals := [], parked := [], counts := [], dead := false, timer := [],
                                     portRecv := [] })
    else d) d

/-- Unresolved signals of a partition (R332). -/
def Dev.unresolved (d : Dev) (n : Nat) : Bool := d.cairn.signals.any (fun s => s.partition == n)

/-- The detected errors that set ERR of a LOCKSTEP pair (R558). -/
def Dev.mirrorErr (d : Dev) (partition : Nat) : Dev :=
  if d.mirror.regs.mode = 1 ∧ d.mirror.regs.partition = partition then { d with mirror.err := true } else d

/-- The end of a job: the final beat and state, and the notice that becomes due (R453, R454). -/
def Dev.endJob (d : Dev) (n state cause : Nat) : Dev :=
  (d.modPart n (fun p => { p with job := { p.job with
    state := state, cause := cause, beat := d.beat.number, stopPending := none } })).resetChannels n

/-- Every context of a partition stops at this edge (R131, R242, R453): the job drains while signals are unresolved (R332), and the job's work in
flight ends. -/
def Dev.stopPartition (d : Dev) (n cause : Nat) : Dev :=
  let p := d.getPart n
  if p.running then
    let sc := stopCauseOf cause
    let d := Dev.each p.slabCtxs (fun d k => d.stopSlabCtx k sc) d
    let d := Dev.each p.pebCtxs (fun d k => d.stopPebCtx k sc) d
    let d := Dev.each p.units (fun d k => (d.modSlab k Slab.stopWork).modCluster k Cluster.stopWork) d
    d.endJob n (if d.unresolved n then 3 else 5) cause
  else d

/-- Ask for a stop at the next beat edge; the first cause stands. -/
def Dev.stopNext (d : Dev) (n cause : Nat) : Dev :=
  d.modPart n (fun p =>
    if p.running ∧ p.job.stopPending.isNone then { p with job := { p.job with stopPending := some cause } } else p)

/-- Ask every partition with a running lockstep job to stop at the next beat edge. -/
def Dev.stopLockstep (d : Dev) (cause : Nat) : Dev :=
  Dev.each (upTo 8) (fun d n => if (d.getPart n).lockRun then d.stopNext n cause else d) d

/-- Ask every running job to stop at the next beat edge. -/
def Dev.stopAllJobs (d : Dev) (cause : Nat) : Dev :=
  Dev.each (upTo 8) (fun d n => d.stopNext n cause) d

/-- Job beats run (R453): a beat counts from its start; 0 before job beat 0. -/
def Job.run (j : Job) : Nat := if j.state < 2 ∨ j.waitStart then 0 else j.jobBeat + 1

/-- RESULT0 and RESULT1 of R453. -/
def Part.result0 (p : Part) : Nat :=
  let st := if p.image.isNone ∧ p.job.state = 0 then 0 else p.job.state
  st + 8 * (if p.job.state = 5 then p.job.cause else 0) + 128 * b2n p.job.byHand
    + 256 * b2n (p.image.any (·.lockstep)) + 2 ^ 16 * (p.job.run % 2 ^ 48)
def Part.result1 (p : Part) : Nat := p.job.beat % 2 ^ 56

end Sys2Proof.Machine
end

