-- ==== Sys2Proof/Machine/Packets.lean ====
section
/-! DEFINITION. Routed packets (spec/12 R350 to R354, R365 to R367): their message header, the requests a source keeps until they are answered, and
how a packet enters the plane. Every packet of the plane is an entry of `fab.queue` until it leaves on a link or is delivered. -/

namespace Sys2Proof.Machine

/-- Bytes with zeros behind them up to a length. -/
def padTo (n : Nat) (bs : List Byte) : List Byte := bs ++ List.replicate (n - bs.length) 0

/-- The 16-byte message header of R353. -/
def msgHeader (addr flags group bytes tag sigIndex inc fmt : Nat) : List Byte :=
  natLe 6 addr ++ natLe 1 flags ++ natLe 1 group ++ natLe 2 bytes ++ natLe 2 tag ++ natLe 2 sigIndex ++ natLe 1 inc
  ++ natLe 1 fmt

/-- Payload bytes of one flit, and the largest data size of a packet (R352, R353). -/
def flitPayload : Nat := 240
def maxData : Nat := 3824

/-- LEN of a packet with so many data bytes after its message header. -/
def lenOf (bytes : Nat) : Nat := cdiv (16 + bytes) flitPayload - 1

/-- Fields of the message header (R353). -/

def pAddr (p : Packet) : Nat := leAt p.payload 0 6
def pFlags (p : Packet) : Nat := leAt p.payload 6 1
def pGroup (p : Packet) : Nat := leAt p.payload 7 1
def pBytes (p : Packet) : Nat := leAt p.payload 8 2
def pTag (p : Packet) : Nat := leAt p.payload 10 2
def pSigIndex (p : Packet) : Nat := leAt p.payload 12 2
def pInc (p : Packet) : Nat := leAt p.payload 14 1
def pFmt (p : Packet) : Nat := leAt p.payload 15 1
def pSig (p : Packet) : Bool := (pFlags p).testBit 0
def pMcast (p : Packet) : Bool := (pFlags p).testBit 1
def pRow (p : Packet) : Bool := (pFlags p).testBit 2

/-- Parts of an endpoint ID (R350). -/
def epDevice (e : Nat) : Nat := e / 1024
def epDie (e : Nat) : Nat := (e / 256) % 4
def epUnit (e : Nat) : Nat := e % 256

/-- Router that an endpoint of the own device lies at: a tile's own, HB3 for Bedrock and Geode, HB2 for the PCIe port (R73, R350). -/
def routerOf (e : Nat) : Nat :=
  let u := epUnit e
  256 * epDie e + (if u < 32 then u else if u = 0x22 then 8 else 12)

/-- A packet born as a multicast copy (R369 to R371): VC3 without ESC. It is never answered. -/
def pNoAnswer (p : Packet) : Bool := p.vc == 3 && !p.esc

/-- Data bytes of a packet, each with the poison of its payload word (R352). -/
def pData (p : Packet) : List PByte :=
  (upTo (pBytes p)).map (fun i => ⟨p.payload.getD (16 + i) 0, p.poison.contains ((16 + i) / 8)⟩)

/-- Payload words of data bytes that hold poison, after the 16-byte header. -/
def poisonWords (bs : List PByte) : List Nat :=
  (upTo (cdiv bs.length 8)).filterMap (fun w =>
    if ((bs.drop (8 * w)).take 8).any (·.poison) then some (w + 2) else none)

/-- A packet of a message header and data (R352, R353), padded to whole flits. -/
def mkPacket (dest src part kind vc : Nat) (fence : Bool) (hdr : List Byte) (data : List PByte) : Packet :=
  { dest := dest, src := src, part := part, kind := kind, vc := vc, len := lenOf data.length, fence := fence, esc := false
    payload := padTo ((lenOf data.length + 1) * flitPayload) (hdr ++ data.map PByte.val), poison := poisonWords data }

/-- Router clock of the packets of a half (log entry 33): wall beat and cycle in it, so that it also runs in held beats. -/
def Dev.stamp (d : Dev) (cyc : Nat) : Nat := 65536 * d.clock.wall + cyc

/-- Cycles of a router's clock since a stamp. -/
def Dev.stampAge (d : Dev) (router since cyc : Nat) : Nat :=
  (d.clock.wall - since / 65536) * d.cyclesOf (2 * (router / 256) + (router % 256) / 16) + cyc - since % 65536

/-- Output ports of queue entries that are not ports of a router. -/
def atSource : Nat := 128
def atInput : Nat := 129

/-- Hub tile key 8p + h of the home hub of a router (R355). -/
def homeHubOf (router : Nat) : Nat := 256 * (router / 256) + (router % 256) - (router % 4)

/-- One tag was issued before another, modulo 2¹⁶. -/
def tagBefore (a b : Nat) : Bool := decide (a ≠ b) && decide ((b + 65536 - a) % 65536 < 32768)

/-- What keeps a packet at its source: a fenced packet waits for every earlier packet to its DEST (R366), a REDUCE for two unanswered ones of
its group (R374). -/
def Dev.sourceBlocked (d : Dev) (p : Packet) : Bool :=
  (p.fence && (d.fab.requests.any (fun r => r.src == p.src && r.dest == p.dest && tagBefore r.tag (pTag p))
    || d.cairn.signals.any (fun s => s.sent && s.target == p.dest && tagBefore s.tag (pTag p)
        && endpointOf d.fab.selfDevice (dieOfTile s.tile) (unitOfTile s.tile) == p.src)))
  || (p.kind == 6 && decide (2 ≤ (d.fab.requests.filter (fun r =>
        r.kind == 6 && r.src == p.src && r.group == pGroup p && tagBefore r.tag (pTag p))).length))

/-- A packet enters the plane at the router of its source (R355, R366). -/
def Dev.inject (d : Dev) (router cyc : Nat) (p : Packet) : Dev :=
  let q : QPkt := ⟨router, 0, if d.sourceBlocked p then atSource else atInput, d.stamp cyc, false, 0, p⟩
  { d with fab.queue := d.fab.queue ++ [q] }

/-- Packets at their sources that are no longer blocked go on (R366, R374). -/
def Dev.freeSources (d : Dev) : Dev :=
  { d with fab.queue := d.fab.queue.map (fun (q : QPkt) =>
      if q.outPort = atSource ∧ !d.sourceBlocked q.pkt then { q with outPort := atInput } else q) }

/-- The next request tag (R353). -/
def Dev.takeTag (d : Dev) : Nat × Dev := (d.fab.nextTag, { d with fab.nextTag := wrapAdd 16 d.fab.nextTag 1 })

/-- Send a request and keep it until it is answered (R366, R367). -/
def Dev.request (d : Dev) (r : Req) (cyc : Nat) (p : Packet) : Dev :=
  ({ d with fab.requests := d.fab.requests ++ [r] }).inject (routerOf p.src) cyc p

/-- Die and unit that hold a DPA (R293, R372): for an HBM address the hub tile of its stack (R73). -/
def Dev.unitOfDpa (d : Dev) (a : Nat) : Option (Nat × Nat) :=
  match d.locate a with
  | .quarry p n _ => some (p, unitQuarry n)
  | .store p s _ => some (p, unitSlab s)
  | .cluster p k _ => some (p, unitCluster k)
  | .hbm p n off =>
    let m := (d.hbmLoc p (d.getRegion (16 * p + n)) off).1
    some (p, unitHub (if m < 2 then m else m + 2))
  | .mmio p _ => some (p, 0x20)
  | .unmapped => none

/-- Bytes of a transfer from a DPA on that one packet carries: at most 3,824, and within one 256-byte granule of an HBM region, whose granules
lie in different hub tiles (R297, R353; log entry 34). -/
def Dev.chunkOf (d : Dev) (a n : Nat) : Nat :=
  match d.locate a with
  | .hbm _ _ off => min n (256 - off % 256)
  | _ => min n maxData

/-- Patch bytes into a byte list at an offset. -/
def patch (l : List PByte) (off : Nat) (bs : List PByte) : List PByte := l.take off ++ bs ++ l.drop (off + bs.length)

/-- A routed request of a partition with a latency guarantee is timed (R511): all answered ones, and those over the bound. -/
def Dev.noteLatency (d : Dev) (r : Req) (late : Bool) : Dev :=
  let k := 4 * r.part + 2
  if (d.getGuar k).rank = 0 then d
  else d.modGuar k (fun g => { g with answered := g.answered + 1, overCount := if late ∨ g.v1 < beatNs * (d.clock.wall - r.since) then g.overCount + 1 else g.overCount })

/-- An answer reaches the transfer it belongs to (R366, R367): read bytes go to their place, and the tag is no longer outstanding. -/
def Dev.answered (d : Dev) (r : Req) (bs : List PByte) (late : Bool) : Dev :=
  let d := d.noteLatency r late
  let d := { d with fab.requests := d.fab.requests.filter (fun (q : Req) => !(q.src == r.src && q.tag == r.tag && q.kind == r.kind)) }
  let d := match r.owner with
    | .dma slab =>
      d.modSlab slab (fun s => { s with seq.dmaRun := s.seq.dmaRun.map (fun (j : DmaJob) =>
        if j.tags.contains r.tag then
          { j with tags := j.tags.erase r.tag, got := if r.kind = 1 then patch j.got r.at_ bs else j.got }
        else j) })
    | .stream cl =>
      let d := if r.kind = 1 then d.writeMem (dpaCluster (cl / 8) (cl % 8) r.at_) bs .other else d
      d.modCluster cl (fun c => { c with chRouted.run := c.chRouted.run.map (fun (j : StreamJob) =>
        { j with tags := j.tags.erase r.tag, moved := if j.tags.contains r.tag then j.moved + r.bytes else j.moved }) })
    | .mirror seq =>
      let d := { d with mirror.fwdOpen := d.mirror.fwdOpen.erase seq }
      if late then (d.markDirty (d.mirror.regs.blockOf r.addr)).startResync else d
    | .aperture => d.emit (.hostRead (bs.map PByte.val))
    | .signal => d
    | .bedrock => d
  d.freeSources

end Sys2Proof.Machine
end

