-- ==== Sys2Proof/Machine/Cairn.lean ====
section
/-! DEFINITION. Cairns, waits and signals (spec/11 R314 to R332, R343 to R347). Operations of one job cycle apply together, in port order, once
a later cycle is looked at (`cairnFlush`); then waits are evaluated (R323). -/

namespace Sys2Proof.Machine

/-- Fields of a cairn map entry (R318). -/
def mapValid (e : Nat) : Bool := e.testBit 0
def mapOwn (e : Nat) : Bool := e.testBit 1
def mapRebase (e : Nat) : Bool := e.testBit 2
def mapRemote (e : Nat) : Bool := e.testBit 3
def mapDie (e : Nat) : Nat := fld e 4 2
def mapTile (e : Nat) : Nat := fld e 6 4
def mapIndex (e : Nat) : Nat := fld e 10 10
def mapDevice (e : Nat) : Nat := fld e 20 12
def mapEpoch (e : Nat) : Nat := fld e 32 31

/-- Key of a context's cairn map. -/
def ctxKey (tile id : Nat) : Nat := 32 * tile + id

/-- The map entry of a virtual cairn ID. -/
def Dev.mapEntry (d : Dev) (tile id v : Nat) : Nat := (d.getCMap (ctxKey tile id)).entries.getD v 0

/-- Entries of a map that name a physical cairn of a tile as owned. -/
def ownsCairn (m : CMap) (tile index : Nat) : Bool :=
  m.owner.isSome && m.entries.any (fun e =>
    mapValid e && mapOwn e && 16 * mapDie e + mapTile e == tile && mapIndex e == index)

/-- The partition whose bound context owns a cairn (R331, R344, R345). -/
def Dev.cairnOwner (d : Dev) (tile index : Nat) : Option Nat :=
  (d.cairn.maps.find? (fun m => ownsCairn m.2 tile index)).bind (·.2.owner)

/-- Value of a cairn (R314). -/
def Dev.cairnValue (d : Dev) (tile index : Nat) : Nat := tabGet 0 (1024 * tile + index) d.cairn.values

/-- Set the value of a cairn. -/
def Dev.setCairn (d : Dev) (tile index v : Nat) : Dev :=
  { d with cairn.values := tabSet 0 (1024 * tile + index) v d.cairn.values }

/-- The largest cairn value (R314). -/
def cairnMax : Nat := 2147483647

/-- Event codes of R569 that cairns and barriers raise. -/
def evCairnTimeout : Nat := 0x0101
def evCairnUnderflow : Nat := 0x0102
def evBarrierTimeout : Nat := 0x0103

/-- An operation that would leave the range is discarded, with its event and RANGE_SEEN (R316). -/
def Dev.cairnRange (d : Dev) (o : CairnOp) (cause : Nat) : Dev :=
  let v := d.cairnValue o.tile o.index
  (d.raise { code := evCairnUnderflow, cause := cause, sev := 2, die := dieOfTile o.tile
             partition := d.holderNo (halfOfTile o.tile), cls := 1, idx := unitOfTile o.tile, endpoint := o.src
             index := 1024 * (o.tile % 16) + o.index, valueA := v, valueB := o.port + 256 * o.amount }).modCairnTile o.tile
    (fun t => { t with rangeSeen := true })

/-- Apply one operation (R315, R316, R331): a signal to a cairn that no bound context owns is an orphan. -/
def Dev.applyCairn (d : Dev) (o : CairnOp) : Dev :=
  let v := d.cairnValue o.tile o.index
  if o.kind = 0 then
    if (d.cairnOwner o.tile o.index).isNone then
      d.modCairnTile o.tile (fun t => { t with orphans := satAdd 16 t.orphans 1 })
    else if cairnMax < v + o.amount then d.cairnRange o 2
    else d.setCairn o.tile o.index (v + o.amount)
  else if v < o.amount then d.cairnRange o 1
  else d.setCairn o.tile o.index (v - o.amount)

/-- Release a waiter at a cycle (R241, R324): a slab wait counts as satisfied from the next cycle; a pebble returns to RUNNING, and if it had
parked its next instruction issues two cycles later at the earliest. -/
def Dev.releaseWaiter (d : Dev) (w : Waiter) (t : Nat) : Dev :=
  let d := { d with cairn.waiters := d.cairn.waiters.filter (fun x => !(x.tile == w.tile && x.id == w.id)) }
  if isSlabTile w.tile then d.modSCtx (2 * keyOfTile w.tile + w.id) (fun c => { c with waitSat := some (t + 1) })
  else
    d.modPCtx (4 * (8 * keyOfTile w.tile + w.id / 4) + w.id % 4) (fun c =>
      { c with state := 1, park := 0, wake := if w.fresh = some t then t + 1 else t + 2 })

/-- Evaluate one cairn at a cycle (R323): every satisfied observer, then the consume queue from the front. `fuel` bounds the queue. -/
def Dev.consume (d : Dev) (tile index t : Nat) : Nat → Dev
  | 0 => d
  | fuel + 1 =>
    match d.cairn.waiters.find? (fun w => w.tile == tile && w.index == index && !w.observe) with
    | some w =>
      if w.n ≤ d.cairnValue tile index then
        ((d.setCairn tile index (d.cairnValue tile index - w.n)).releaseWaiter w t).consume tile index t fuel
      else d
    | none => d

/-- Evaluate one cairn at a cycle (R323). -/
def Dev.evalCairn (d : Dev) (tile index t : Nat) : Dev :=
  let obs := d.cairn.waiters.filter (fun w =>
    w.tile == tile && w.index == index && w.observe && decide (w.n ≤ d.cairnValue tile index))
  (Dev.each obs (fun d w => d.releaseWaiter w t) d).consume tile index t 40

/-- Order of operations within a cycle (R323): port, then context, then arrival. -/
def opBefore (a b : CairnOp) : Bool := decide (a.port < b.port) || (a.port == b.port && decide (a.id ≤ b.id))

/-- Insert an operation in order. -/
def insertOp (o : CairnOp) : List CairnOp → List CairnOp
  | [] => [o]
  | x :: xs => if opBefore x o then x :: insertOp o xs else o :: x :: xs

/-- Distinct cairns of a list of (tile, index). -/
def distinct (l : List (Nat × Nat)) : List (Nat × Nat) := l.foldl (fun a x => if a.contains x then a else a ++ [x]) []

/-- Everything of one cycle in one half (R323): the operations in port order, then the cairns touched or newly waited on. -/
def Dev.cairnCycle (d : Dev) (half t : Nat) : Dev :=
  let mine := fun tile => halfOfTile tile == half
  let ops := (d.cairn.ops.filter (fun o => mine o.tile && o.time == t)).foldl (fun l o => insertOp o l) []
  let fresh := d.cairn.waiters.filter (fun w => mine w.tile && w.fresh == some t)
  let touched := distinct (ops.map (fun o => (o.tile, o.index)) ++ fresh.map (fun w => (w.tile, w.index)))
  let d := { d with cairn.ops := d.cairn.ops.filter (fun o => !(mine o.tile && o.time == t)) }
  let d := Dev.each ops (fun d o => d.applyCairn o) d
  let d := Dev.each touched (fun d c => d.evalCairn c.1 c.2 t) d
  { d with cairn.waiters := d.cairn.waiters.map (fun w =>
      if mine w.tile ∧ w.fresh = some t then { w with fresh := none } else w) }

/-- Cycles before `t` in which a half has cairn work, ascending and distinct. -/
def Dev.cairnTimes (d : Dev) (half t : Nat) : List Nat :=
  let a := (d.cairn.ops.filter (fun o => halfOfTile o.tile == half && decide (o.time < t))).map (·.time)
  let b := (d.cairn.waiters.filter (fun w => halfOfTile w.tile == half)).filterMap (·.fresh)
  (a ++ b.filter (fun x => decide (x < t))).foldl (fun l x => insertNat x l) []

/-- Bring the cairns of a half up to the start of a cycle. -/
def Dev.cairnFlush (d : Dev) (half t : Nat) : Dev := Dev.each (d.cairnTimes half t) (fun d u => d.cairnCycle half u) d

/-- Beat edges of a wait timeout (R325). -/
def waitBeats (us : Nat) : Nat := cdiv ((if us = 0 then 1000 else us) * 1000) 680

/-- The wait timeout of a context in beats. -/
def Dev.ctxLimit (d : Dev) (tile id : Nat) : Nat := waitBeats (d.getCMap (ctxKey tile id)).timeoutUs

/-- Insert a waiter: registrations of one cycle join in context-ID order (R322). -/
def insertWaiter (w : Waiter) : List Waiter → List Waiter
  | [] => [w]
  | x :: xs => if x.fresh.isSome ∧ x.fresh = w.fresh ∧ w.id < x.id then w :: x :: xs else x :: insertWaiter w xs

/-- Register a wait (R322) on the context's virtual cairn at a cycle. -/
def Dev.registerWait (d : Dev) (tile id v n : Nat) (observe : Bool) (t : Nat) : Dev :=
  let w : Waiter := ⟨tile, id, mapIndex (d.mapEntry tile id v), v, n, observe, d.ctxLimit tile id, 0, some t⟩
  { d with cairn.waiters := insertWaiter w d.cairn.waiters }

/-- The VC of a partition's separate signals (R364). -/
def Dev.signalVc (d : Dev) (partition : Nat) : Nat := if (d.getPartFab partition).priority then 2 else 0

/-- The SIGNAL packet of an open signal (R328, R353). -/
def Dev.signalPacket (d : Dev) (o : OpenSignal) : Packet :=
  { dest := o.target, src := endpointOf d.fab.selfDevice (dieOfTile o.tile) (unitOfTile o.tile), part := o.partition, kind := 4
    vc := d.signalVc o.partition, len := 0, fence := false, esc := false
    payload := padTo 240 (msgHeader 0 0 0 0 o.tag o.index o.inc 0), poison := [] }

/-- SIGNAL packets of a tile on VC2 that are not acknowledged yet (R362). -/
def Dev.openVc2 (d : Dev) (tile : Nat) : Nat :=
  (d.cairn.signals.filter (fun s => s.tile == tile && s.sent && d.signalVc s.partition == 2)).length

/-- Send the open signals of a tile that wait at their source, as far as R362 lets them go. -/
def Dev.sendSignals (d : Dev) (tile : Nat) : Dev :=
  Dev.each (d.cairn.signals.filter (fun s => s.tile == tile && !s.sent)) (fun d o =>
    if d.signalVc o.partition = 2 ∧ 16 ≤ d.openVc2 tile then d
    else
      ({ d with cairn.signals := d.cairn.signals.map (fun (s : OpenSignal) => if s.tag = o.tag then { s with sent := true } else s) }).inject
        (256 * dieOfTile tile + unitOfTile tile) 0 (d.signalPacket o)) d

/-- Raise a signal of a context (R327, R328): to its own tile it enters port 1 at the cycle; to any other tile it leaves as a routed message. -/
def Dev.raiseSignal (d : Dev) (tile id v inc t : Nat) : Dev :=
  let e := d.mapEntry tile id v
  let own := !mapRemote e && 16 * mapDie e + mapTile e == tile
  let src := endpointOf d.fab.selfDevice (dieOfTile tile) (unitOfTile tile)
  if own then { d with cairn.ops := d.cairn.ops ++ [⟨t, tile, mapIndex e, 1, id, 0, inc, src⟩] }
  else
    let dev := if mapRemote e then mapDevice e else d.fab.selfDevice
    let o : OpenSignal := ⟨tile, id, d.fab.nextTag, dev, endpointOf dev (mapDie e) (unitOfCairn (mapTile e)), mapIndex e,
      d.ctxLimit tile id, 0, ((d.getCMap (ctxKey tile id)).owner).getD 0, inc, false⟩
    ({ d with fab.nextTag := wrapAdd 16 d.fab.nextTag 1, cairn.signals := d.cairn.signals ++ [o] }).sendSignals tile

/-- A signal applies on port 2 of a cairn at a cycle (R323, R328). -/
def Dev.routedSignal (d : Dev) (tile index inc src t : Nat) : Dev :=
  { d with cairn.ops := d.cairn.ops ++ [⟨t, tile, index, 2, 0, 0, inc, src⟩] }

/-- The job that holds a context's partition runs in lockstep. -/
def Dev.lockTile (d : Dev) (tile : Nat) : Bool := d.lockHalf (halfOfTile tile)

/-- Count one beat edge for the wait timers (R325, R332): held beats do not count in a lockstep partition (R57). -/
def Dev.tickWaits (d : Dev) (held : Bool) : Dev :=
  { d with
    cairn.waiters := d.cairn.waiters.map (fun w =>
      if held ∧ d.lockTile w.tile then w else { w with elapsed := w.elapsed + 1 })
    cairn.signals := d.cairn.signals.map (fun s =>
      if held ∧ d.lockTile s.tile then s else { s with elapsed := s.elapsed + 1 }) }

/-- A context stops with cause FAULT after its own wait (R326). -/
def Dev.faultCtx (d : Dev) (tile id : Nat) : Dev :=
  if isSlabTile tile then
    let k := 2 * keyOfTile tile + id
    ((d.modSCtx k (fun c => { c with stopped := true })).modSlab (keyOfTile tile)
      (fun s => { s with regs.stopCause := 3 })).dropWaits tile id
  else d.faultPebCtx (4 * (8 * keyOfTile tile + id / 4) + id % 4)

/-- R325, R326: a registered wait of a context expires at a beat edge: event, TIMEOUT_SEEN, the waiter is removed, the context stops, and in
lockstep its partition stops at the next beat edge. -/
def cairnWaitTimeout (tile id : Nat) (d : Dev) : Dev :=
  let half := halfOfTile tile
  let d := d.cairnFlush half (d.now half 0 + 1)
  match d.cairn.waiters.find? (fun w => w.tile == tile && w.id == id) with
  | none => d
  | some w =>
    if w.elapsed < w.limit then d
    else
      let part := d.holderNo half
      let d := d.raise { code := evCairnTimeout, cause := 1, sev := 2, die := dieOfTile tile, partition := part, cls := 1
                         idx := unitOfTile tile, ctx := id
                         endpoint := endpointOf d.fab.selfDevice (dieOfTile tile) (unitOfTile tile)
                         index := 1024 * (tile % 16) + w.index
                         valueA := d.cairnValue tile w.index + 2 ^ 32 * w.n + 2 ^ 48 * w.vid }
      let d := (d.modCairnTile tile (fun t => { t with timeoutSeen := true })).mirrorErr part
      let d := (d.faultCtx tile id).noteFault part 4
      if d.lockTile tile then d.stopNext part 4 else d

def execCairnWaitTimeout (tile id : Nat) (s : State) : Host.Outcome State Fault Refusal := s.live (cairnWaitTimeout tile id)

/-- R332: the acknowledgement of a routed signal does not return within the wait timeout: the signal counts as resolved, with SIGNAL_LOST. -/
def signalAckTimeout (tag : Nat) (d : Dev) : Dev :=
  match d.cairn.signals.find? (fun s => s.tag == tag) with
  | none => d
  | some s =>
    if s.elapsed < s.limit then d
    else
      let d := { d with cairn.signals := d.cairn.signals.filter (fun x => x.tag != tag) }
      let d := d.raise { code := evCairnTimeout, cause := 2, sev := 2, die := dieOfTile s.tile, partition := s.partition, cls := 1
                         idx := unitOfTile s.tile, ctx := s.id, endpoint := s.target
                         index := 1024 * (cairnOfUnit (epUnit s.target)).getD 0 + s.index }
      let d := (d.modCairnTile s.tile (fun t => { t with signalLost := true })).mirrorErr s.partition
      d.sendSignals s.tile

def execSignalAckTimeout (tag : Nat) (s : State) : Host.Outcome State Fault Refusal := s.live (signalAckTimeout tag)

/-- R321: bind a task to a context: the cairns it owned are cleared and its wait removed, then the new map is loaded and the cairns it owns are cleared;
waits that others registered on them are evaluated on the new value. -/
def Dev.bindMap (d : Dev) (tile id : Nat) (m : CMap) : Dev :=
  let half := halfOfTile tile
  let t := d.now half 0
  let clear := fun (d : Dev) (c : CMap) =>
    Dev.each (c.entries.filter (fun e => mapValid e && mapOwn e)) (fun d e =>
      (d.setCairn (16 * mapDie e + mapTile e) (mapIndex e) 0).evalCairn (16 * mapDie e + mapTile e) (mapIndex e) t) d
  let old := d.getCMap (ctxKey tile id)
  let d := if old.owner.isSome then clear (d.dropWaits tile id) old else d.dropWaits tile id
  clear (d.modCMap (ctxKey tile id) (fun _ => m)) m

/-- R332: the last signal of a stopped or ended partition is resolved: draining ends. An ended job becomes ENDED, a stopped one STOPPED. -/
def Dev.drainEnd (d : Dev) (n : Nat) : Dev :=
  d.modPart n (fun p =>
    if p.draining then { p with job := { p.job with state := if p.job.cause = 0 then 4 else 5 } } else p)

end Sys2Proof.Machine
end

