-- ==== Sys2Proof/Machine/SlabSeq.lean ====
section
/-! DEFINITION. The sequencer of a slab context (spec/08 R203 to R206, R215 to R217): its head command, loops and base registers, the wait and the
signal attached to a command. A context has key 2 × slab + x; times are job cycles of the slab's half. -/

namespace Sys2Proof.Machine

/-- A context executes: bound, begun, and neither ended nor stopped (R203, R204, R131). -/
def SCtx.runs (c : SCtx) : Bool := c.bound && c.started && !c.ended && !c.stopped

/-- The head command of a context (R203). -/
def SCtx.head (c : SCtx) : Option SlabCmd := if c.runs then (c.cmds[c.pc]?).bind decodeSlab else none

/-- Value and stride of a base register; B0 adds nothing (R216). -/
def SCtx.base (c : SCtx) (r : Nat) : Nat := tabGet 0 r c.baseVal
def SCtx.stride (c : SCtx) (r : Nat) : Nat := tabGet 0 r c.baseStride

/-- Effective value of a field with a base selector (R216). -/
def SCtx.eff (c : SCtx) (field sel : Nat) : Nat := if sel = 0 then field else (field + c.base sel) % 2 ^ 32

/-- At the end of an iteration each register in the mask adds its stride (R216). -/
def SCtx.stepBases (c : SCtx) (mask : Nat) : SCtx :=
  { c with baseVal := (upTo 7).foldl (fun t k =>
      if mask.testBit k then tabSet 0 (k + 1) ((c.base (k + 1) + c.stride (k + 1)) % 2 ^ 32) t else t) c.baseVal }

/-- Close the iterations that end at a command (R216, R217): the next command is the first of the body, or the one behind it once the count is
used up. `fuel` covers the loops that may end at one command. -/
def SCtx.closeLoops (c : SCtx) (at_ : Nat) : Nat → SCtx
  | 0 => c
  | fuel + 1 =>
    match c.loops with
    | [] => c
    | l :: rest =>
      if l.last = at_ then
        let c := c.stepBases l.mask
        if 1 < l.left then { c with loops := { l with left := l.left - 1 } :: rest, pc := l.start }
        else ({ c with loops := rest }).closeLoops at_ fuel
      else c

/-- The command at pc has dispatched: the next command becomes the head (R203, R217). -/
def SCtx.advance (c : SCtx) (t : Nat) : SCtx :=
  let c' : SCtx := { c with pc := c.pc + 1, lastDispatch := some t, waitReg := false, waitSat := none, arrived := false }
  c'.closeLoops c.pc 4

/-- The attached wait of the head is satisfied at a cycle (R203, R324). -/
def SCtx.waitOk (c : SCtx) (h : SlabCmd) (t : Nat) : Bool :=
  !h.at_.waitEn || (match c.waitSat with | some r => decide (r ≤ t) | none => false)

/-- The head may dispatch at a cycle as far as order and its wait go: one command a cycle (R203). -/
def SCtx.canDispatch (c : SCtx) (h : SlabCmd) (t : Nat) : Bool :=
  c.waitOk h t && (match c.lastDispatch with | some u => decide (u < t) | none => true)

/-- Keys under which a context lists fetch errors: command n, or descriptor i above the commands (R205). -/
def descErrKey (i : Nat) : Nat := 8192 + i

/-- Register the wait of the head once it has become the head (R322). -/
def Dev.registerHead (d : Dev) (key t : Nat) : Dev :=
  let c := d.getSCtx key
  match c.head with
  | some h =>
    if h.at_.waitEn ∧ ¬c.waitReg ∧ !c.codeErr.contains c.pc then
      (d.registerWait (tileOfSlab (key / 2)) (key % 2) h.at_.waitCairn h.at_.waitN h.at_.waitObs t).modSCtx key
        (fun c => { c with waitReg := true })
    else d
  | none => d

/-- Dispatch the head of a context at a cycle: the next command becomes the head in the next cycle (R203). -/
def Dev.dispatchSlab (d : Dev) (key t : Nat) : Dev := (d.modSCtx key (fun c => c.advance t)).registerHead key (t + 1)

/-- Apply the signal of a command that completes at a cycle, in the cycle after (R204). -/
def Dev.cmdSignal (d : Dev) (key : Nat) (a : Attach) (done : Nat) : Dev :=
  if a.sigEn then d.raiseSignal (tileOfSlab (key / 2)) (key % 2) a.sigCairn a.sigInc (done + 1) else d

/-- An uncorrectable error in a command or descriptor that is fetched (R205): the context stops with FAULT, with its event. -/
def Dev.fetchError (d : Dev) (key index : Nat) : Dev :=
  let slab := key / 2
  let part := d.holderNo (halfOfUnit slab)
  (((d.raise { code := evUncorrectable, cause := 3, sev := 2, die := slab / 8, partition := part, cls := 1, idx := unitSlab (slab % 8)
               ctx := key % 2, valueA := index }).mirrorErr part).faultCtx (tileOfSlab slab) (key % 2)).noteFault part 3

/-- The slab key and cycle at which a command of a slab takes place, if its half works (R203). -/
def Dev.slabAt (d : Dev) (slab cyc : Nat) : Option Nat :=
  let h := halfOfUnit slab
  let t := d.now h cyc
  if d.working h cyc ∧ (d.getSlab slab).seq.cur ≤ t then some t else none

/-- A BARRIER whose round is released dispatches in the release cycle, and signals in the next (R204, R335). -/
def Dev.releaseSlab (d : Dev) (key t : Nat) : Dev :=
  let c := d.getSCtx key
  match c.head with
  | some h =>
    match h.op with
    | .barrier _ _ =>
      if c.arrived then (d.dispatchSlab key t).cmdSignal key h.at_ t else d
    | _ => d
  | none => d

end Sys2Proof.Machine
end

