-- ==== Sys2Proof/Machine/Barrier.lean ====
section
/-! DEFINITION. Barrier channels (spec/11 R333 to R342, R348, R349). The dies of the package are all inside the block, so their counts are read from
the state; counts of other devices come in the sync field of vein ports (R337, log entry 31). -/

namespace Sys2Proof.Machine

/-- Members of a channel on a die: the context keys bound by the owning partition whose mask names it (R333). -/
def Dev.members (d : Dev) (die ch : Nat) : List Nat :=
  let c := d.getChan (16 * die + ch)
  if c.assigned then
    (d.cairn.maps.filter (fun m =>
      decide (m.1 / 32 / 16 = die) && m.2.owner == some c.partition && m.2.barrierMask.testBit ch)).map (·.1)
  else []

/-- Every member of a die has arrived for a round (R335). -/
def Dev.allArrived (d : Dev) (die ch round : Nat) : Bool :=
  let c := d.getChan (16 * die + ch)
  (d.members die ch).all (fun k => c.arrivals.any (fun a => ctxKey a.tile a.id == k && a.round == round))

/-- Rounds for which every member of a die has arrived; a die without members counts as always complete (R338). -/
def Dev.dieCount (d : Dev) (die ch : Nat) : Option Nat :=
  let c := d.getChan (16 * die + ch)
  if (d.members die ch).isEmpty then none
  else if d.allArrived die ch c.round then
    if d.allArrived die ch (c.round + 1) then some (c.round + 2) else some (c.round + 1)
  else some c.round

/-- The lesser of two counts, none being complete. -/
def minCount : Option Nat → Option Nat → Option Nat
  | none, b => b
  | a, none => a
  | some a, some b => some (min a b)

/-- Dies on which the owner of a channel of a die has the channel assigned. -/
def Dev.chanDies (d : Dev) (die ch : Nat) : List Nat :=
  let n := (d.getChan (16 * die + ch)).partition
  (upTo 4).filter (fun p => let c := d.getChan (16 * p + ch); c.assigned && c.partition == n)

/-- Rounds counted on a port of a channel (R337). -/
def Dev.portCount (d : Dev) (ch port : Nat) : Nat := tabGet 0 port (d.getChan (16 * (port / 4) + ch)).portRecv

/-- Child ports of a channel's tree (R348). -/
def BarrierTree.childPorts (t : BarrierTree) : List Nat := (upTo 16).filter (fun n => t.children.testBit n)

/-- Arrival count of the device's subtree (R338): the least of its dies' counts and its child ports'. -/
def Dev.subtree (d : Dev) (die ch : Nat) : Option Nat :=
  let t := d.getTree ch
  let dies := (d.chanDies die ch).foldl (fun a p => minCount a (d.dieCount p ch)) none
  if t.enabled then t.childPorts.foldl (fun a n => minCount a (some (d.portCount ch n))) dies else dies

/-- Rounds released for the device (R337, R338): by its own root, or by the parent port's count. -/
def Dev.roundsReleased (d : Dev) (die ch : Nat) : Nat :=
  let t := d.getTree ch
  if t.enabled ∧ ¬t.root then d.portCount ch t.parentPort else (d.subtree die ch).getD 0

/-- The members of a channel span more than one die, or its tree joins other devices (R335). -/
def Dev.wideScope (d : Dev) (die ch : Nat) : Bool :=
  (d.getTree ch).enabled || decide (1 < ((d.chanDies die ch).filter (fun p => !(d.members p ch).isEmpty)).length)

/-- The open round of a die is complete (R335). -/
def Dev.roundDone (d : Dev) (die ch : Nat) : Bool :=
  let c := d.getChan (16 * die + ch)
  d.allArrived die ch c.round && !(d.members die ch).isEmpty
  && (!d.wideScope die ch || decide (c.round < d.roundsReleased die ch))

/-- RELEASE_BEATS of a channel on a die, from any member (R340 makes them equal). -/
def Dev.releaseBeats (d : Dev) (die ch : Nat) : Nat :=
  match d.members die ch with
  | [] => 0
  | k :: _ => (d.getCMap k).releaseBeats.getD ch 0

/-- The partition of a channel runs a lockstep job. -/
def Dev.lockChan (d : Dev) (die ch : Nat) : Bool :=
  let c := d.getChan (16 * die + ch)
  c.assigned && (d.getPart c.partition).lockRun

/-- Job beats run so far by the owner of a channel. -/
def Dev.chanBeat (d : Dev) (die ch : Nat) : Nat := (d.getPart (d.getChan (16 * die + ch)).partition).job.jobBeat

/-- A member arrives (R334, R335): its n-th BARRIER is for round n; rounds R and R + 1 are recorded, round R + 2 waits parked. A dead channel
records nothing, and the context stays parked (R341). -/
def Dev.arrive (d : Dev) (tile id ch : Nat) (rebase : Bool) (t : Nat) : Dev :=
  let die := dieOfTile tile
  let key := 16 * die + ch
  let c := d.getChan key
  if c.dead then d.modChan key (fun c => { c with parked := c.parked ++ [⟨tile, id, c.round + 2, rebase, d.chanBeat die ch, t, false⟩] })
  else
    let n := tabGet 0 (ctxKey tile id) c.counts
    let a : Arrival := ⟨tile, id, n, rebase, d.chanBeat die ch, t, false⟩
    d.modChan key (fun c =>
      let c := { c with counts := tabSet 0 (ctxKey tile id) (n + 1) c.counts }
      if n ≤ c.round + 1 then
        { c with arrivals := c.arrivals ++ [a]
                 timer := if c.timer.any (fun x => x.1 == n) then c.timer else c.timer ++ [(n, 0)] }
      else { c with parked := c.parked ++ [a] })

/-- Tiles of the members of a die, for the wire latency of R336. -/
def Dev.memberTiles (d : Dev) (die ch : Nat) : List Nat := ((d.members die ch).map (· / 32)).foldl (fun l x => insertNat x l) []

/-- Wire latency from the last arrival to the release, by the scope of the members (R336). -/
def Dev.wireCycles (d : Dev) (die ch : Nat) : Nat :=
  let ts := d.memberTiles die ch
  let hs := (ts.map halfOfTile).foldl (fun l x => insertNat x l) []
  if ts.length ≤ 1 then 4 else if hs.length ≤ 1 then 12 else 24

/-- Half in which a channel's cycles are counted: the first half of the die that holds a member. -/
def Dev.chanHalf (d : Dev) (die ch : Nat) : Nat :=
  match d.memberTiles die ch with
  | [] => 2 * die
  | t :: _ => halfOfTile t

/-- Cycle of the last arrival of the open round on a die. -/
def Dev.lastArrival (d : Dev) (die ch : Nat) : Nat :=
  let c := d.getChan (16 * die + ch)
  (c.arrivals.filter (fun a => a.round == c.round)).foldl (fun m a => max m a.time) 0

/-- Arrivals of the open round of a die that are not released yet. -/
def Dev.openArrivals (d : Dev) (die ch : Nat) : List Arrival :=
  let c := d.getChan (16 * die + ch)
  c.arrivals.filter (fun a => a.round == c.round && !a.gone)

/-- The open round of a lockstep channel was complete by the end of the beat before (R340): no arrival of it fell in the beat that runs. -/
def Dev.doneBefore (d : Dev) (die ch : Nat) : Bool :=
  let r := (d.getChan (16 * die + ch)).round
  d.roundDone die ch && (d.chanDies die ch).all (fun p =>
    ((d.getChan (16 * p + ch)).arrivals.filter (fun a => a.round == r)).all (fun a => decide (a.beat < d.chanBeat p ch)))

/-- Arrivals whose release falls in this cycle: each in cycle 0 of its own beat plus RELEASE_BEATS (R340), or all of them by the latencies
of R336. -/
def Dev.dueNow (d : Dev) (die ch t : Nat) : List Arrival :=
  let rb := d.releaseBeats die ch
  if d.lockChan die ch ∧ 0 < rb then
    if d.doneBefore die ch ∧ t = d.now (d.chanHalf die ch) 0 then
      (d.openArrivals die ch).filter (fun a => a.beat + rb == d.chanBeat die ch)
    else []
  else if d.roundDone die ch ∧ (if d.wideScope die ch then d.lastArrival die ch ≤ t else t = d.lastArrival die ch + d.wireCycles die ch) then
    d.openArrivals die ch
  else []

/-- Rebase the marked cairns of a released member (R342): on port 0 in the release cycle. -/
def Dev.rebase (d : Dev) (tile id t : Nat) : Dev :=
  let src := endpointOf d.fab.selfDevice (dieOfTile tile) (unitOfTile tile)
  let marked := (d.getCMap (ctxKey tile id)).entries.filter (fun e => mapValid e && mapRebase e)
  let ops := marked.map (fun e => (⟨t, tile, mapIndex e, 0, id, 1, mapEpoch e, src⟩ : CairnOp))
  { d with cairn.ops := d.cairn.ops ++ ops }

/-- Release one member at a cycle (R334, R335, R342). -/
def Dev.releaseMember (d : Dev) (a : Arrival) (t : Nat) : Dev :=
  let d := if a.rebase then d.rebase a.tile a.id t else d
  if isSlabTile a.tile then d.releaseSlab (2 * keyOfTile a.tile + a.id) t
  else
    d.modPCtx (4 * (8 * keyOfTile a.tile + a.id / 4) + a.id % 4) (fun c =>
      if c.state = 2 ∧ c.park = 2 then { c with state := 1, park := 0, wake := t + 2 } else c)

/-- Empty the slot of a released round (R335): R rises, and parked arrivals for the new R + 1 are recorded. -/
def BarrierCh.close (c : BarrierCh) : BarrierCh :=
  let r := c.round + 1
  let now := c.parked.filter (fun a => decide (a.round ≤ r + 1))
  { c with round := r
           arrivals := c.arrivals.filter (fun a => decide (r ≤ a.round)) ++ now
           parked := c.parked.filter (fun a => decide (r + 1 < a.round))
           timer := (c.timer.filter (fun x => decide (r ≤ x.1)))
             ++ (now.map (·.round)).foldl (fun l n => if l.any (fun x => x.1 == n) then l else l ++ [(n, 0)]) [] }

/-- R335, R340, R342: members of a complete round are released on a die: they go on, rebases enter port 0, and with the last of them the round
closes. -/
def barrierRoundRelease (die channel cyc : Nat) (d : Dev) : Dev :=
  let key := 16 * die + channel
  let half := d.chanHalf die channel
  let t := d.now half cyc
  let go := d.dueNow die channel t
  let last := decide (go.length = (d.openArrivals die channel).length)
  d.gate (!go.isEmpty && !(d.getChan key).dead) (fun d =>
    (Dev.each go (fun d a => d.releaseMember a t) d).modChan key (fun c =>
      if last then c.close
      else { c with arrivals := c.arrivals.map (fun a => if go.contains a then { a with gone := true } else a) }))

def execBarrierRoundRelease (die channel cyc : Nat) (s : State) : Host.Outcome State Fault Refusal :=
  s.live (barrierRoundRelease die channel cyc)

/-- Units of the member tiles of a die that have not arrived for the open round, as VALUE_A bits (R341, R569). -/
def Dev.missingUnits (d : Dev) (die ch : Nat) : Nat :=
  let c := d.getChan (16 * die + ch)
  (d.memberTiles die ch).foldl (fun v t =>
    let ok := ((d.members die ch).filter (fun k => k / 32 == t)).all (fun k =>
      c.arrivals.any (fun a => ctxKey a.tile a.id == k && a.round == c.round))
    if ok then v else v ||| 2 ^ unitOfTile t) 0

/-- The die that aggregates a channel (R338). -/
def Dev.aggregator (d : Dev) (die ch : Nat) : Nat :=
  let t := d.getTree ch
  if t.enabled ∧ ¬t.root then t.parentPort / 4
  else (((d.chanDies die ch).filter (fun p => !(d.members p ch).isEmpty)).head?).getD die

/-- A die's count does not cover the open round of another. -/
def Dev.dieMissing (d : Dev) (p ch round : Nat) : Bool :=
  match d.dieCount p ch with
  | none => false
  | some c => decide (c ≤ round)

/-- Ports of a die whose subtrees have not arrived, as VALUE_B bits (R341): child vein ports, and the D2D links of R338. -/
def Dev.missingPorts (d : Dev) (die ch : Nat) : Nat :=
  let c := d.getChan (16 * die + ch)
  let t := d.getTree ch
  let a := d.aggregator die ch
  let cw := (die + 1) % 4
  let ccw := (die + 3) % 4
  let diag := (die + 2) % 4
  let here := fun p => (d.chanDies die ch).contains p
  let v := if t.enabled then (t.childPorts.filter (fun n => n / 4 == die && decide (d.portCount ch n ≤ c.round))).foldl
      (fun v n => v ||| 2 ^ n) 0 else 0
  if a = die then
    let v := if here ccw ∧ d.dieMissing ccw ch c.round then v ||| 2 ^ (16 + ccw) else v
    if (here cw ∧ d.dieMissing cw ch c.round) ∨ (here diag ∧ d.dieMissing diag ch c.round) then v ||| 2 ^ (16 + die) else v
  else if die = (a + 1) % 4 ∧ here cw ∧ d.dieMissing cw ch c.round then v ||| 2 ^ (16 + die)
  else v

/-- The event of a barrier that is late or timed out (R340, R341, R569). -/
def Dev.barrierEv (d : Dev) (die ch cause : Nat) : Dev :=
  let c := d.getChan (16 * die + ch)
  (d.raise { code := evBarrierTimeout, cause := cause, sev := 2, die := die, partition := c.partition, cls := 8, idx := ch
             index := c.round % 65536, valueA := d.missingUnits die ch, valueB := d.missingPorts die ch }).mirrorErr c.partition

/-- R340: the round of a lockstep channel is not complete by its release beat: LATE, and every context of the partition stops at this edge. -/
def barrierLate (die channel : Nat) (d : Dev) : Dev :=
  let key := 16 * die + channel
  let c := d.getChan key
  let rb := d.releaseBeats die channel
  d.gate (d.lockChan die channel && decide (0 < rb) && !d.doneBefore die channel
      && (d.openArrivals die channel).any (fun a => decide (a.beat + rb ≤ d.chanBeat die channel))) (fun d =>
    ((d.barrierEv die channel 2).modChan key (fun c => { c with lateSeen := true })).stopPartition c.partition 6)

def execBarrierLate (die channel : Nat) (s : State) : Host.Outcome State Fault Refusal := s.live (barrierLate die channel)

/-- Timer limit of a channel on a die: the largest wait timeout among its members (R341). -/
def Dev.chanLimit (d : Dev) (die ch : Nat) : Nat :=
  (d.members die ch).foldl (fun m k => max m (waitBeats (d.getCMap k).timeoutUs)) 0

/-- R341: a round's timer expires: TIMEOUT_SEEN and DEAD, members parked on the channel stop with FAULT, and in lockstep the partition
stops at the next beat edge. -/
def barrierTimeout (die channel : Nat) (d : Dev) : Dev :=
  let key := 16 * die + channel
  let c := d.getChan key
  d.gate (!c.dead && !d.roundDone die channel
      && c.timer.any (fun x => x.1 == c.round && decide (d.chanLimit die channel ≤ x.2))) (fun d =>
    let lock := d.lockChan die channel
    let d := (d.barrierEv die channel 1).modChan key (fun c => { c with timeoutSeen := true, dead := true, parked := [] })
    let d := Dev.each (c.arrivals ++ c.parked) (fun d a => (d.faultCtx a.tile a.id).noteFault c.partition 5) d
    if lock then d.stopNext c.partition 5 else d)

def execBarrierTimeout (die channel : Nat) (s : State) : Host.Outcome State Fault Refusal := s.live (barrierTimeout die channel)

/-- Counts of arrivals that a die receives (R338): at the aggregating die those of its neighbours and child ports, at its clockwise neighbour
that of the diagonal die. -/
def Dev.heardCounts (d : Dev) (die ch : Nat) : List Nat :=
  let a := d.aggregator die ch
  let t := d.getTree ch
  let count := fun p => if (d.chanDies die ch).contains p then d.dieCount p ch else none
  if a = die then
    (count ((die + 3) % 4)).toList ++ (minCount (count ((die + 1) % 4)) (count ((die + 2) % 4))).toList
      ++ (if t.enabled then t.childPorts.map (d.portCount ch) else [])
  else if die = (a + 1) % 4 then (count ((die + 1) % 4)).toList
  else []

/-- Rounds whose timer a received arrival starts on a die with members (R341). -/
def Dev.heardRounds (d : Dev) (die ch : Nat) : List Nat :=
  let c := d.getChan (16 * die + ch)
  if c.dead ∨ (d.members die ch).isEmpty = true then []
  else [c.round, c.round + 1].filter (fun n => !c.timer.any (fun x => x.1 == n) && (d.heardCounts die ch).any (fun m => decide (n < m)))

/-- Count one beat edge for the round timers (R341, R57), those started by arrivals received in the beat among them. -/
def Dev.tickBarriers (d : Dev) (held : Bool) : Dev :=
  Dev.each (upTo 64) (fun d k =>
    if !(d.getChan k).assigned || (held && d.lockChan (k / 16) (k % 16)) then d
    else
      let heard := (d.heardRounds (k / 16) (k % 16)).map (fun n => (n, 0))
      d.modChan k (fun c => { c with timer := (c.timer ++ heard).map (fun x => (x.1, x.2 + 1)) })) d

/-- The sync field that a vein port sends (R337): arrivals toward the parent, releases toward a child. -/
def Dev.syncField (d : Dev) (port : Nat) : Nat :=
  (upTo 16).foldl (fun v ch =>
    let t := d.getTree ch
    if !t.enabled then v
    else
      let dies := (upTo 4).filter (fun p => (d.getChan (16 * p + ch)).assigned)
      let die := (dies.head?).getD (port / 4)
      if ¬t.root ∧ t.parentPort = port then v + 4 ^ ch * (((d.subtree die ch).getD 0) % 4)
      else if t.children.testBit port then v + 4 ^ ch * ((d.roundsReleased die ch) % 4)
      else v) 0

/-- Apply a received sync field (R337): the difference modulo 4 counts, but a difference of 3 is ignored. -/
def Dev.recvSync (d : Dev) (port v : Nat) : Dev :=
  Dev.each (upTo 16) (fun d ch =>
    let t := d.getTree ch
    if t.enabled ∧ ((¬t.root ∧ t.parentPort = port) ∨ t.children.testBit port) then
      d.modChan (16 * (port / 4) + ch) (fun c =>
        let got := fld v (2 * ch) 2
        let last := tabGet 0 port c.portLast
        let diff := (got + 4 - last) % 4
        if diff = 3 then c
        else { c with portLast := tabSet 0 port got c.portLast
                      portRecv := tabSet 0 port (tabGet 0 port c.portRecv + diff) c.portRecv })
    else d) d

end Sys2Proof.Machine
end

