-- ==== Sys2Proof/Machine/Flits.lean ====
section
/-! DEFINITION. Flits and lanes (spec/13 R385 to R391): header fields, CHECK, the RS(272,256) code, striping and scrambling. -/

namespace Sys2Proof.Machine

/-- Product in GF(2⁸) with the field polynomial of R391, by the bits of the second factor. -/
def gfMulBits : Nat → Nat → Nat → Nat
  | 0, _, _ => 0
  | n + 1, a, b =>
    (if b % 2 = 1 then a else 0) ^^^ gfMulBits n (if 128 ≤ a then ((2 * a) % 256) ^^^ 0x1D else 2 * a) (b / 2)

/-- Product in GF(2⁸). -/
def gfMul (a b : Nat) : Nat := gfMulBits 8 a b

/-- Powers in GF(2⁸). -/
def gfPow (a : Nat) : Nat → Nat
  | 0 => 1
  | n + 1 => gfMul a (gfPow a n)

/-- Inverse in GF(2⁸): a²⁵⁴. -/
def gfInv (a : Nat) : Nat := gfPow a 254

/-- αᵏ with α = 0x02 (R391). -/
def gfAlpha (k : Nat) : Nat := gfPow 2 (k % 255)

/-- Product of a polynomial (highest coefficient first) and (x − r). -/
def gfTimesRoot (p : List Nat) (r : Nat) : List Nat :=
  (p ++ [0]).zipWith (· ^^^ ·) (0 :: p.map (gfMul r))

/-- The generator g(x), highest coefficient first (R391). -/
def rsGen : List Nat := (upTo 16).foldl (fun p i => gfTimesRoot p (gfAlpha i)) [1]

/-- One byte of the division by g(x). -/
def rsStep (rem : List Nat) (b : Nat) : List Nat :=
  let f := b ^^^ rem.headD 0
  (rem.drop 1 ++ [0]).zipWith (· ^^^ ·) ((rsGen.drop 1).map (gfMul f))

/-- The 16 parity bytes of 256 bytes (R391). -/
def rsParity (bs : List Byte) : List Byte :=
  (bs.foldl (fun r b => rsStep r b.toNat) (List.replicate 16 0)).map (BitVec.ofNat 8)

/-- Syndromes of a flit (R391). -/
def rsSyndromes (f : List Nat) : List Nat :=
  (upTo 16).map (fun i => f.foldl (fun a b => gfMul a (gfAlpha i) ^^^ b) 0)

/-- Sum of two polynomials, lowest coefficient first. -/
def gfPolyAdd : List Nat → List Nat → List Nat
  | [], q => q
  | p, [] => p
  | a :: p, b :: q => (a ^^^ b) :: gfPolyAdd p q

/-- Value of a polynomial, lowest coefficient first. -/
def gfEval (p : List Nat) (x : Nat) : Nat := p.foldr (fun c a => gfMul a x ^^^ c) 0

/-- State of the search for the error locator: locator, previous locator, its length, shift and previous discrepancy. -/
structure RsSearch where
  c : List Nat
  b : List Nat
  l : Nat
  m : Nat
  last : Nat
deriving DecidableEq, Repr

/-- One step of the search for the shortest locator of the syndromes. -/
def rsSearchStep (s : List Nat) (r : RsSearch) (n : Nat) : RsSearch :=
  let d := (upTo (r.l + 1)).foldl (fun a i => a ^^^ gfMul (r.c.getD i 0) (if i ≤ n then s.getD (n - i) 0 else 0)) 0
  if d = 0 then { r with m := r.m + 1 }
  else
    let c := gfPolyAdd r.c (List.replicate r.m 0 ++ r.b.map (gfMul (gfMul d (gfInv r.last))))
    if 2 * r.l ≤ n then ⟨c, r.c, n + 1 - r.l, 1, d⟩ else { r with c := c, m := r.m + 1 }

/-- The error locator. -/
def rsLocator (s : List Nat) : RsSearch := (upTo 16).foldl (rsSearchStep s) ⟨[1], [1], 0, 1, 1⟩

/-- Product of the syndromes and the locator, cut to 16 coefficients. -/
def rsOmega (s c : List Nat) : List Nat :=
  (upTo 16).map (fun k => (upTo (k + 1)).foldl (fun a i => a ^^^ gfMul (s.getD i 0) (c.getD (k - i) 0)) 0)

/-- Formal derivative over characteristic 2. -/
def gfDeriv (p : List Nat) : List Nat := (upTo p.length).filterMap (fun i => if i = 0 then none else
  some (if i % 2 = 1 then p.getD i 0 else 0))

/-- CHECK of a flit (R390): CRC-8 over bytes 0 to 255 with byte 15 read as zero. -/
def flitCheck (bs : List Byte) : Nat := crcRun 8 0x07 0 (bs.take 15 ++ [0] ++ (bs.drop 16).take 240)

/-- CHECK of a received flit holds. -/
def checkOk (f : List Byte) : Bool := flitCheck f == (f.getD 15 0).toNat

/-- Positions a byte error of one locator can have: the multiplicative group of GF(2⁸) has 255 elements, so bytes i and i + 255 of the 272 share
one (log entry 35). -/
def rsPlaces (i : Nat) : List Nat := if i < 17 then [i, i + 255] else [i]

/-- All ways to place errors, each a position and a value. -/
def rsChoices : List (Nat × Nat) → List (List (Nat × Nat))
  | [] => [[]]
  | e :: es => (rsPlaces e.1).flatMap (fun i => (rsChoices es).map (fun r => (i, e.2) :: r))

/-- Add error values into a flit. -/
def rsApply (f : List Nat) (es : List (Nat × Nat)) : List Byte :=
  (upTo f.length).map (fun i =>
    BitVec.ofNat 8 (es.foldl (fun v e => if e.1 = i then v ^^^ e.2 else v) (f.getD i 0)))

/-- Correct up to 8 byte errors (R391): the flit and how many bytes were wrong, or none if it is uncorrectable. Where a locator names two
bytes, the placement that makes CHECK hold is taken (log entry 35). -/
def rsCorrect (f : List Byte) : Option (List Byte × Nat) :=
  let v := f.map BitVec.toNat
  let s := rsSyndromes v
  if s.all (· == 0) then some (f, 0)
  else
    let r := rsLocator s
    let om := rsOmega s r.c
    let dv := gfDeriv r.c
    let errs := (upTo 255).filterMap (fun i =>
      let x := gfAlpha (271 - i)
      let xi := gfInv x
      if gfEval r.c xi = 0 then some (i, gfMul x (gfMul (gfEval om xi) (gfInv (gfEval dv xi)))) else none)
    if r.l ≤ 8 ∧ errs.length = r.l then
      let cands := (rsChoices errs).map (rsApply v)
      match (cands.find? checkOk).or cands.head? with
      | some g => if (rsSyndromes (g.map BitVec.toNat)).all (· == 0) then some (g, r.l) else none
      | none => none
    else none

/-- A flit from its header without CHECK and its payload (R387 to R391). -/
def mkFlit (header : Nat) (payload : List Byte) : List Byte :=
  let h := natLe 15 (header % 2 ^ 120)
  let body := h ++ [0] ++ payload
  let b := h ++ [BitVec.ofNat 8 (flitCheck body)] ++ payload
  b ++ rsParity b

/-- A received flit (R391): its first 256 bytes if it is good, and whether the code corrected it. -/
def readFlit (bs : List Byte) : Option (List Byte) × Bool :=
  match rsCorrect bs with
  | none => (none, false)
  | some (f, n) =>
    if checkOk f then (some (f.take 256), decide (0 < n)) else (none, decide (0 < n))

/-- Header fields of R388 of a good flit, as one 128-bit number. -/
def flitHeader (bs : List Byte) : Nat := leNat (bs.take 16)
def hSync (h : Nat) : Nat := fld h 0 32
def hPoison (h : Nat) : Nat := fld h 32 30
def hKind (h : Nat) : Nat := fld h 64 3
def hSub (h : Nat) : Nat := fld h 67 2
def hCredit (h v : Nat) : Nat := fld h (72 + 6 * v) 6

/-- POISON bits of one flit of a packet: the payload words 30n to 30n + 29. -/
def flitPoison (poison : List Nat) (n : Nat) : Nat :=
  (upTo 30).foldl (fun v w => if poison.contains (30 * n + w) then v ||| 2 ^ w else v) 0

/-- Header of a routed head flit (R388), without CHECK. -/
def headHeader (sync : Nat) (p : Packet) : Nat :=
  packFields [32, 30, 1, 1, 3, 22, 22, 3, 2, 4]
    [sync, flitPoison p.poison 0, b2n p.fence, b2n p.esc, p.kind, p.dest, p.src, p.part, p.vc, p.len]

/-- Header of any other flit (R388): HKIND 7, SUB, VC, LAST and CREDIT. -/
def otherHeader (sync poison sub vc : Nat) (last : Bool) (credit : List Nat) : Nat :=
  packFields [32, 30, 2, 3, 2, 2, 1, 6, 6, 6, 6] ([sync, poison, 0, 7, sub, vc, b2n last] ++ credit)

/-- SUB values of R388. -/
def subCont : Nat := 0
def subIdle : Nat := 1
def subCtrl : Nat := 2
def subSched : Nat := 3

/-- The packet that a head flit opens (R388), with the payload of that flit. -/
def headPacket (h : Nat) (payload : List Byte) : Packet :=
  { dest := fld h 67 22, src := fld h 89 22, part := fld h 111 3, kind := hKind h, vc := fld h 114 2, len := fld h 116 4
    fence := h.testBit 62, esc := h.testBit 63, payload := payload
    poison := (upTo 30).filter (fun w => (hPoison h).testBit w) }

/-- A packet with one more flit (R352): poison of its words counted from the words it has. -/
def addFlit (p : Packet) (h : Nat) (payload : List Byte) : Packet :=
  { p with poison := p.poison ++ ((upTo 30).filter (fun w => (hPoison h).testBit w)).map (fun w => p.payload.length / 8 + w)
           payload := p.payload ++ payload }

/-- Lane and lane byte of byte `off` of a slot at a width (R385). -/
def laneOf (width slot off : Nat) : Nat × Nat := ((272 * slot + off) % width, (272 * slot + off) / width)

/-- One bit of the PRBS-31 sequence x³¹ + x²⁸ + 1 (R386): the state after it. -/
def prbs31 (s : Nat) : Nat := ((2 * s) % 2 ^ 31) + ((s / 2 ^ 30 + s / 2 ^ 27) % 2)

/-- Scrambler state of a logical lane at a beat edge (R386). -/
def prbsStart (lane : Nat) : Nat := (0x40000000 + lane) % 2 ^ 31

/-- PAM4 level of a bit pair in Gray order (R386). -/
def pam4 (pair : Nat) : Int := if pair = 0 then -3 else if pair = 1 then -1 else if pair = 3 then 1 else 3

end Sys2Proof.Machine
end

