-- ==== Sys2Proof/Machine/LinkTx.lean ====
section
/-! DEFINITION. What a router's outputs and a link's routed slots send (spec/12 R359, R361, R376, spec/13 R393, R394). -/

namespace Sys2Proof.Machine

/-- Registers of a link end: both ends of a D2D link share those of ports 16 to 19 (R382, R420). -/
def linkReg (e : Nat) : Nat := if 20 ≤ e then e - 4 else e

/-- Die of a link end (R8, R536). -/
def linkDie (e : Nat) : Nat := if e < 16 then e / 4 else if e < 20 then e - 16 else (e - 19) % 4

/-- Router of a link end (R73): V0 to V3 at HB0, HB1, HB4, HB5; the clockwise D2D endpoint at HB7, the other at HB3. -/
def linkRouter (e : Nat) : Nat :=
  256 * linkDie e + (if e < 16 then unitHub (if e % 4 < 2 then e % 4 else e % 4 + 2) else if e < 20 then 28 else 12)

/-- Link end at a router's RIM port, if it has one. -/
def linkAt (router : Nat) : Option Nat := (upTo 24).find? (fun e => linkRouter e == router)

/-- A link end is ACTIVE. -/
def Dev.linkUp (d : Dev) (e : Nat) : Bool := (d.getLink (linkReg e)).regs.state == 3

/-- This beat is held (R56, R59). -/
def Dev.heldNow (d : Dev) : Bool := d.beat.heldBeats.contains d.beat.number

/-- Fields of an allotment entry (R412). -/
def aFirst (e : Nat) : Nat := fld e 0 11
def aCount (e : Nat) : Nat := fld e 11 11
def aPeriod (e : Nat) : Nat := fld e 22 4
def aPhase (e : Nat) : Nat := fld e 26 15
def aDir (e : Nat) : Nat := fld e 41 1

/-- An entry fires on a job beat (R77): (j − PHASE) mod 2^PERIOD = 0. -/
def firesOn (period phase j : Nat) : Bool := decide ((j + 2 ^ 48 - phase) % 2 ^ period = 0)

/-- A link end transmits in direction 0, or receives in it (R411). -/
def txDir (e : Nat) : Nat := if e < 20 then 0 else 1
def rxDir (e : Nat) : Nat := 1 - txDir e

/-- The allotment of a link end claims a slot of this beat in a direction (R411, R412): its partition runs a job, and the beat is not held. -/
def Dev.schedSlot (d : Dev) (e dir slot : Nat) : Bool :=
  let s := (d.getLink e).sched
  match s.allot with
  | none => false
  | some a =>
    let p := d.getPart s.owner
    p.running && !p.job.waitStart && !(p.job.lockstep && d.heldNow)
    && a.txEntries.any (fun x => aDir x == dir && decide (aFirst x ≤ slot) && decide (slot < aFirst x + aCount x)
        && firesOn (aPeriod x) (aPhase x) p.job.jobBeat)

/-- The next routed slot of this beat from a slot on (R389): not a guard slot, not a scheduled one. -/
def Dev.routedSlot (d : Dev) (e : Nat) : Nat → Nat → Option Nat
  | 0, _ => none
  | fuel + 1, slot =>
    if 40 * (d.getLink (linkReg e)).regs.width ≤ slot then none
    else if slot < 8 ∨ d.schedSlot e (txDir e) slot then d.routedSlot e fuel (slot + 1)
    else some slot

/-- CREDIT of a link end (R393). -/
def Dev.creditList (d : Dev) (e : Nat) : List Nat := (upTo 4).map (fun v => tabGet 0 v (d.getLink e).routed.freed)

/-- SYNC of a flit (R337): a vein port's barrier sync field. -/
def Dev.syncOf (d : Dev) (e : Nat) : Nat := if e < 16 then d.syncField e else 0

/-- Put a flit on a link in a slot, with what R393 and R395 keep of it. -/
def Dev.putFlit (d : Dev) (e slot : Nat) (vc : Option Nat) (head : Bool) (header : Nat) (payload : List Byte) : Dev :=
  let bytes := mkFlit header payload
  (d.modLink e (fun l => { l with routed := { l.routed with
    txSlot := slot + 1
    headsRun := if head then l.routed.headsRun + 1 else 0
    told := if head then l.routed.told else l.routed.freed
    record := match vc with
      | some v => l.routed.record ++ [⟨d.beat.number, slot, some v, bytes, 0⟩]
      | none => l.routed.record } })).emit (.flit e slot bytes)

/-- Port index of an output in the counters of R376: a link is port 3. -/
def countPort (out : Nat) : Nat := if 64 ≤ out then 3 else out

/-- Key of the counters of a router's output and VC. -/
def countKey (router out vc : Nat) : Nat := (router * 8 + countPort out) * 4 + vc

/-- A packet joins the queue of an output (R376 CURRENT and MAXIMUM). -/
def Dev.enqueue (d : Dev) (q : QPkt) : Dev :=
  let d := { d with fab.queue := d.fab.queue ++ [q] }
  if q.outPort < 128 then
    d.modPortCnt (countKey q.router q.outPort q.pkt.vc) (fun c =>
      { c with depth := c.depth + q.pkt.len + 1, maxDepth := max c.maxDepth (min 63 (c.depth + q.pkt.len + 1)) })
  else d

/-- The receiver of a link frees buffer entries (R393). -/
def Dev.freeBuffer (d : Dev) (router inPort vc n : Nat) : Dev :=
  if inPort = 3 then
    match linkAt router with
    | some e => d.modLink e (fun l => { l with routed.freed := tabSet 0 vc ((tabGet 0 vc l.routed.freed + n) % 64) l.routed.freed })
    | none => d
  else d

/-- A packet leaves the queue of a router: its input buffer is free, its flits and its wait are counted (R376). -/
def Dev.leave (d : Dev) (q : QPkt) (flits cyc : Nat) : Dev :=
  let d := { d with fab.queue := d.fab.queue.erase q }
  let d := d.freeBuffer q.router q.inPort q.pkt.vc (q.pkt.len + 1)
  if q.outPort < 128 then
    { d.modPortCnt (countKey q.router q.outPort q.pkt.vc) (fun c =>
        { c with flits := wrapAdd 48 c.flits flits, depth := c.depth - (q.pkt.len + 1)
                 stall := wrapAdd 48 c.stall (d.stampAge q.router q.since cyc) }) with
      fab.lastVc := tabSet 0 (q.router * 128 + q.outPort) q.pkt.vc d.fab.lastVc }
  else d

/-- Older first at one output (R361): by the cycle of the head, then input port, then SRC; a packet that has started goes on. -/
def olderPkt (a b : QPkt) : Bool :=
  decide (b.sent < a.sent) || (a.sent == b.sent && (decide (a.since < b.since) || (a.since == b.since &&
    (decide (a.inPort < b.inPort) || (a.inPort == b.inPort && decide (a.pkt.src < b.pkt.src))))))

/-- The packet of one VC that an output serves next. -/
def Dev.headOf (d : Dev) (router out vc : Nat) : Option QPkt :=
  (d.fab.queue.filter (fun q => q.router == router && q.outPort == out && q.pkt.vc == vc && !q.held)).foldl (fun b q =>
    match b with
    | none => some q
    | some x => if olderPkt q x then some q else some x) none

/-- The order in which an output looks at its VCs (R361): VC2, then the others in turn after the one that sent last. -/
def vcOrder (last : Nat) : List Nat := 2 :: (if last = 0 then [1, 3, 0] else if last = 1 then [3, 0, 1] else [0, 1, 3])

/-- The packet that an output serves next among the VCs that are ready (R361). -/
def Dev.nextOf (d : Dev) (router out : Nat) (ready : Nat → Bool) : Option QPkt :=
  (vcOrder (tabGet 0 (router * 128 + out) d.fab.lastVc)).findSome? (fun v => if ready v then d.headOf router out v else none)

/-- Credits left on a VC of a link end (R393). -/
def Dev.creditLeft (d : Dev) (e vc : Nat) : Nat := 32 - tabGet 0 vc (d.getLink e).routed.credits

/-- Send the next flit of a queued packet in a slot. -/
def Dev.sendPart (d : Dev) (e slot : Nat) (q : QPkt) : Dev :=
  let pay := padTo flitPayload ((q.pkt.payload.drop (flitPayload * q.sent)).take flitPayload)
  let v := q.pkt.vc
  let header :=
    if q.sent = 0 then headHeader (d.syncOf e) q.pkt
    else otherHeader (d.syncOf e) (flitPoison q.pkt.poison q.sent) subCont v (decide (q.sent = q.pkt.len)) (d.creditList e)
  let d := d.putFlit e slot (some v) (decide (q.sent = 0)) header pay
  let d := d.modLink e (fun l => { l with routed.credits := tabSet 0 v (tabGet 0 v l.routed.credits + 1) l.routed.credits })
  if q.sent = q.pkt.len then d.leave q (q.pkt.len + 1) 0
  else { d with fab.queue := d.fab.queue.map (fun (x : QPkt) => if x = q then { x with sent := x.sent + 1 } else x) }

/-- Fill one routed slot of a link end by the order of R394; none if there is nothing to send. -/
def Dev.fillSlot (d : Dev) (e slot : Nat) : Option Dev :=
  let r := (d.getLink e).routed
  match r.ctrlOut, r.resend with
  | c :: cs, _ =>
    some ((d.modLink e (fun l => { l with routed.ctrlOut := cs })).putFlit e slot none false
      (otherHeader (d.syncOf e) 0 subCtrl 0 false (d.creditList e)) c)
  | [], f :: fs =>
    some ((d.modLink e (fun l => { l with routed := { l.routed with
      resend := fs, txSlot := slot + 1, record := l.routed.record ++ [{ f with beat := d.beat.number, slot := slot }] } })).emit
        (.flit e slot f.bytes))
  | [], [] =>
    let changed := r.freed != r.told
    match if changed ∧ 16 ≤ r.headsRun then none else d.nextOf (linkRouter e) (64 + e) (fun v => decide (0 < d.creditLeft e v)) with
    | some q => some (d.sendPart e slot q)
    | none =>
      if changed then
        some (d.putFlit e slot none false (otherHeader (d.syncOf e) 0 subIdle 0 false (d.creditList e)) (padTo flitPayload []))
      else none

/-- Fill the routed slots of a link end as far as this beat's slots go. -/
def Dev.pumpEnd (d : Dev) (e : Nat) : Nat → Dev
  | 0 => d
  | fuel + 1 =>
    match d.routedSlot e 1280 (d.getLink e).routed.txSlot with
    | none => d
    | some slot =>
      match d.fillSlot e slot with
      | none => d
      | some d => d.pumpEnd e fuel

/-- Fill the routed slots of every ACTIVE link. -/
def Dev.pumpLinks (d : Dev) : Dev :=
  Dev.each (upTo 24) (fun d e => if d.linkUp e then d.pumpEnd e 1280 else d) d

/-- The endpoint of the mirror engine at a mate port (R560): the hub tile of the port, here and at the peer. -/
def Dev.engineHere (d : Dev) (n : Nat) : Nat := endpointOf d.fab.selfDevice (n / 4) (linkRouter n % 256)
def Dev.engineThere (d : Dev) (n : Nat) : Nat :=
  let l := (d.getLink n).peer
  endpointOf l.device (l.port / 4) (linkRouter l.port % 256)

/-- The engine sends one forwarded write over the mate link as a WRITE on VC0 (R560), and waits for its answer (R367). -/
def Dev.sendForward (d : Dev) (n cyc : Nat) (w : FwdWrite) : Dev :=
  let seq := d.mirror.fwdSeq
  let src := d.engineHere n
  let dest := d.engineThere n
  let part := d.mirror.regs.partition
  let p := mkPacket dest src part 0 0 false (msgHeader w.addr 0 0 w.bytes.length seq 0 0 0) w.bytes
  let r : Req := ⟨src, dest, seq, 0, part, w.addr, w.bytes.length, 0, d.clock.wall, .mirror seq, 0⟩
  let d := { d with mirror.fwdSeq := wrapAdd 16 seq 1, mirror.fwdOpen := d.mirror.fwdOpen ++ [seq], fab.requests := d.fab.requests ++ [r] }
  d.enqueue ⟨linkRouter n, 0, 64 + n, d.stamp cyc, false, 0, p⟩

/-- The engine sends what its buffer holds, up to 1,024 unanswered writes (R560). -/
def Dev.forwardWrites (d : Dev) (cyc : Nat) : Dev :=
  match d.mirror.matePort with
  | none => d
  | some n =>
    let go := d.mirror.fwdQueue.take (1024 - d.mirror.fwdOpen.length)
    let d := { d with mirror.fwdQueue := d.mirror.fwdQueue.drop go.length
                      mirror.fwdBytes := d.mirror.fwdBytes - go.foldl (fun n w => n + w.bytes.length) 0 }
    Dev.each go (fun d w => d.sendForward n cyc w) d

end Sys2Proof.Machine
end

