-- ==== Sys2Proof/Machine/Routed.lean ====
section
/-! DEFINITION. The routed plane (spec/12): lookup, the hub firewall's check of routed packets (spec/15 R484, R485), delivery, multicast,
reduction and timeouts. -/

namespace Sys2Proof.Machine

/-- Die, unit and hub test of a router. -/
def rDie (r : Nat) : Nat := r / 256
def rUnit (r : Nat) : Nat := r % 256
def rHub (r : Nat) : Bool := rUnit r % 4 == 0

/-- Hub key 8p + h of a hub router. -/
def hubKey (r : Nat) : Nat := 8 * rDie r + 4 * (rUnit r / 16) + (rUnit r % 16) / 4

/-- Key of a router's half. -/
def halfOfRouter (r : Nat) : Nat := 2 * rDie r + rUnit r / 16

/-- The router and its input port behind an output port (R72, R81, R355). -/
def ringOrder : List Nat := [0, 4, 8, 12, 28, 24, 20, 16]
def ringPos (u : Nat) : Nat := ringOrder.idxOf u
def nextRouter (r out : Nat) : Option (Nat × Nat) :=
  let u := rUnit r
  let b := 256 * rDie r
  if out = 1 ∧ 4 ≤ u % 16 then some (b + u - 4, 2)
  else if out = 2 ∧ u % 16 < 12 then some (b + u + 4, 1)
  else if out = 3 ∧ 0 < u % 4 then some (b + u - 1, 4)
  else if out = 4 then (if u % 4 < 3 then some (b + u + 1, 3) else some (b + (u ^^^ 16), 4))
  else if out = 5 ∧ u % 4 = 0 then some (b + ringOrder.getD ((ringPos u + 1) % 8) 0, 6)
  else if out = 6 ∧ u % 4 = 0 then some (b + ringOrder.getD ((ringPos u + 7) % 8) 0, 5)
  else none

/-- XY (R355): first along the row, through the Seam if the halves differ, then N or S; 0 at the target. -/
def xyPort (u v : Nat) : Nat :=
  if u / 16 = v / 16 then
    if v % 4 < u % 4 then 3 else if u % 4 < v % 4 then 4
    else if v % 16 / 4 < u % 16 / 4 then 1 else if u % 16 / 4 < v % 16 / 4 then 2 else 0
  else 4

/-- The hub ring (R355, R359): the shorter way, at a distance of 4 the order listed; on VC1 and VC3 never between HB4 and HB0. -/
def ringPort (u v vc : Nat) : Nat :=
  let a := ringPos u
  let b := ringPos v
  if a = b then 0
  else if vc = 1 ∨ vc = 3 then (if a < b then 5 else 6)
  else if (b + 8 - a) % 8 ≤ 4 then 5 else 6

/-- A local endpoint that the capability words report present (R357). -/
def Dev.unitPresent (d : Dev) (e : Nat) : Bool :=
  let p := e / 256
  let u := e % 256
  if u < 32 then
    let i := 4 * (u / 16) + (u % 16) / 4
    if u % 4 = 2 then d.caps.slabOn p i else if u % 4 = 3 then decide (0 < d.caps.namesOf (8 * p + i)) else true
  else if u = 0x20 ∨ u = 0x21 then true else u == 0x22 && (p == 0 || p == 2)

/-- RouteLocal[p][e] (R357): the entry written, or what the capability words give at reset. -/
def Dev.routeLocal (d : Dev) (p e : Nat) : Nat :=
  match d.fab.locals.find? (fun x => x.1 == 1024 * p + e) with
  | some x => x.2
  | none => 0x3FC + b2n (d.unitPresent e)

/-- RouteDevice[n] (R356). -/
def Dev.routeDevice (d : Dev) (n : Nat) : Nat := tabGet 0 n d.fab.device
def dvValid (e : Nat) : Bool := e.testBit 0
def dvPort (e : Nat) : Nat := fld e 1 4
def dvEsc (e : Nat) : Nat := fld e 5 4
def dvMcast (e : Nat) : Bool := e.testBit 9
def dvLocal (e : Nat) : Bool := e.testBit 10
def dvPortB (e : Nat) : Nat := fld e 11 4
def dvBValid (e : Nat) : Bool := e.testBit 15
def dvHops (e : Nat) : Nat := fld e 16 8

/-- Where a packet goes next. -/
inductive Hop where
  | out (port : Nat)
  | drop
deriving DecidableEq, Repr

/-- Towards another hub of the die (R355): XY from a tile of the die, the hub ring from a port. -/
def hubStep (u v inPort vc : Nat) : Hop :=
  .out (if inPort = 3 ∨ inPort = 5 ∨ inPort = 6 then ringPort u v vc else xyPort u v)

/-- Next die on the way to another one (R357): a neighbour directly, the diagonal by DIR; on VC1 and VC3 never over the link P3–P0. -/
def nextDie (p q vc : Nat) (dir : Bool) : Nat :=
  if vc = 1 ∨ vc = 3 then (if p < q then p + 1 else p - 1)
  else if (q + 4 - p) % 4 = 1 then (p + 1) % 4
  else if (q + 4 - p) % 4 = 3 then (p + 3) % 4
  else if dir then (p + 3) % 4 else (p + 1) % 4

/-- Leave the die towards another die of the package (R355, R536). -/
def dieStep (r q inPort vc : Nat) (dir : Bool) : Hop :=
  let p := rDie r
  let n := nextDie p q vc dir
  let (hub, e) := if n = (p + 1) % 4 then (28, 16 + p) else (12, 20 + (p + 3) % 4)
  if rUnit r = hub then .out (64 + e) else hubStep (rUnit r) hub inPort vc

/-- Lookup at a router (R355 to R357). A packet that comes to a tile from its row's hub is on its way to a hub of the other half and goes on along
the row (DEDUCED). A packet to another device leaves by a vein port only once RouteSelf is set (R351). -/
def Dev.route (d : Dev) (r inPort : Nat) (p : Packet) : Hop :=
  let die := rDie r
  let u := rUnit r
  let own := epDevice p.dest == d.fab.selfDevice
  let t := epUnit p.dest
  if !rHub r then
    if own ∧ epDie p.dest = die ∧ t < 32 then .out (xyPort u t) else .out (if inPort = 3 then 4 else xyPort u (u - u % 4))
  else if own then
    let e := d.routeLocal die (p.dest % 1024)
    if !e.testBit 0 ∨ !e.testBit (2 + p.part) then .drop
    else if epDie p.dest = die then .out (xyPort u (if t < 32 then t else if t = 0x22 then 8 else 12))
    else dieStep r (epDie p.dest) inPort p.vc (e.testBit 1)
  else
    let e := d.routeDevice (epDevice p.dest)
    if !dvValid e ∨ !d.fab.selfValid then .drop
    else
      let n := if p.vc = 1 ∨ p.vc = 3 then dvEsc e else dvPort e
      let hub := rUnit (linkRouter n)
      if n / 4 = die then (if u = hub then .out (64 + n) else hubStep u hub inPort p.vc)
      else dieStep r (n / 4) inPort p.vc ((d.routeLocal die (256 * (n / 4) + hub)).testBit 1)

/-- The features a packet needs on a link (R400, R401). -/
def linkCarries (features : Nat) (p : Packet) : Bool :=
  (p.kind != 6 || (if pFmt p = 2 then features.testBit 2 else features.testBit 1))
  && (!(pMcast p && (p.kind == 0 || p.kind == 4)) || features.testBit 3)

/-- The message header has the layout of R353. -/
def formatOk (p : Packet) : Bool :=
  if p.kind = 5 then
    decide (fld (p.payload.getD 3 0).toNat 4 4 = 0) && (p.payload.drop 4).all (· == 0)
  else
    let req := p.kind == 0 || p.kind == 1 || p.kind == 4 || p.kind == 6
    decide (p.kind ≤ 6) && decide (p.len ≤ 15) && decide (pFlags p < 8)
    && decide (pSigIndex p < 1024)
    && (!(p.kind == 0 || p.kind == 1 || p.kind == 6 || p.kind == 2) || (decide (1 ≤ pBytes p) && decide (pBytes p ≤ maxData)))
    && (!(p.kind == 0 || p.kind == 2 || p.kind == 6) || decide (lenOf (pBytes p) = p.len))
    && (!(p.kind == 1 || p.kind == 3 || p.kind == 4) || p.len == 0)
    && (req || pAddr p == 0) && (p.kind != 4 || pAddr p == 0)
    && (req || decide (pInc p ≤ 2))
    && (!(p.kind == 4 || (p.kind == 0 && pSig p)) || decide (1 ≤ pInc p))
    && (if p.kind = 6 then pFmt p == 0 || pFmt p == 2 else pFmt p == 0)
    && (p.kind == 6 || pMcast p || pGroup p == 0)

/-- DATA or ACK of a packet with a status (R353, R366); a blocked read returns poisoned words (R485). -/
def answerTo (p : Packet) (status : Nat) (data : List PByte) : Packet :=
  let vc := if p.vc = 2 then 2 else 1
  let hdr := msgHeader 0 0 0 data.length (pTag p) 0 status 0
  mkPacket p.src p.dest p.part (if p.kind = 1 then 2 else 3) vc false hdr data

/-- Bytes that a READ which is not served returns: every word poisoned. -/
def poisonBytes (n : Nat) : List PByte := List.replicate n ⟨0, true⟩

/-- A request that is turned away is answered with a status (R358, R366, R485); multicast copies are never answered (R371). -/
def Dev.refuse (d : Dev) (r cyc : Nat) (p : Packet) (status : Nat) : Dev :=
  if (p.kind = 0 ∨ p.kind = 1 ∨ p.kind = 4 ∨ p.kind = 6) ∧ !pNoAnswer p then
    let a := answerTo p status (if p.kind = 1 then poisonBytes (pBytes p) else [])
    if d.route r 0 a = .drop then d else d.inject r cyc a
  else d

/-- EV_FIREWALL_BLOCK (R485): once per beat per hub per cause, naming the first blocked access. -/
def Dev.firewallEv (d : Dev) (r cause row addr src part : Nat) : Dev :=
  d.raiseOnce { code := evFirewall, cause := cause, sev := 1, die := rDie r, addr := addr, endpoint := src
                index := part + 256 * row, key := 1 + r }

/-- A packet without a route (R358): counted, reported once per beat per hub, and refused. -/
def Dev.noRoute (d : Dev) (r cyc : Nat) (p : Packet) : Dev :=
  (((d.modDrop r (fun c => { c with noRoute := satAdd 16 c.noRoute 1 })).firewallEv r 2 2 (pAddr p) p.src p.part)).refuse r cyc p 1

/-- Partition that holds a place (R484). -/
def Dev.ownerOfPlace (d : Dev) : Place → Option Nat
  | .quarry p n _ | .store p n _ | .cluster p n _ => d.holder (2 * p + n / 4)
  | .hbm p n _ => some (d.getRegion (16 * p + n)).partition
  | _ => none

/-- A packet is a forwarded write or a copy from the mirror peer (R560, R561): a WRITE into a mirrored range, from a hub of the peer's device, to a hub of
this one, which is the side that receives. -/
def Dev.fwdPacket (d : Dev) (p : Packet) : Bool :=
  let m := d.mirror.regs
  p.kind == 0 && m.mode != 0 && m.holds (pAddr p) && !pSig p && (if m.mode = 2 then m.side == 1 else m.state != 4 && !(d.getPart m.partition).running)
    && (match d.mirror.matePort with | some n => (d.getLink n).peer.deviceValid && (d.getLink n).peer.device == epDevice p.src | none => false)
    && decide (epUnit p.src < 32 ∧ epUnit p.src % 4 = 0 ∧ epUnit p.dest < 32 ∧ epUnit p.dest % 4 = 0)

/-- A write into a mirrored range while a LOCKSTEP pair runs a job (R559), or on the STANDBY of a SHADOW pair (R560). -/
def Dev.mirrorBlocks (d : Dev) (a : Nat) : Bool :=
  let m := d.mirror.regs
  m.holds a && ((m.mode == 1 && (d.getPart m.partition).running) || (m.mode == 2 && m.side == 1))

/-- What partition n may not do with the n bytes at an address (R484): the cause, or 0. -/
def Dev.partitionCause (d : Dev) (part a n : Nat) (write : Bool) : Nat :=
  let one := fun x => match d.locate x with
    | .unmapped => 1
    | .mmio _ _ => 3
    | pl => if d.ownerOfPlace pl = some part ∧ (d.getPart part).live then (if write ∧ d.mirrorBlocks x then 4 else 0) else 5
  if one a ≠ 0 then one a else one (a + n - 1)

/-- Cause with which the hub firewall blocks a packet that enters a die through a port, or 0 (R484). -/
def Dev.firewallCause (d : Dev) (p : Packet) : Nat :=
  let sigBad : Bool := match cairnOfUnit (epUnit p.dest) with
    | some t => d.cairnOwner (16 * epDie p.dest + t) (pSigIndex p) != some p.part
    | none => true
  if d.fwdPacket p then 0
  else if p.kind = 0 ∨ p.kind = 6 then
    let c := d.partitionCause p.part (pAddr p) (pBytes p) true
    if c ≠ 0 then c else if pSig p ∧ sigBad then 5 else 0
  else if p.kind = 1 then d.partitionCause p.part (pAddr p) (pBytes p) false
  else if p.kind = 4 then (if sigBad then 5 else 0)
  else 0

/-- An answer that this device waits for (R484). -/
def Dev.awaited (d : Dev) (p : Packet) : Bool :=
  d.fab.requests.any (fun r => r.src == p.dest && r.tag == pTag p)
  || d.cairn.signals.any (fun s => s.tag == pTag p && endpointOf d.fab.selfDevice (dieOfTile s.tile) (unitOfTile s.tile) == p.dest)

/-- A ROUTE_TABLE_SET change covers the lookup of a packet at a hub (R375). -/
def Dev.usesChanged (d : Dev) (c : RouteChange) (die : Nat) (dest kind group : Nat) : Bool :=
  let inRange := fun n => decide (c.first ≤ n) && decide (n < c.first + c.values.length)
  if c.table = 0 then epDevice dest != d.fab.selfDevice && inRange (epDevice dest)
  else if c.table = 1 then epDevice dest == d.fab.selfDevice && die == c.sel && inRange (dest % 1024)
  else kind == 6 && (upTo 16).any (fun i => inRange i && fld (tabGet 0 ((c.sel * 16 + i) * 8) d.fab.reduce) 1 8 == group)

/-- Queue a packet at the output its lookup gives, or discard it (R355, R358, R401). -/
def Dev.forward (d : Dev) (r inPort cyc : Nat) (p : Packet) : Dev :=
  match d.route r inPort p with
  | .drop => (d.freeBuffer r inPort p.vc (p.len + 1)).noRoute r cyc p
  | .out o =>
    if 64 ≤ o ∧ !linkCarries (d.getLink (linkReg (o - 64))).peer.features p then
      (d.freeBuffer r inPort p.vc (p.len + 1)).noRoute r cyc p
    else
      let new := rHub r && (inPort != 3 && inPort != 5 && inPort != 6)
      match d.fab.change with
      | some c =>
        if new ∧ d.usesChanged c (rDie r) p.dest p.kind (pGroup p) then
          { d with fab.change := some { c with held := c.held ++ [⟨r, inPort, atInput, d.stamp cyc, true, 0, p⟩] } }
        else d.enqueue ⟨r, inPort, o, d.stamp cyc, false, 0, p⟩
      | none => d.enqueue ⟨r, inPort, o, d.stamp cyc, false, 0, p⟩

/-- Words of ReduceGroup[p][h][i] (R372). -/
def Dev.reduceWord (d : Dev) (hub i w : Nat) : Nat := tabGet 0 ((hub * 16 + i) * 8 + w) d.fab.reduce
def Dev.reduceSlots (d : Dev) (hub i : Nat) : Nat := fld (d.reduceWord hub i 0) 10 3 + 1
def Dev.slotSrc (d : Dev) (hub i k : Nat) : Nat := fld (d.reduceWord hub i (1 + k / 2)) (32 * (k % 2)) 22

/-- The valid entry of a hub for a group (R372). -/
def Dev.reduceEntry (d : Dev) (hub group : Nat) : Option Nat :=
  (upTo 16).find? (fun i => (d.reduceWord hub i 0).testBit 0 && fld (d.reduceWord hub i 0) 1 8 == group)

/-- The slot that a source fills at a node. -/
def Dev.slotOf (d : Dev) (hub i src : Nat) : Option Nat :=
  (upTo (d.reduceSlots hub i)).find? (fun k => d.slotSrc hub i k == src)

/-- The entry and slot of a REDUCE that is held at a hub (R372). -/
def Dev.nodeSlot (d : Dev) (r : Nat) (p : Packet) : Option (Nat × Nat) :=
  if rHub r ∧ p.kind = 6 then
    match d.reduceEntry (hubKey r) (pGroup p) with
    | some i => if (d.reduceWord (hubKey r) i 0).testBit 9 then (d.slotOf (hubKey r) i p.src).map (fun k => (i, k)) else none
    | none => none
  else none

/-- The home hub fills DEST of a REDUCE from a tile in its row (R372); none if it has no valid entry for the group. -/
def Dev.fillDest (d : Dev) (r : Nat) (p : Packet) : Option Packet :=
  match d.reduceEntry (hubKey r) (pGroup p) with
  | none => none
  | some i =>
    let dev := fld (d.reduceWord (hubKey r) i 0) 13 12
    let (die, u) := (d.unitOfDpa (pAddr p)).getD (fld (pAddr p) 46 2, 0x20)
    some { p with dest := endpointOf dev die u }

/-- A REDUCE fresh from a source tile: it is addressed to its home hub. -/
def Dev.reduceFresh (d : Dev) (r inPort : Nat) (p : Packet) : Bool :=
  p.kind == 6 && rHub r && inPort != 3 && inPort != 5 && inPort != 6
  && p.dest == endpointOf d.fab.selfDevice (rDie r) (rUnit r) && p.src / 256 == p.dest / 256
  && homeHubOf (256 * rDie r + epUnit p.src) == r && (d.nodeSlot r p).isNone

/-- A copy of a packet with GROUP set (R370). -/
def setGroup (p : Packet) (g : Nat) : Packet := { p with payload := p.payload.take 7 ++ [BitVec.ofNat 8 g] ++ p.payload.drop 8 }

/-- A copy of a packet with FLAGS bit 1 cleared: it goes no further. -/
def lastCopy (p : Packet) : Packet :=
  { p with payload := p.payload.take 6 ++ [BitVec.ofNat 8 (pFlags p - (if pMcast p then 2 else 0))] ++ p.payload.drop 7 }

/-- One copy of a device multicast at the vein port it leaves by (R370; log entry 36). -/
def Dev.lineCopy (d : Dev) (n cyc : Nat) (p : Packet) : Dev :=
  if linkCarries (d.getLink n).peer.features p then d.enqueue ⟨linkRouter n, 0, 64 + n, d.stamp cyc, false, 0, p⟩
  else d.modDrop (linkRouter n) (fun c => { c with noRoute := satAdd 16 c.noRoute 1 })

/-- Local delivery of a line copy (R370): to the local endpoint of DEST, through the firewall. -/
def Dev.lineLocal (d : Dev) (r cyc : Nat) (p : Packet) (check : Bool) : Dev :=
  let q := lastCopy { p with dest := d.fab.selfDevice * 1024 + p.dest % 1024 }
  let c := if check then d.firewallCause q else 0
  if c ≠ 0 then d.firewallEv r c 2 (pAddr q) q.src q.part
  else d.inject (routerOf q.dest) cyc q

/-- A multicast packet to a line at a hub (R370): from a tile of the device, or in on a line port. -/
def Dev.lineArrive (d : Dev) (r inPort cyc : Nat) (p : Packet) : Dev :=
  let e := d.routeDevice (epDevice p.dest)
  let drop := fun (d : Dev) => d.modDrop r (fun c => { c with noRoute := satAdd 16 c.noRoute 1 })
  let viaLink := inPort == 3
  let d := d.freeBuffer r inPort p.vc (p.len + 1)
  if !dvValid e ∨ !d.fab.selfValid then drop d
  else if !viaLink then
    let d := if dvLocal e then d.lineLocal r cyc p false else d
    let d := d.lineCopy (dvPort e) cyc (setGroup p (dvHops e))
    if dvBValid e then d.lineCopy (dvPortB e) cyc (setGroup p (dvHops e)) else d
  else
    match linkAt r with
    | none => drop d
    | some n =>
      if n ≠ dvPort e ∧ !(dvBValid e ∧ n = dvPortB e) then drop d
      else
        let d := if dvLocal e then d.lineLocal r cyc p true else d
        let g := pGroup p - 1
        let other := if n = dvPort e then (if dvBValid e then some (dvPortB e) else none) else some (dvPort e)
        match other with
        | some m => if 0 < g then d.lineCopy m cyc (setGroup p g) else d
        | none => d

/-- A packet at a router's input is looked up, checked and queued (R351, R353, R355, R358, R370, R372, R484). -/
def Dev.arrivePkt (d : Dev) (r inPort cyc : Nat) (p : Packet) : Dev :=
  let link := if inPort = 3 then linkAt r else none
  let free := fun (d : Dev) => d.freeBuffer r inPort p.vc (p.len + 1)
  if !formatOk p then free (d.modDrop r (fun c => { c with format := satAdd 16 c.format 1 }))
  else if link.any (fun e => decide (e < 16)) ∧ !d.fab.selfValid then free d
  else if rHub r ∧ 0xF00 ≤ epDevice p.dest then d.lineArrive r inPort cyc p
  else if d.reduceFresh r inPort p then
    match d.fillDest r p with
    | some q => d.forward r inPort cyc q
    | none => (free d).noRoute r cyc p
  else
    let here := epDevice p.dest == d.fab.selfDevice && epDie p.dest == rDie r
    let admitted := link.any (fun e => decide (16 ≤ e)) && epDevice p.src == d.fab.selfDevice && decide (32 ≤ epUnit p.src)
    if link.isSome ∧ epDevice p.dest = d.fab.selfDevice ∧ (p.kind = 2 ∨ p.kind = 3) ∧ !d.awaited p then
      free (d.modDrop r (fun c => { c with late := satAdd 16 c.late 1 }))
    else
      let c := if link.isSome && here && !admitted then d.firewallCause p else 0
      if c ≠ 0 then (free (d.firewallEv r c 2 (pAddr p) p.src p.part)).refuse r cyc p 1
      else if (d.nodeSlot r p).isSome then d.enqueue ⟨r, inPort, 0, d.stamp cyc, false, 0, p⟩
      else d.forward r inPort cyc p

/-- Flits that an input buffer holds on a VC (R359). -/
def Dev.bufferUse (d : Dev) (r inPort vc : Nat) : Nat :=
  (d.fab.queue.filter (fun q => q.router == r && q.inPort == inPort && q.pkt.vc == vc)).foldl (fun n q => n + q.pkt.len + 1) 0

/-- The Seam crossing of an output takes routed packets (R89). -/
def Dev.seamOpen (d : Dev) (r out : Nat) : Bool := !(out == 4 && rUnit r % 4 == 3) || (d.getSeam (rDie r)).mode != 2

/-- The queue entry that a packet arriving at a router and input port comes from. -/
def Dev.upstream (d : Dev) (r inPort : Nat) (p : Packet) : Option QPkt :=
  d.fab.queue.find? (fun q => q.pkt == p &&
    ((q.router == r && q.outPort == atInput && q.inPort == inPort) || nextRouter q.router q.outPort == some (r, inPort)))

/-- R355: a packet reaches a router. One that waited at the router before leaves it now, if its output grants it (R361) and this router's buffer
has room (R359); one at this router's input is looked up. -/
def routedPacketArrive (router inPort cyc : Nat) (p : Packet) (d : Dev) : Dev :=
  match d.upstream router inPort p with
  | none => (d.arrivePkt router inPort cyc p).pumpLinks
  | some q =>
    if q.outPort = atInput then
      (({ d with fab.queue := d.fab.queue.erase q }).arrivePkt router inPort cyc p).pumpLinks
    else
      let room := fun v => decide (d.bufferUse router inPort v < 8)
      d.gate (d.nextOf q.router q.outPort room == some q && d.seamOpen q.router q.outPort) (fun d =>
        ((d.leave q (p.len + 1) cyc).arrivePkt router inPort cyc p).pumpLinks)

def execRoutedPacketArrive (router inPort cyc : Nat) (p : Packet) (s : State) : Host.Outcome State Fault Refusal :=
  s.live (routedPacketArrive router inPort cyc p)

/-- A delivered packet leaves its router's queue, if it waits there. -/
def Dev.takeLocal (d : Dev) (r cyc : Nat) (p : Packet) : Dev :=
  match d.fab.queue.find? (fun q => q.pkt == p && q.router == r && q.outPort == 0) with
  | some q => d.leave q (p.len + 1) cyc
  | none => d

/-- Tiles that an on-die multicast reaches besides the addressed one (R369). -/
def Dev.mcastTiles (d : Dev) (p : Packet) : List Nat :=
  let u := epUnit p.dest
  let all := if pRow p then [u ^^^ 16] else (upTo 4).map (fun r => 16 * (u / 16) + 4 * r + u % 4)
  all.filter (fun v => v != u && d.unitPresent (256 * epDie p.dest + v))

/-- The same tile-local offset in another tile of a kind (R369). -/
def Dev.sameOffset (d : Dev) (a u : Nat) : Option Nat :=
  let i := 4 * (u / 16) + (u % 16) / 4
  match d.locate a with
  | .quarry p _ off => some (dpaQuarry p i off)
  | .store p _ off => some (dpaStore p i off)
  | .cluster p _ off => some (dpaCluster p i off)
  | _ => none

/-- The copies of an on-die multicast leave its addressed tile (R369). -/
def Dev.spread (d : Dev) (r cyc : Nat) (p : Packet) : Dev :=
  if !pMcast p then d
  else Dev.each (d.mcastTiles p) (fun d v =>
    let q := lastCopy { p with dest := p.dest - epUnit p.dest + v }
    if p.kind = 4 then d.inject r cyc q
    else match d.sameOffset (pAddr p) v with
      | some a => d.inject r cyc { q with payload := natLe 6 a ++ q.payload.drop 6 }
      | none => d) d

/-- A routed signal at the tile of its DEST applies on port 2 at a cycle (R323, R328). -/
def Dev.signalAt (d : Dev) (p : Packet) (t : Nat) : Dev :=
  match cairnOfUnit (epUnit p.dest) with
  | some c => d.routedSignal (16 * epDie p.dest + c) (pSigIndex p) (pInc p) p.src t
  | none => d

/-- A delivered request is answered (R366); multicast copies are not (R371). -/
def Dev.answerOk (d : Dev) (r cyc : Nat) (p : Packet) (status : Nat) (data : List PByte) : Dev :=
  if pNoAnswer p then d else d.inject r cyc (answerTo p status data)

/-- A delivery takes place where its kind and DEST say. -/
def deliverable (kind router : Nat) (p : Packet) : Bool := p.kind == kind && routerOf p.dest == router && formatOk p

/-- R307, R366, R329, R369: a WRITE is written, once its HBM channel serves it; its signal applies in the cycle after, and an ACK leaves. -/
def write (router cyc : Nat) (p : Packet) (d : Dev) : Dev :=
  d.gate (deliverable 0 router p && !d.hbmWaits (pAddr p) && !d.fwdPacket p) (fun d =>
    let t := d.now (halfOfRouter router) cyc
    let d := (d.takeLocal router cyc p).writeMem (pAddr p) (pData p) .other
    let d := if pSig p then d.signalAt p (t + 1) else d
    ((d.spread router cyc p).answerOk router cyc p 0 []).pumpLinks)

def execWrite (router cyc : Nat) (p : Packet) (s : State) : Host.Outcome State Fault Refusal := s.live (write router cyc p)

/-- R307, R366: a READ is served, once its HBM channel serves it, with DATA of the bytes requested. -/
def read (router cyc : Nat) (p : Packet) (d : Dev) : Dev :=
  d.gate (deliverable 1 router p && !d.hbmWaits (pAddr p)) (fun d =>
    let r := (d.takeLocal router cyc p).readMem (pAddr p) (pBytes p)
    (r.2.answerOk router cyc p 0 r.1).pumpLinks)

def execRead (router cyc : Nat) (p : Packet) (s : State) : Host.Outcome State Fault Refusal := s.live (read router cyc p)

/-- The request that an answer belongs to. -/
def Dev.requestOf (d : Dev) (p : Packet) : Option Req :=
  d.fab.requests.find? (fun r => r.src == p.dest && r.tag == pTag p && (r.kind == 1) == (p.kind == 2))

/-- R366, R367: DATA fills the bank or memory that waits; a late answer is discarded and counted. -/
def data (router cyc : Nat) (p : Packet) (d : Dev) : Dev :=
  d.gate (deliverable 2 router p) (fun d =>
    let d := d.takeLocal router cyc p
    (match d.requestOf p with
      | some r => d.answered r (pData p) false
      | none => d.modDrop router (fun c => { c with late := satAdd 16 c.late 1 })).pumpLinks)

def execData (router cyc : Nat) (p : Packet) (s : State) : Host.Outcome State Fault Refusal := s.live (data router cyc p)

/-- R332, R366: an ACK answers a WRITE, a REDUCE or a signal, whatever its status; a late one is discarded and counted. -/
def ack (router cyc : Nat) (p : Packet) (d : Dev) : Dev :=
  d.gate (deliverable 3 router p) (fun d =>
    let d := d.takeLocal router cyc p
    (match d.requestOf p with
      | some r => (d.answered r [] false).forwardWrites cyc
      | none =>
        match d.cairn.signals.find? (fun (s : OpenSignal) => s.tag == pTag p
            && endpointOf d.fab.selfDevice (dieOfTile s.tile) (unitOfTile s.tile) == p.dest) with
        | some s =>
          (({ d with cairn.signals := d.cairn.signals.filter (fun x => x.tag != s.tag) }).sendSignals s.tile).freeSources
        | none => d.modDrop router (fun c => { c with late := satAdd 16 c.late 1 })).pumpLinks)

def execAck (router cyc : Nat) (p : Packet) (s : State) : Host.Outcome State Fault Refusal := s.live (ack router cyc p)

/-- R328, R331, R366: a SIGNAL applies on port 2, or is discarded where no bound context owns the cairn; either is acknowledged. -/
def signal (router cyc : Nat) (p : Packet) (d : Dev) : Dev :=
  d.gate (deliverable 4 router p) (fun d =>
    let t := d.now (halfOfRouter router) cyc
    let owned := match cairnOfUnit (epUnit p.dest) with
      | some c => (d.cairnOwner (16 * epDie p.dest + c) (pSigIndex p)).isSome
      | none => false
    let d := (d.takeLocal router cyc p).signalAt p t
    ((d.spread router cyc p).answerOk router cyc p (if owned then 0 else 2) []).pumpLinks)

def execSignal (router cyc : Nat) (p : Packet) (s : State) : Host.Outcome State Fault Refusal := s.live (signal router cyc p)

/-- Element size of a reduction format (R353). -/
def redSize (fmt : Nat) : Nat := if fmt = 2 then 2 else 4

/-- One rounded addition of a reduction (R373). -/
def redAdd (fmt a b : Nat) : Nat :=
  let l := if fmt = 2 then bf16 else fp32
  (l.roundInf .rne (Val.add (l.decode a) (l.decode b))).code

/-- Sum of the slots of a node, element by element in slot order (R373), with the poison of any slot's word. -/
def redSum (ps : List Packet) : List PByte :=
  match ps with
  | [] => []
  | p :: rest =>
    let sz := redSize (pFmt p)
    let n := pBytes p
    if rest.any (fun q => pFmt q != pFmt p || pBytes q != n) ∨ n % sz ≠ 0 then poisonBytes n
    else
      let vals := (upTo (n / sz)).flatMap (fun i =>
        natLe sz (rest.foldl (fun a q => redAdd (pFmt p) a (leAt q.payload (16 + sz * i) sz)) (leAt p.payload (16 + sz * i) sz)))
      (upTo n).map (fun i => ⟨vals.getD i 0, ps.any (fun q => q.poison.contains ((16 + i) / 8))⟩)

/-- The mismatch that poisons a node's whole output (R373). -/
def redMismatch (ps : List Packet) : Bool :=
  match ps with
  | [] => false
  | p :: rest => rest.any (fun q => pFmt q != pFmt p || pBytes q != pBytes p) || pBytes p % redSize (pFmt p) != 0

/-- EV_POISON_DELIVERED raised by a tile (R569). -/
def evTilePoison (die unit cause : Nat) : Ev := { code := evPoison, cause := cause, sev := 2, die := die, cls := 1, idx := unit }

/-- A node sends its output and answers the filled slots (R373, R374). -/
def Dev.nodeSend (d : Dev) (r cyc : Nat) (n : RedNode) (out : List PByte) : Dev :=
  match n.slots with
  | [] => d
  | (_, p) :: _ =>
    let src := endpointOf d.fab.selfDevice (rDie r) (rUnit r)
    let hdr := msgHeader (pAddr p) 0 (pGroup p) out.length (pTag p) 0 0 (pFmt p)
    let q := mkPacket p.dest src p.part 6 1 false hdr out
    let d := d.request ⟨src, p.dest, pTag p, 6, p.part, pAddr p, out.length, pGroup p, d.clock.wall, .bedrock, 0⟩ cyc q
    Dev.each n.slots (fun d s => d.inject r cyc (answerTo s.2 0 [])) d

/-- R372 to R374: a REDUCE fills its slot at a node, which sums and forwards once every slot of its TAG is filled; at DEST it is written as a
WRITE and acknowledged. -/
def reduce (router cyc : Nat) (p : Packet) (d : Dev) : Dev :=
  match d.nodeSlot router p with
  | some (i, k) =>
    let hub := hubKey router
    let mine := d.fab.nodes.filter (fun n => n.hub == hub && n.entry == i)
    if d.fab.closedTags.contains (hub, pGroup p, pTag p) then
      ((d.takeLocal router cyc p).inject router cyc (answerTo p 0 [])).pumpLinks
    else
      d.gate (formatOk p && decide ((mine.filter (fun n => n.tag != pTag p && n.slots.any (fun s => s.1 == k))).length < 2)) (fun d =>
        let d := d.takeLocal router cyc p
        let old := (mine.find? (fun n => n.tag == pTag p)).getD ⟨hub, i, pGroup p, pTag p, p.part, d.clock.wall, []⟩
        let node := { old with slots := tabInsert k p old.slots }
        let others := d.fab.nodes.filter (fun n => !(n.hub == hub && n.entry == i && n.tag == pTag p))
        if node.slots.length < d.reduceSlots hub i then { d with fab.nodes := others ++ [node] }.pumpLinks
        else
          let ps := node.slots.map (·.2)
          let d := { d with fab.nodes := others }
          let d := if redMismatch ps then d.raise (evTilePoison (rDie router) (rUnit router) 7) else d
          (d.nodeSend router cyc node (redSum ps)).pumpLinks)
  | none =>
    d.gate (deliverable 6 router p && !d.hbmWaits (pAddr p)) (fun d =>
      (((d.takeLocal router cyc p).writeMem (pAddr p) (pData p) .other).answerOk router cyc p 0 []).pumpLinks)

def execReduce (router cyc : Nat) (p : Packet) (s : State) : Host.Outcome State Fault Refusal := s.live (reduce router cyc p)

/-- R374: a TAG with empty slots times out: its output goes with every word poisoned, the filled slots are answered, and later arrivals of the TAG
are answered and discarded. -/
def reduceTagTimeout (hub group tag : Nat) (d : Dev) : Dev :=
  match d.fab.nodes.find? (fun n => n.hub == hub && n.group == group && n.tag == tag) with
  | none => d
  | some n =>
    d.gate (d.due n.since (1000 * (d.getPartFab n.part).timeoutUs)) (fun d =>
      let r := 256 * (hub / 8) + unitHub (hub % 8)
      let size := match n.slots with
        | (_, p) :: _ => pBytes p
        | [] => 0
      let d := { d with fab.nodes := d.fab.nodes.erase n, fab.closedTags := d.fab.closedTags ++ [(hub, group, tag)] }
      ((d.nodeSend r 0 n (poisonBytes size)).raise (evTilePoison (rDie r) (rUnit r) 8)).pumpLinks)

def execReduceTagTimeout (hub group tag : Nat) (s : State) : Host.Outcome State Fault Refusal :=
  s.live (reduceTagTimeout hub group tag)

/-- R367: a request without an answer times out: a READ delivers poisoned bytes, a WRITE or REDUCE counts as complete. -/
def routedTimeout (tag : Nat) (d : Dev) : Dev :=
  match d.fab.requests.find? (fun r => r.tag == tag && d.due r.since (1000 * (d.getPartFab r.part).timeoutUs)
      && !d.fab.queue.any (fun q => q.outPort == atSource && q.pkt.src == r.src && pTag q.pkt == r.tag)) with
  | none => d
  | some r =>
    let d := d.raise { evTilePoison (epDie r.src) (epUnit r.src) 6 with endpoint := r.dest, addr := r.addr, partition := r.part }
    (d.answered r (poisonBytes (if r.kind = 1 then r.bytes else 0)) true).pumpLinks

def execRoutedTimeout (tag : Nat) (s : State) : Host.Outcome State Fault Refusal := s.live (routedTimeout tag)

/-- R360: the head that has waited 256 cycles at an input moves whole to VC3 with ESC, or an ACK of VC2 to VC1, when the next hop has room for its
first flit; it follows the escape route from here. -/
def escapeTimer (router inPort vc cyc : Nat) (d : Dev) : Dev :=
  match d.fab.queue.find? (fun q => q.router == router && q.inPort == inPort && q.pkt.vc == vc && decide (q.outPort < 128)) with
  | none => d
  | some q =>
    let p := if vc = 2 ∧ q.pkt.kind = 3 then { q.pkt with vc := 1 } else { q.pkt with vc := 3, esc := true }
    match d.route router inPort p with
    | .drop => d
    | .out o =>
      let room :=
        if o = 0 then true
        else if 64 ≤ o then decide (0 < d.creditLeft (o - 64) p.vc)
        else match nextRouter router o with
          | some (r, i) => decide (d.bufferUse r i p.vc < 8)
          | none => false
      d.gate ((vc == 0 || vc == 2) && q.sent == 0 && decide (256 ≤ d.stampAge router q.since cyc) && room) (fun d =>
        let d := { d with fab.queue := d.fab.queue.erase q }
        let d := d.modPortCnt (countKey router q.outPort vc) (fun c => { c with depth := c.depth - (p.len + 1) })
        let d := (d.freeBuffer router inPort vc (p.len + 1)).freeBuffer router inPort p.vc (63 - p.len)
        (d.enqueue { q with outPort := o, pkt := p }).pumpLinks)

def execEscapeTimer (router inPort vc cyc : Nat) (s : State) : Host.Outcome State Fault Refusal :=
  s.live (escapeTimer router inPort vc cyc)

end Sys2Proof.Machine
end

