-- ==== Sys2Proof/Machine/Beat.lean ====
section
/-! DEFINITION. The beat (spec/02 R42 to R65): headers received, alignment, joining, loss of beat, BEAT_IN and hold requests. What happens at a beat edge is
in Machine/Edge.lean. Times are in units of 15.625 ps: 64 to the nanosecond, 10 to a fine-phase step. -/

namespace Sys2Proof.Machine

/-- BeatStatus.STATE values (R68). -/
def bsNone : Nat := 0
def bsSearching : Nat := 1
def bsAligning : Nat := 2
def bsLocked : Nat := 3
def bsLost : Nat := 4
def bsMaster : Nat := 5

/-- Latency ceiling of a parent port (R49): 544 ns. -/
def maxLatency : Nat := 34816

/-- A port is enabled in BeatPortMask (R67). -/
def Dev.portListens (d : Dev) (n : Nat) : Bool :=
  if n < 16 then d.beat.maskVein.testBit n else d.beat.maskD2d.testBit (n - 16)

/-- A port is eligible as a parent (R49). -/
def Dev.portEligible (d : Dev) (n : Nat) : Bool :=
  d.portListens n && decide (tabGet 0 n d.beat.latency ≤ maxLatency) && decide (16 ≤ (d.getBPort n).good)

/-- The parent that R49 chooses: the lowest HOP, then the lowest index. -/
def Dev.chooseParent (d : Dev) (not : Option Nat) : Option Nat :=
  ((upTo 20).filter (fun n => d.portEligible n && not != some n)).foldl (fun b n =>
    match b with
    | none => some n
    | some m => if (d.getBPort n).hop < (d.getBPort m).hop then some n else b) none

/-- Fields of a beat header payload (R42). -/
structure Header where
  hop : Nat
  held : Bool
  ext : Bool
  number : Nat
  offset : Nat
  map : Nat
  cap : Nat
  master : Nat
  domain : Nat
  gen : Nat
deriving DecidableEq, Repr

/-- The payload of a beat header (R42): TYPE, VERSION and CHECK as given. -/
def headerBytes (h : Header) : List Byte :=
  let b := natLe 2 0x0BEA ++ natLe 1 1 ++ natLe 1 (h.hop + 32 * b2n h.held + 64 * b2n h.ext) ++ natLe 7 h.number
    ++ natLe 1 h.offset ++ natLe 1 h.map ++ natLe 1 h.cap ++ natLe 2 h.master ++ natLe 2 h.domain ++ natLe 4 h.gen
  let b := padTo 236 b
  b ++ natLe 4 (crc32c b)

/-- Read a header whose TYPE, VERSION and CHECK match (R42). -/
def readHeader (bs : List Byte) : Option Header :=
  if bs.length = 240 ∧ leAt bs 0 2 = 0x0BEA ∧ leAt bs 2 1 = 1 ∧ crc32c (bs.take 236) = leAt bs 236 4 then
    let f := leAt bs 3 1
    some { hop := fld f 0 5, held := f.testBit 5, ext := f.testBit 6, number := leAt bs 4 7, offset := leAt bs 11 1, map := leAt bs 12 1
           cap := fld (leAt bs 13 1) 0 4, master := fld (leAt bs 14 2) 0 12, domain := leAt bs 16 2, gen := leAt bs 18 4 }
  else none

/-- Hold status of a beat, where headers have announced it (R44). -/
def Dev.announced (d : Dev) (b : Nat) : Option Bool :=
  if d.beat.annFrom ≤ b ∧ b < d.beat.annTo then some (d.beat.heldBeats.contains b) else none

/-- A header passes the checks of R42 and R44 on a port. -/
def Dev.headerValid (d : Dev) (n : Nat) (h : Header) : Bool :=
  h.domain == d.beat.domain && decide (h.hop ≤ 16)
  && ((d.beat.state != bsLocked && d.beat.state != bsAligning) || h.master == d.beat.master)
  && (match (d.getBPort n).expected with
      | some e => e == h.number
      | none => true)
  && ((d.beat.state != bsLocked && d.beat.state != bsAligning) || (match d.announced h.number with
      | some b => b == h.held
      | none => true))

/-- EV_BEAT_LOSS with a cause (R68, R569): UNIT the parent link, where the device has one, VALUE_A the last valid beat number. -/
def Dev.beatLossEv (d : Dev) (cause : Nat) : Dev :=
  let parent := d.beat.state == bsAligning || d.beat.state == bsLocked
  let valid := if d.beat.role = 1 then d.beat.number else d.aux.lastValid
  let die := if parent ∧ d.beat.parentPort < 16 then d.beat.parentPort / 4 else 0xFF
  let d := d.raise { code := 0x0401, cause := cause, sev := 2, die := die, cls := if parent then 2 else 0, idx := if parent then d.beat.parentPort else 0
                     valueA := valid }
  { d with beat.lossCause := cause, beat.lossSeen := true }

/-- Expected numbers and counts of every port are forgotten (R42). -/
def Dev.clearPorts (d : Dev) : Dev := { d with beat.ports := [] }

/-- The device loses the beat (R51, R62, R63): LOST, and every lockstep partition stops at the next beat edge. -/
def Dev.loseBeat (d : Dev) (cause : Nat) : Dev :=
  let d := (d.beatLossEv cause).clearPorts
  { d with beat.state := bsLost, aux.lossSince := d.clock.wall, aux.lostByJoin := false, aux.missing := 0 }.stopLockstep 2

/-- Step 1 of R53: SEARCHING, listening on every port of the mask. -/
def Dev.startSearch (d : Dev) : Dev :=
  { d.clearPorts with
    beat.state := bsSearching
    aux.joinSince := d.clock.wall
    aux.searchSince := d.clock.wall
    aux.alignGood := 0
    aux.conflictNow := false
    aux.conflictBeats := 0
    aux.conflictHeld := false
    aux.conflictRaised := false
    aux.lastValid := 0
    aux.lostByJoin := false
    beat.heldBeats := []
    beat.annFrom := 0
    beat.annTo := 0 }

/-- Back to step 2 of R53: the headers of every port are collected afresh. -/
def Dev.searchAgain (d : Dev) : Dev :=
  { d.clearPorts with beat.state := bsSearching, aux.searchSince := d.clock.wall, aux.alignGood := 0, beat.heldBeats := [], beat.annFrom := 0, beat.annTo := 0 }

/-- Note a valid header on its port (R42, R49). -/
def Dev.notePort (d : Dev) (n : Nat) (h : Header) : Dev :=
  d.modBPort n (fun p => { p with expected := some h.number, good := if h.hop ≤ 15 then p.good + 1 else 0, hop := h.hop, master := h.master
                                  gotThis := true, anyValid := true, misses := 0 })

/-- Take the hold statuses that a header announces for the first time (R43, R44, R61). -/
def Dev.takeHolds (d : Dev) (h : Header) : Dev :=
  let lo := h.number + h.offset
  let new := ((upTo 8).map (lo + ·)).filter (fun b => decide (d.beat.annTo ≤ b))
  let held := new.filter (fun b => h.map.testBit (b - lo))
  let d := { d with
    beat.heldBeats := d.beat.heldBeats ++ held
    beat.annFrom := if d.beat.annTo < lo then lo else d.beat.annFrom
    beat.annTo := max d.beat.annTo (lo + 8) }
  Dev.each held (fun d b =>
    if d.aux.ownLeft = 0 then d
    else
      let d' := if d.aux.ownRaised then d else
        d.raise { code := 0x0402, sev := 0, valueA := b, valueB := d.aux.ownLeft - 1 }
      { d' with aux.ownLeft := d.aux.ownLeft - 1, aux.ownRaised := true }) d

/-- What a follower copies from its parent (R43); a parent at HOP 16 leaves no HOP to report, and the last one stands. -/
def Dev.copyParent (d : Dev) (h : Header) : Dev :=
  { d with aux.lastValid := h.number, beat.hop := if h.hop ≤ 15 then h.hop + 1 else d.beat.hop, beat.extSource := h.ext, beat.fwdHoldCap := h.cap, beat.configGen := h.gen }

/-- A step of the fine-phase grid nearest to an error (R34, R50). -/
def gridSteps (err : Int) : Int := (err + 5) / 10

/-- Some two ports have delivered headers with different masters, in this beat or in the last one (R54). -/
def Dev.mastersDiffer (d : Dev) : Bool :=
  let heard := fun n => d.portListens n && ((d.getBPort n).gotThis || decide (0 < (d.getBPort n).good))
  let ms := ((upTo 20).filter heard).map (fun n => (d.getBPort n).master)
  match ms with
  | [] => false
  | m :: rest => rest.any (· != m)

/-- The parent that R49 chooses among the ports that have delivered 16 headers or still may in this beat. -/
def Dev.bestPort (d : Dev) : Option Nat :=
  let near := fun n => d.portListens n && decide (tabGet 0 n d.beat.latency ≤ maxLatency)
    && (decide (16 ≤ (d.getBPort n).good) || ((d.getBPort n).good == 15 && !(d.getBPort n).gotThis))
  ((upTo 20).filter near).foldl (fun b n =>
    match b with
    | none => some n
    | some m => if (d.getBPort n).hop < (d.getBPort m).hop then some n else b) none

/-- Every port that delivers headers lies too deep or too far to lock to (R49). -/
def Dev.onlyDeep (d : Dev) : Bool :=
  ((upTo 20).filter (fun n => d.portListens n && (d.getBPort n).gotThis)).all (fun n =>
    (d.getBPort n).hop == 16 || decide (maxLatency < tabGet 0 n d.beat.latency))

/-- A header while SEARCHING (R53 steps 2 and 3, R54): after 16 beats the header of the chosen parent places the edge. -/
def Dev.searchHeader (d : Dev) (n : Nat) (h : Header) (err : Int) : Dev :=
  let d := d.notePort n h
  if d.mastersDiffer then { d with aux.conflictNow := true, aux.conflictHeld := true }
  else if 16 ≤ d.clock.wall - d.aux.searchSince ∧ !d.aux.conflictNow ∧ d.bestPort = some n ∧ d.portEligible n = true then
    let d := (d.copyParent h).takeHolds h
    { d with beat.state := bsAligning, beat.parentPort := n, beat.parentD2d := decide (16 ≤ n), beat.master := h.master
             aux.edgePhase := d.aux.edgePhase + gridSteps err, aux.alignGood := 0 }
  else if d.onlyDeep then { d with beat.lossCause := 6 }
  else d

/-- A parent's header while ALIGNING (R53 steps 4 and 5, R64): 64 headers within 1 ns, then the next one gives the number, if it is above the
high-water mark. -/
def Dev.alignHeader (d : Dev) (n : Nat) (h : Header) (err : Int) : Dev :=
  let d := d.notePort n h
  if n ≠ d.beat.parentPort then d
  else
    let d := (d.copyParent h).takeHolds h
    if d.aux.alignGood < 64 then
      if err.natAbs ≤ 64 then { d with aux.alignGood := d.aux.alignGood + 1 } else d.searchAgain
    else if h.number ≤ d.beat.highWater then
      (if d.beat.lossCause = 4 then d else d.beatLossEv 4).searchAgain
    else
      { d with beat.state := bsLocked, beat.number := h.number, beat.holdCount := 0, aux.missing := 0, aux.alignErrs := [], aux.alignBad := 0
               aux.alignWait := d.clock.wall }

/-- A header while LOCKED (R51, R52, R62): the parent's carries holds and the alignment error. -/
def Dev.lockedHeader (d : Dev) (n : Nat) (h : Header) (err : Int) : Dev :=
  let d := d.notePort n h
  if n ≠ d.beat.parentPort then d
  else
    let d := (d.copyParent h).takeHolds h
    let bad := if 192 < err.natAbs then d.aux.alignBad + 1 else 0
    let errs := d.aux.alignErrs ++ [err]
    let d := { d with aux.missing := 0, aux.alignBad := bad, aux.alignErrs := errs.drop (errs.length - 16) }
    if 4 ≤ bad then d.loseBeat 2 else d

/-- R42, R49 to R54, R61 to R64: a beat header arrives on a port; `err` is its arrival minus L minus the own edge. Only a follower uses it. -/
def beatHeaderReceive (port : Nat) (payload : List Byte) (fecOk : Bool) (err : Int) (d : Dev) : Dev :=
  match readHeader payload with
  | none => d
  | some h =>
    d.gate (fecOk && d.beat.role == 2 && d.portListens port && d.headerValid port h && !(d.getBPort port).gotThis) (fun d =>
      if d.beat.state = bsSearching then d.searchHeader port h err
      else if d.beat.state = bsAligning then d.alignHeader port h err
      else if d.beat.state = bsLocked then d.lockedHeader port h err
      else if d.beat.state = bsLost ∧ !d.aux.lostByJoin then d.startSearch.searchHeader port h err
      else d)

def execBeatHeaderReceive (port : Nat) (payload : List Byte) (fecOk : Bool) (err : Int) (s : State) :
    Host.Outcome State Fault Refusal :=
  s.live (beatHeaderReceive port payload fecOk err)

/-- R51: the mean error over 16 headers exceeds 0.5 ns, and 64 beats have passed since the last step: the edge moves one fine-phase step. -/
def alignStep (d : Dev) : Dev :=
  let sum : Int := d.aux.alignErrs.foldl (· + ·) 0
  d.gate (d.beat.state == bsLocked && d.aux.alignErrs.length == 16 && decide (512 < sum.natAbs)
      && decide (64 ≤ d.clock.wall - d.aux.alignWait)) (fun d =>
    { d with aux.edgePhase := d.aux.edgePhase + (if 0 < sum then 1 else -1), aux.alignErrs := [], aux.alignWait := d.clock.wall })

def execAlignStep (s : State) : Host.Outcome State Fault Refusal := s.live alignStep

/-- Some eligible port, or the parent, has delivered a valid header in the beat (R62). -/
def Dev.heardBeat (d : Dev) : Bool := (upTo 20).any (fun n => (d.getBPort n).gotThis && (d.portEligible n || n == d.beat.parentPort))

/-- R62: four beats without a valid header, the current one among them once its slot 0 has passed: EV_BEAT_LOSS, LOST, and lockstep partitions stop at the next beat edge. -/
def headersMissingCount (d : Dev) : Dev :=
  d.gate (d.beat.role == 2 && d.beat.state == bsLocked && decide (4 ≤ d.aux.missing + b2n (!d.heardBeat))) (fun d => d.loseBeat 1)

def execHeadersMissingCount (s : State) : Host.Outcome State Fault Refusal := s.live headersMissingCount

/-- R52: the parent has failed two headers, that of the current beat once its slot 0 has passed, and another port is eligible: it becomes parent at the next beat edge. -/
def parentSwitch (d : Dev) : Dev :=
  d.gate (d.beat.state == bsLocked && decide (2 ≤ (d.getBPort d.beat.parentPort).misses + b2n (!(d.getBPort d.beat.parentPort).gotThis))) (fun d =>
    match d.chooseParent (some d.beat.parentPort) with
    | some n => { d with aux.parentNext := some n }
    | none => d)

def execParentSwitch (s : State) : Host.Outcome State Fault Refusal := s.live parentSwitch

/-- Cause of a join that timed out (R53). -/
def Dev.joinCause (d : Dev) : Nat :=
  if d.aux.conflictHeld then 3
  else if (upTo 20).any (fun n => (d.getBPort n).anyValid) ∧ (d.chooseParent none).isNone then 6 else 1

/-- R53: not LOCKED within 1,024 beats of step 1: LOST with the cause that kept it from locking. -/
def joinTimeout (d : Dev) : Dev :=
  d.gate (d.beat.role == 2 && (d.beat.state == bsSearching || d.beat.state == bsAligning)
      && decide (1024 ≤ d.clock.wall - d.aux.joinSince)) (fun d =>
    let d := (d.beatLossEv d.joinCause).clearPorts
    { d with beat.state := bsLost, aux.lossSince := d.clock.wall, aux.lostByJoin := true })

def execJoinTimeout (s : State) : Host.Outcome State Fault Refusal := s.live joinTimeout

/-- R53: 1,024 beats after a join timeout the follower starts again at step 1. -/
def joinRestart (d : Dev) : Dev :=
  d.gate (d.beat.role == 2 && d.beat.state == bsLost && d.aux.lostByJoin && decide (1024 ≤ d.clock.wall - d.aux.lossSince)) Dev.startSearch

def execJoinRestart (s : State) : Host.Outcome State Fault Refusal := s.live joinRestart

/-- R54: headers have disagreed on MASTER_DEVICE for 4 beats: EV_BEAT_LOSS; the device stays in SEARCHING. -/
def masterConflictExpiry (d : Dev) : Dev :=
  d.gate (d.beat.state == bsSearching && !d.aux.conflictRaised && decide (4 ≤ d.aux.conflictBeats + b2n d.aux.conflictNow)) (fun d =>
    { d.beatLossEv 3 with aux.conflictRaised := true })

def execMasterConflictExpiry (s : State) : Host.Outcome State Fault Refusal := s.live masterConflictExpiry

/-- The master takes its edges from BEAT_IN now (R46); after a loss it comes back to them in steps (R47). -/
def Dev.followsIn (d : Dev) : Bool := d.beat.state == bsMaster && d.beat.beatInOk && !d.aux.approach

/-- The distance of BEAT_IN from the own edge after one more edge, so far from its expected time: the own edge while following, otherwise 680 ns after
the edge before. -/
def Dev.inPhase (d : Dev) (offset : Int) : Int := if d.followsIn then offset else d.aux.beatInPhase + offset

/-- A BEAT_IN edge is ignored (R47): the fourth in a row is a loss of BEAT_IN. -/
def Dev.ignoreBeatIn (d : Dev) : Dev :=
  let n := d.aux.beatInIgnored + 1
  let d := { d with aux.beatInIgnored := n, aux.beatInGood := 0 }
  if n = 4 ∧ d.beat.state = bsMaster then { d.beatLossEv 5 with beat.beatInOk := false, aux.approach := false } else d

/-- The own edge moves to BEAT_IN as far as the fine-phase grid allows (R34, R46). -/
def Dev.placeOnIn (d : Dev) : Dev :=
  let g := gridSteps d.aux.beatInPhase
  { d with aux.edgePhase := d.aux.edgePhase + g, aux.beatInPhase := d.aux.beatInPhase - 10 * g }

/-- R46, R47: a rising edge of BEAT_IN, so far from its expected time; within 2 ns it is good and places the edge, otherwise it is ignored. After a
loss the master returns to it after 16 good edges. -/
def beatInEdge (offset : Int) (d : Dev) : Dev :=
  d.gate (d.beat.role == 1 && d.beat.source == 1) (fun d =>
    let follows := d.followsIn
    let d := { d with aux.beatInPhase := d.inPhase offset }
    if 128 < offset.natAbs then d.ignoreBeatIn
    else
      let good := d.aux.beatInGood + 1
      let d := { d with aux.beatInIgnored := 0, aux.beatInGood := good }
      if follows then d.placeOnIn
      else if d.beat.state = bsMaster ∧ d.beat.beatInOk = false ∧ 16 ≤ good then
        { d with beat.beatInOk := true, aux.approach := true, aux.alignWait := d.clock.wall }
      else d)

def execBeatInEdge (offset : Int) (s : State) : Host.Outcome State Fault Refusal := s.live (beatInEdge offset)

/-- R47: an expected BEAT_IN edge does not come. -/
def beatInMissing (d : Dev) : Dev := d.gate (d.beat.role == 1 && d.beat.source == 1) Dev.ignoreBeatIn

def execBeatInMissing (s : State) : Host.Outcome State Fault Refusal := s.live beatInMissing

/-- The master takes a hold request (R58, R59): it replaces the device's earlier one and keeps its spacing count; N = 0 cancels it. -/
def Dev.holdRequest (d : Dev) (device n s : Nat) : Dev :=
  let old := d.beat.requests.find? (fun r => r.device == device)
  let rest := d.beat.requests.filter (fun r => r.device != device)
  if n = 0 then { d with beat.requests := rest }
  else { d with beat.requests := rest ++ [⟨device, n, s, old.bind (·.seen)⟩] }

/-- The device's own reckoning of the holds it asked for (R61). -/
def Dev.ownRequest (d : Dev) (n : Nat) : Dev :=
  { d with aux.ownRaised := if d.aux.ownLeft = 0 then false else d.aux.ownRaised, aux.ownLeft := n }

/-- The HOLD packet of a request (R58, R353). -/
def Dev.holdPacket (d : Dev) (n s : Nat) : Packet :=
  { dest := endpointOf d.beat.master 0 0x20, src := endpointOf d.fab.selfDevice 0 0x20, part := 0, kind := 5, vc := 2, len := 0
    fence := false, esc := false, payload := padTo flitPayload (natLe 2 d.fab.selfDevice ++ natLe 1 n ++ natLe 1 s), poison := [] }

/-- The device asks the beat master for holds (R58): the master serves itself without a packet; a follower's packet replaces one that has not left
(R362). -/
def Dev.askHolds (d : Dev) (n s : Nat) : Dev :=
  let d := d.ownRequest n
  if d.beat.state = bsMaster then d.holdRequest d.fab.selfDevice n s
  else
    let d := { d with fab.queue := d.fab.queue.filter (fun q => !(q.pkt.kind == 5 && q.router == 12 && q.inPort == 0)) }
    d.inject 12 0 (d.holdPacket n s)

/-- R58: a HOLD packet reaches the beat master. -/
def hold (p : Packet) (d : Dev) : Dev :=
  d.gate (p.kind == 5 && d.beat.state == bsMaster) (fun d =>
    (d.takeLocal (routerOf p.dest) 0 p).holdRequest (leAt p.payload 0 2) (leAt p.payload 2 1) (leAt p.payload 3 1 % 16))

def execHold (p : Packet) (s : State) : Host.Outcome State Fault Refusal := s.live (hold p)

/-- ROLE, SOURCE, HOLD_CAP, DOMAIN_ID and the masks of an accepted BEAT_CONFIG take effect (R45 to R48, R53, R55, R66, R67). -/
def Dev.setBeat (d : Dev) (role source cap domain vein d2d start : Nat) : Dev :=
  let b := d.beat
  let cap := if role = 1 then cap else 8
  let source := if role = 1 then source else 0
  let same := role == b.role && domain == b.domain && vein == b.maskVein && d2d == b.maskD2d
  let gen := if role = 1 ∧ (b.holdCap ≠ cap ∨ b.source ≠ source) then wrapAdd 32 b.configGen 1 else b.configGen
  let d' := { d with beat.role := role, beat.source := source, beat.holdCap := cap, beat.domain := domain, beat.maskVein := vein
                     beat.maskD2d := d2d, beat.configGen := gen }
  if role = 0 then { d' with beat.state := bsNone, aux.startPending := none }
  else if role = 1 then
    if b.state = bsMaster then
      if source = b.source then d' else { d' with aux.beatInGood := 0, aux.beatInIgnored := 0, aux.approach := false, beat.beatInOk := false }
    else { d' with beat.state := bsNone, aux.startPending := some start, aux.beatInGood := 0, aux.beatInIgnored := 0 }
  else if same ∧ bsSearching ≤ b.state ∧ b.state ≤ bsLost then d
  else { d' with aux.startPending := none }.startSearch

end Sys2Proof.Machine
end

