-- ==== Sys2Proof/Machine/Slab.lean ====
section
/-! DEFINITION. The arrays, accumulators and banks of a slab and its clock (spec/04, spec/06 R161 to R174, spec/08 R218 to R222).
`slabRun` brings a slab up to the start of a job cycle: every earlier cycle has done its reads and selections, and every effect due by then has
taken place. -/

namespace Sys2Proof.Machine

/-- Bits of a bank from a bit offset on, and whether a byte that holds them is poisoned. -/
def bankBits (tab : List (Nat × PByte)) (base bit w : Nat) : Nat × Bool :=
  let lo := bit / 8
  let bs := (upTo ((bit + w - 1) / 8 + 1 - lo)).map (fun i => tabGet PByte.zero (base + lo + i) tab)
  (fld (leNat (bs.map PByte.val)) (bit - 8 * lo) w, bs.any PByte.poison)

/-- One write of bits into a bank: bit offset, width, code, poison. -/
structure BitPut where
  bit : Nat
  w : Nat
  code : Nat
  poison : Bool
deriving DecidableEq, Repr

/-- Put bits into the bytes of a bank; the poison of its words is set by `bankPuts`. -/
def bankPut (base : Nat) (tab : List (Nat × PByte)) (p : BitPut) : List (Nat × PByte) :=
  let lo := p.bit / 8
  let n := (p.bit + p.w - 1) / 8 + 1 - lo
  let old := (upTo n).map (fun i => tabGet PByte.zero (base + lo + i) tab)
  let v := leNat (old.map PByte.val)
  let sh := p.bit - 8 * lo
  let v' := v - fld v sh p.w * 2 ^ sh + p.code % 2 ^ p.w * 2 ^ sh
  ((upTo n).zip (old.zip (natLe n v'))).foldl (fun t x => tabSet PByte.zero (base + lo + x.1) ⟨x.2.2, x.2.1.poison⟩ t) tab

/-- 64-bit words that a list of writes touches. -/
def putWords (ps : List BitPut) : List Nat :=
  ps.foldl (fun l p => insertNat (p.bit / 64) (insertNat ((p.bit + p.w - 1) / 64) l)) []

/-- Bits of a word that a write covers. -/
def BitPut.overlap (p : BitPut) (word : Nat) : Nat := min (p.bit + p.w) (64 * word + 64) - max p.bit (64 * word)

/-- Write into a bank (R214, R287): a word is poisoned by any poisoned write into it, and stays poisoned where it is only partly written. -/
def bankPuts (base : Nat) (ps : List BitPut) (tab : List (Nat × PByte)) : List (Nat × PByte) :=
  let tab := ps.foldl (bankPut base) tab
  (putWords ps).foldl (fun t wd =>
    let mine := ps.filter (fun p => decide (0 < p.overlap wd))
    let covered : Nat := mine.foldl (fun n p => n + p.overlap wd) 0
    let was := (upTo 8).any (fun i => (tabGet PByte.zero (base + 8 * wd + i) t).poison)
    let bad := mine.any (·.poison) || (was && decide (covered < 64))
    (upTo 8).foldl (fun t i =>
      tabSet PByte.zero (base + 8 * wd + i) ⟨(tabGet PByte.zero (base + 8 * wd + i) t).val, bad⟩ t) t) tab

/-- Write whole bytes into a bank. -/
def bankBytes (base off : Nat) (bs : List PByte) (tab : List (Nat × PByte)) : List (Nat × PByte) :=
  bankPuts base (((upTo bs.length).zip bs).map (fun x => ⟨8 * (off + x.1), 8, x.2.val.toNat, x.2.poison⟩)) tab

/-- Sizes of the banks (R98, R188). -/
def wbankSize : Nat := 32768
def abankSize : Nat := 131072
def sbankSize : Nat := 65536

/-- Write whole bytes into a Streak bank (R212, R227): the words they touch hold no error any more. -/
def SlabMem.sbankBytes (m : SlabMem) (b off : Nat) (bs : List PByte) : SlabMem :=
  { m with sbank := bankBytes (b * sbankSize) off bs m.sbank
           sbankErr := m.sbankErr.filter (fun w => !((upTo bs.length).any (fun i => w == b * 8192 + (off + i) / 8))) }

/-- Keys under which readers and writers of banks meet (R222): weight banks 0 and 1, activation bank b of array a at 2 + 2a + b, Streak bank b at 10 + b. -/
def wKey (b : Nat) : Nat := b
def aKey (a b : Nat) : Nat := 2 + 2 * a + b
def sKey (b : Nat) : Nat := 10 + b

/-- Enabled arrays of a mask, ascending. -/
def arrayList (m : Nat) : List Nat := (upTo 4).filter (fun a => m.testBit a)

/-- Banks that a descriptor writes (R225). -/
def Desc.bankKeys (e : Desc) : List Nat :=
  match e.kind with
  | 0 => [wKey e.bank]
  | 1 => (arrayList e.arrays).map (fun a => aKey a e.bank)
  | 2 => [sKey e.bank]
  | _ => if e.dst = 3 then [sKey e.bank] else []

/-- A bank is being filled: a descriptor, or a drain to it, was dispatched before the cycle and has not completed (R106, R111, R194). -/
def SlabSeq.filling (s : SlabSeq) (key before : Nat) : Bool :=
  (s.dmaQ ++ s.dmaRun).any (fun j => decide (j.dispatched < before) && j.desc.bankKeys.contains key)
  || s.inflight.any (fun f => f.bank == some key && decide (f.issued < before))

/-- Every reader of some banks that was selected by a cycle has finished reading (R222). -/
def SlabSeq.readersDone (s : SlabSeq) (keys : List Nat) (by_ t : Nat) : Bool :=
  s.readers.all (fun r => !keys.contains r.key || decide (by_ < r.sel)
    || (match r.fin with | some f => decide (f ≤ t) | none => false))

/-- Accumulator word of an array, row and column. -/
def accKey (array row col : Nat) : Nat := (array * 2048 + row) * 128 + col

/-- The context's entries are pairs (R170, R184). -/
def SlabRegs.pair (r : SlabRegs) (x : Nat) : Bool := if x = 0 then r.pair0 else r.pair1

/-- First physical row and number of physical rows of n logical rows (R170). -/
def physRow (pair : Bool) (first j : Nat) : Nat := if pair then first + 2 * j else first + j

/-- An event that a slab raises about itself. -/
def Dev.slabEv (d : Dev) (slab code cause : Nat) : Ev :=
  { code := code, cause := cause, sev := 2, die := slab / 8, partition := d.holderNo (halfOfUnit slab), cls := 1, idx := unitSlab (slab % 8) }

/-- Read one accumulator word (R174): an ECC error that it holds is reported, and poisons it if uncorrectable. -/
def Dev.accRead (d : Dev) (slab key : Nat) : AccWord × Dev :=
  let s := d.getSlab slab
  let w := tabGet {} key s.mem.acc
  match s.mem.accErr.find? (fun e => e.1 == key) with
  | none => (w, d)
  | some e =>
    let ev := d.slabEv slab (if e.2 then evUncorrectable else evCorrected) (if e.2 then 1 else 0)
    let d := d.raise { ev with sev := if e.2 then 2 else 0, sub := key / 262144, index := key / 128 % 2048 }
    let w := if e.2 then { w with poison := true } else w
    (w, d.modSlab slab (fun s => { s with
      mem.acc := tabSet {} key w s.mem.acc, mem.accErr := s.mem.accErr.filter (fun e => e.1 != key), regs.eccSeen := true }))

/-- Store an accumulator word. -/
def Dev.accStore (d : Dev) (slab key : Nat) (w : AccWord) : Dev :=
  d.modSlab slab (fun s => { s with mem.acc := tabSet {} key w s.mem.acc, mem.accErr := s.mem.accErr.filter (fun e => e.1 != key) })

/-- Set the status bits of an update or drain stage (R168, R185). -/
def Dev.accFlags (d : Dev) (slab : Nat) (f : AccFlags) : Dev :=
  if f.ovf ∨ f.nan then
    d.modSlab slab (fun s => { s with regs.ovfSeen := s.regs.ovfSeen || f.ovf, regs.nanSeen := s.regs.nanSeen || f.nan })
  else d

/-- One update of an entry at the south edge (R167, R169, R174). -/
def Dev.accUpdate (d : Dev) (slab array row col mode : Nat) (combine pair : Bool) (cs : ColSum) : Dev :=
  let k := accKey array row col
  if mode = 9 then
    let w := tabGet {} k (d.getSlab slab).mem.acc
    d.accStore slab k { w with poison := true }
  else if pair then
    let r := if combine then d.accRead slab k else (tabGet {} k (d.getSlab slab).mem.acc, d)
    let q := if combine then r.2.accRead slab (k + 128) else (tabGet {} (k + 128) (d.getSlab slab).mem.acc, r.2)
    let u := updatePair combine r.1.code q.1.code cs
    let p := cs.poison || (combine && (r.1.poison || q.1.poison))
    ((q.2.accStore slab k ⟨u.1, p⟩).accStore slab (k + 128) ⟨u.2.1, p⟩).accFlags slab u.2.2
  else
    let r := if combine then d.accRead slab k else (tabGet {} k (d.getSlab slab).mem.acc, d)
    let u := updateEntry mode combine r.1.code cs
    (r.2.accStore slab k ⟨u.1, cs.poison || (combine && r.1.poison)⟩).accFlags slab u.2

/-- Bytes enter the outbound FIFO of a slab tile (R214): those beyond 16 KiB are discarded with EV_SLOT_COLLISION. -/
def localFifo : Nat := 16384

/-- EV_SLOT_COLLISION for a full LOCAL FIFO (R214, R569): port LOCAL is index 0 (R72); `at_` holds the lane and the first cycle. -/
def Dev.fifoOver (d : Dev) (slab at_ : Nat) : Dev :=
  (d.modSlab slab (fun s => { s with regs.fifoOver := true })).raiseOnce { d.slabEv slab 0x0201 2 with index := 0, valueA := at_ }

/-- VALUE_A of a collision in lane 0 at a job cycle of a half (R569): the cycle of its beat in [31:16]. -/
def Dev.cycleValue (d : Dev) (half t : Nat) : Nat := 2 ^ 16 * (t - (d.getHalf half).cycBase)

/-- Bytes enter the outbound FIFO. -/
def Dev.pushOut (d : Dev) (slab at_ : Nat) (bs : List PByte) : Dev :=
  let f := (d.getSlab slab).mem.outFifo
  let d := d.modSlab slab (fun s => { s with mem.outFifo := (f ++ bs).take localFifo })
  if localFifo < f.length + bs.length then d.fifoOver slab at_ else d

/-- Bytes enter the inbound FIFO. -/
def Dev.pushIn (d : Dev) (slab at_ : Nat) (bs : List PByte) : Dev :=
  let f := (d.getSlab slab).mem.inFifo
  let d := d.modSlab slab (fun s => { s with mem.inFifo := (f ++ bs).take localFifo })
  if localFifo < f.length + bs.length then d.fifoOver slab at_ else d

/-- Queue an effect of a slab. -/
def Dev.later (d : Dev) (slab time : Nat) (e : SlabEff) : Dev := d.modSlab slab (fun s => { s with seq.effs := s.seq.effs ++ [(time, e)] })

/-- DPA of a slab store offset, and of the quarry tile of the slab's own row (R187, R293). -/
def storeDpa (slab off : Nat) : Nat := dpaStore (slab / 8) (slab % 8) off
def rowqDpa (slab off : Nat) : Nat := dpaQuarry (slab / 8) (slab % 8) off

/-- The partition that writes as the owner of a slab (R557). -/
def Dev.slabWriter (d : Dev) (slab : Nat) : Writer :=
  match d.holder (halfOfUnit slab) with
  | some n => .own n
  | none => .other

/-! ## Passes -/

/-- Doubled row rate of a pass (R99). -/
def PassOp.rho2 (p : PassOp) : Nat := (pairRho2 p.afmt p.wfmt).getD 2

/-- Streaming duration of a pass (R103). -/
def PassOp.dur (p : PassOp) : Nat := streamD p.m p.rho2

/-- Bytes of an activation feed word and of its scales (R219). -/
def feedBytes (k a rho2 : Nat) : Nat := k * a * rho2 / 16
def feedScales (afmt k rho2 : Nat) : Nat := if fmtBlock afmt then k / 32 * rho2 / 2 else 0

/-- Bit offset of the low part of the element of row m for tile row i, and of the high part at ρ = 1/2 (R219). -/
def feedBit (k a rho2 m i : Nat) : Nat :=
  let wb := feedBytes k a rho2
  if rho2 = 1 then ((2 * m + i) * wb + i) * 8
  else if rho2 = 2 then (m + i) * wb * 8 + a * i
  else (m / 2 + i) * wb * 8 + 2 * a * i + m % 2 * a

/-- Offset of the scale byte of block b of row m (R219). -/
def feedScaleAt (afmt k a rho2 rows m b : Nat) : Nat :=
  let base := (streamD rows rho2 + k - 1) * feedBytes k a rho2
  let sb := feedScales afmt k rho2
  if rho2 = 4 then base + (m / 2 + 32 * b) * sb + 2 * b + m % 2 else base + (m + 32 * b) * sb + b

/-- Weight of tile row i and column n in a captured weight bank (R218), with its poison. -/
def passWeight (p : PassOp) (wb : List (Nat × PByte)) (i n : Nat) : Val × Bool :=
  let w := fmtBits p.wfmt
  let e := bankBits wb 0 (i * 128 * w + w * n) w
  if fmtBlock p.wfmt then
    let s := bankBits wb 0 (8 * (0x4000 + 128 * (i / 32) + n)) 8
    (decodeScaled p.wfmt e.1 s.1, e.2 || s.2)
  else (decodeElem p.wfmt e.1, e.2)

/-- Activation of row m for tile row i in the bank at `base` (R219), with its poison. -/
def passAct (p : PassOp) (ab : List (Nat × PByte)) (base m i : Nat) : Val × Bool :=
  let k := tileK p.tile
  let a := fmtBits p.afmt
  let bit := feedBit k a p.rho2 m i
  let e :=
    if p.rho2 = 1 then
      let lo := bankBits ab base bit 8
      let hi := bankBits ab base (bit + 8 * feedBytes k a 1) 8
      (lo.1 + 256 * hi.1, lo.2 || hi.2)
    else bankBits ab base bit a
  if fmtBlock p.afmt then
    let s := bankBits ab base (8 * feedScaleAt p.afmt k a p.rho2 p.m m (i / 32)) 8
    (decodeScaled p.afmt e.1 s.1, e.2 || s.2)
  else (decodeElem p.afmt e.1, e.2)

/-- Blocks of 32 consecutive indices below a bound (R161). -/
def blocksOf (n : Nat) : List (List Nat) := (upTo (cdiv n 32)).map (fun b => (upTo (min 32 (n - 32 * b))).map (fun i => 32 * b + i))

/-- Formats whose elements are integers or trits (R135, R143 to R145): MXINT8, INT8, INT4, TB32. -/
def fmtInt (f : Nat) : Bool := f == 0x0A || f == 0x0B || f == 0x0C || f == 0x0D

/-- Column result of one row of activations and one column of weights (R162, R165, R115). -/
def columnOf (mode : Nat) (int : Bool) (as ws : List (Val × Bool)) : ColSum :=
  let term := fun i => cellTerm mode int ((as.getD i (.pzero, false)).1) ((ws.getD i (.pzero, false)).1)
  let v := columnResult mode ((blocksOf as.length).map (fun b => b.map term))
  ⟨v, as.any (·.2) || ws.any (·.2), v.isNan && !as.any (·.1.isNan) && !(ws.take as.length).any (·.1.isNan)⟩

/-- Columns of unmasked weights of a pass, westmost first. -/
def passColumns (p : PassOp) (wb : List (Nat × PByte)) : List (List (Val × Bool)) :=
  (upTo p.nv).map (fun n => (upTo p.kv).map (fun i => passWeight p wb i n))

/-- Columns of a pass that hold an invalid trit in an unmasked row (R147). -/
def passBadTrits (p : PassOp) (bad : List Nat) : List Nat :=
  (upTo p.nv).filter (fun n => bad.any (fun k => k % 128 == n && decide (k / 128 < p.kv)))

/-- The column sums of row m of one array (R162 to R165), poisoned where a term, an invalid trit or a weight parity error poisons them. -/
def passRow (p : PassOp) (cols : List (List (Val × Bool))) (badCols parity : List Nat) (ab : List (Nat × PByte)) (base array m : Nat) :
    List ColSum :=
  let as := (upTo p.kv).map (fun i => passAct p ab base m i)
  ((upTo p.nv).zip cols).map (fun x =>
    let r := columnOf p.mode (fmtInt p.afmt && fmtInt p.wfmt) as x.2
    { r with poison := r.poison || badCols.contains x.1 || parity.contains (array * 128 + x.1) })

/-- The effects of a pass issued at cycle c (R101): one row of sums for every array and activation row. -/
def passEffects (s : Slab) (p : PassOp) (sel : PassSel) (pair : Bool) (c : Nat) : List (Nat × SlabEff) :=
  let cols := passColumns p sel.wbank
  let bad := passBadTrits p sel.wbad
  let k := tileK p.tile
  (arrayList p.arrays).flatMap (fun a =>
    let gone := s.regs.retired || s.regs.arraysOff.testBit a
    (upTo p.m).map (fun m =>
      let sums := if gone then List.replicate p.nv ⟨.pzero, true, false⟩
        else passRow p cols bad s.mem.weightErr s.mem.abank ((2 * a + p.abank) * abankSize) a m
      (c + rowStep p.rho2 m + k + 7, .acc a (physRow pair p.accRow m) 0 sums true (if gone then 9 else p.mode) p.combine pair)))

/-! ## Row conditions -/

/-- Physical rows of a lock. -/
def RowLock.rows (l : RowLock) : Nat := if l.pair then 2 * l.m else l.m

/-- The last logical row of a lock that lies in n physical rows from lo, if any. -/
def RowLock.topIn (l : RowLock) (lo n : Nat) : Option Nat :=
  let a := max l.lo lo
  let b := min (l.lo + l.rows) (lo + n)
  if a < b then some (if l.pair then (b - 1 - l.lo) / 2 else b - 1 - l.lo) else none

/-- Arrays of a number of Streak columns (R190). -/
def streakArrays (n : Nat) : Nat := (upTo 4).foldl (fun v a => if 128 * a < n then v + 2 ^ a else v) 0

/-- Cycle from which row j of a lock is settled in an array (R103, R191, R179): its last entry holds its value, or it has been read. -/
def RowLock.settled (l : RowLock) (array j : Nat) : Nat :=
  if l.kind = 0 then l.c + rowStep l.p3 j + l.p1 + l.p2 + 6
  else if l.kind = 1 then
    let g := min (cdiv l.p2 l.p3 - 1) (128 * (array + 1) / l.p3 - 1)
    l.c + (g * l.p1 + l.p1 - 1) * l.m + j + 40
  else l.c + j + 1

/-- A lock of a kind and context keeps n rows from lo, in some array of a mask, from being used at a cycle. -/
def RowLock.holds (l : RowLock) (x kind mask lo n t : Nat) : Bool :=
  l.ctx == x && l.kind == kind
  && (match l.topIn lo n with
      | none => false
      | some j => (upTo 4).any (fun a => l.arrays.testBit a && mask.testBit a && decide (t < l.settled a j)))

/-- Some lock of a kind holds the rows. -/
def SlabSeq.blocked (s : SlabSeq) (x kind mask lo n t : Nat) : Bool := s.locks.any (fun l => l.holds x kind mask lo n t)

/-- Add a lock and forget those that hold nothing any more. -/
def SlabSeq.lock (s : SlabSeq) (l : RowLock) : SlabSeq :=
  { s with locks := (s.locks.filter (fun o => (upTo 4).any (fun a => o.arrays.testBit a && decide (l.c < o.settled a (o.m - 1))))) ++ [l] }

/-- Add readers and forget those that have finished. -/
def SlabSeq.read (s : SlabSeq) (t : Nat) (rs : List BankRead) : SlabSeq :=
  { s with readers := (s.readers.filter (fun r => match r.fin with | some f => decide (t < f) | none => true)) ++ rs }

/-! ## Issue credits (R505) -/

/-- The operating point in force for a partition (R233, R499): the point its image names now, or the header's frequency with cap 16 and offset 0. -/
def Dev.pointNow (d : Dev) (n : Nat) : OpPoint :=
  let p := d.getPart n
  match p.image with
  | some i =>
    match i.oppoints[p.job.oppIndex]? with
    | some e => ((d.pow.points.find? (fun x => x.1 == e.point)).map (·.2)).getD ⟨e.freq, 16, 0⟩
    | none => ⟨i.freq, 16, 0⟩
  | none => ⟨16, 16, 0⟩

/-- The rate r of a slab's partition: 16 in lockstep, else the lower of its compute level and the point's issue cap (R498, R504, R505). -/
def Dev.issueRate (d : Dev) (slab : Nat) : Nat :=
  match d.holder (halfOfUnit slab) with
  | some n => if (d.getPart n).lockRun then 16 else min (d.pointNow n).cap (16 - (tabGet {} n d.pow.levels).compute)
  | none => 16

/-- A credit after the cycles from one to another: r a cycle, less 16 for each cycle before `busy`, capped at 2,048 (R505). -/
def creditAfter (c : Int) (r first last busy : Nat) : Int :=
  let n := min (last - first) (busy - first)
  min 2048 (c + (r * n : Nat) - (16 * n : Nat) + (r * (last - first - n) : Nat))

/-- Bring both credits of a slab up to a cycle (R505). -/
def Dev.creditTo (d : Dev) (slab t : Nat) : Dev :=
  let r := d.issueRate slab
  d.modSlab slab (fun s => { s with
    pow.passCredit := creditAfter s.pow.passCredit r s.pow.creditAt t s.regs.streamEnd
    pow.streakCredit := creditAfter s.pow.streakCredit r s.pow.creditAt t s.seq.streakFree
    pow.creditAt := max t s.pow.creditAt })

/-! ## Selection of passes and Streak commands (R111, R196) -/

/-- The head pass that a context offers at a cycle (R111). -/
def Dev.headPass (d : Dev) (slab x u : Nat) : Option PassOp :=
  let c := d.getSCtx (2 * slab + x)
  let s := (d.getSlab slab).seq
  let isHead : Bool := match c.lastDispatch with
    | some l => decide (l < u) || (match s.active with | some a => a.x == x && a.c == u | none => false)
    | none => true
  match c.head with
  | some h =>
    match h.op with
    | .pass p => if isHead ∧ !c.codeErr.contains c.pc ∧ !s.filling (wKey p.wbank) u then some p else none
    | _ => none
  | none => none

/-- The pass that the sequencer selects in a cycle (R111): that of the context that did not issue the last pass first. -/
def Dev.passPick (d : Dev) (slab u : Nat) : Option (Nat × PassOp) :=
  let s := (d.getSlab slab).seq
  let idle : Bool := s.selected.isNone && (match s.active with | some a => decide (a.c ≤ u) | none => true)
  if idle then
    match d.headPass slab (1 - s.lastPass) u with
    | some p => some (1 - s.lastPass, p)
    | none => (d.headPass slab s.lastPass u).map (fun p => (s.lastPass, p))
  else none

/-- Select the next pass in a cycle (R109, R111): its weight bank is captured, since its load ends before a writer may begin (R222). -/
def Dev.selectPass (d : Dev) (slab u : Nat) : Dev :=
  match d.passPick slab u with
  | none => d
  | some (x, p) =>
    let m := (d.getSlab slab).mem
    let base := p.wbank * wbankSize
    let sel : PassSel := ⟨x, u, u,
      (m.wbank.filter (fun e => decide (base ≤ e.1) && decide (e.1 < base + wbankSize))).map (fun e => (e.1 - base, e.2)),
      (m.wbad.filter (fun k => k / 16384 == p.wbank)).map (· % 16384)⟩
    let rs : List BankRead :=
      ⟨wKey p.wbank, u, some (u + tileK p.tile)⟩ :: (arrayList p.arrays).map (fun a => ⟨aKey a p.abank, u, none⟩)
    d.modSlab slab (fun s => { s with seq := ({ s.seq with selected := some sel } : SlabSeq).read u rs })

/-- The head Streak command that a context offers at a cycle (R196). -/
def Dev.headStreak (d : Dev) (slab x u : Nat) : Option StreakOp :=
  let c := d.getSCtx (2 * slab + x)
  let isHead : Bool := match c.lastDispatch with
    | some l => decide (l < u)
    | none => true
  match c.head with
  | some h =>
    match h.op with
    | .streak k =>
      if isHead ∧ !c.codeErr.contains c.pc
          ∧ !(d.getSlab slab).seq.filling (sKey k.abank) u then some k else none
    | _ => none
  | none => none

/-- The Streak command that a free unit selects in a cycle (R196). -/
def Dev.streakPick (d : Dev) (slab u : Nat) : Option (Nat × StreakOp) :=
  let s := (d.getSlab slab).seq
  if s.streakSel.isNone ∧ s.streakFree ≤ u then
    match d.headStreak slab (1 - s.lastStreak) u with
    | some k => some (1 - s.lastStreak, k)
    | none => (d.headStreak slab s.lastStreak u).map (fun k => (s.lastStreak, k))
  else none

/-- Select the next Streak command in a cycle in which the unit is free (R196). -/
def Dev.selectStreak (d : Dev) (slab u : Nat) : Dev :=
  match d.streakPick slab u with
  | none => d
  | some (x, k) =>
    d.modSlab slab (fun s => { s with seq := ({ s.seq with streakSel := some (x, u) } : SlabSeq).read u [⟨sKey k.abank, u, none⟩] })

end Sys2Proof.Machine
end

