-- ==== Sys2Proof/Machine/SlabDma.lean ====
section
/-! DEFINITION. The skew DMA engine (spec/08 R224 to R227): what a descriptor reads, in which order, and what it leaves in the banks. -/

namespace Sys2Proof.Machine

/-- Indices along K that a descriptor moves (R225). -/
def Desc.kCount (e : Desc) : Nat := if e.kind = 2 then e.klen else e.kv

/-- Activation rows or weight columns that a descriptor moves (R226). -/
def Desc.rCount (e : Desc) : Nat := if e.kind = 0 then e.nv else e.m

/-- Arrays that a descriptor reads for; a WSTAGE or SBANK has one source (R226). -/
def Desc.arrayCount (e : Desc) : Nat := if e.kind = 1 then (arrayList e.arrays).length else 1

/-- First byte of an index in a packed row, and the first byte behind it (R141, R146). -/
def packByte (fmt i : Nat) : Nat := if fmt = 0x0D then i / 5 else i * fmtBits fmt / 8
def packEnd (fmt i : Nat) : Nat := if fmt = 0x0D then cdiv i 5 else cdiv (i * fmtBits fmt) 8

/-- Source segments of the elements, array by array, row by row (R226): address and length. -/
def Desc.elemSegs (e : Desc) : List (Nat × Nat) :=
  (upTo e.arrayCount).flatMap (fun a =>
    let at_ := e.srcAddr + a * e.arrayStride
    if e.trans then
      (upTo e.kCount).map (fun k => (at_ + (e.k0 + k) * e.rowStride, packEnd e.fmt e.rCount))
    else
      let lo := packByte e.fmt e.k0
      (upTo e.rCount).map (fun r => (at_ + r * e.rowStride + lo, packEnd e.fmt (e.k0 + e.kCount) - lo)))

/-- Source segments of the scales (R226). -/
def Desc.scaleSegs (e : Desc) : List (Nat × Nat) :=
  if fmtBlock e.fmt then
    (upTo e.arrayCount).flatMap (fun a =>
      (upTo e.rCount).map (fun r =>
        (e.srcSaddr + a * e.arraySstride + r * e.srowStride + e.k0 / 32, cdiv e.kCount 32)))
  else []

/-- Everything that a descriptor reads, in order (R226, R227). -/
def Desc.segs (e : Desc) : List (Nat × Nat) :=
  if e.kind = 3 then [(e.srcAddr, e.bytes)] else e.elemSegs ++ e.scaleSegs

/-- Bytes that a descriptor reads. -/
def Desc.total (e : Desc) : Nat := e.segs.foldl (fun n s => n + s.2) 0

/-- The pieces of n bytes from position `pos` of a list of segments. -/
def takeSegs : List (Nat × Nat) → Nat → Nat → List (Nat × Nat)
  | [], _, _ => []
  | (a, len) :: rest, pos, n =>
    if n = 0 then []
    else if len ≤ pos then takeSegs rest (pos - len) n
    else
      let k := min n (len - pos)
      (a + pos, k) :: takeSegs rest 0 (n - k)

/-- Cut a byte string into pieces of given lengths. -/
def cutBytes : List Nat → List PByte → List (List PByte)
  | [], _ => []
  | n :: ns, bs => bs.take n :: cutBytes ns (bs.drop n)

/-- An element read from its row (R141, R144, R145): code, poison, and whether its trit byte is invalid (R147). -/
def rowElem (fmt bit : Nat) (row : List PByte) : Nat × Bool × Bool :=
  if fmt = 0x0D then
    let b := row.getD (bit / 5) PByte.zero
    if tritValid b.val.toNat then ((tritDigits b.val.toNat).getD (bit % 5) 1, b.poison, false) else (1, b.poison, true)
  else
    let w := fmtBits fmt
    let bs := (row.drop (bit / 8)).take ((bit % 8 + w - 1) / 8 + 1)
    (fld (leNat (bs.map PByte.val)) (bit % 8) w, bs.any PByte.poison, false)

/-- Element of source row r and index k of array ordinal a, from the pieces of `got` (R226). -/
def Desc.elem (e : Desc) (pieces : List (List PByte)) (a r k : Nat) : Nat × Bool × Bool :=
  let unit := if e.fmt = 0x0D then 1 else fmtBits e.fmt
  if e.trans then rowElem e.fmt (r * unit) (pieces.getD (a * e.kCount + k) [])
  else
    let skip := if e.fmt = 0x0D then e.k0 % 5 else e.k0 * unit % 8
    rowElem e.fmt (skip + k * unit) (pieces.getD (a * e.rCount + r) [])

/-- Scale of source row r and block b of array ordinal a. -/
def Desc.scale (e : Desc) (pieces : List (List PByte)) (a r b : Nat) : PByte :=
  (pieces.getD (e.elemSegs.length + a * e.rCount + r) []).getD b PByte.zero

/-- Writes of the scale bytes of n rows for one array: `at_ r b` is the offset of the scale of row r and block b. -/
def Desc.scalePuts (e : Desc) (pieces : List (List PByte)) (a : Nat) (at_ : Nat → Nat → Nat) : List BitPut :=
  if fmtBlock e.fmt then
    (upTo e.rCount).flatMap (fun r => (upTo (cdiv e.kCount 32)).map (fun b =>
      let s := e.scale pieces a r b
      ⟨8 * at_ r b, 8, s.val.toNat, s.poison⟩))
  else []

/-- Writes of the elements of one array: `at_ r k` lists where the bits of an element go, low part first (R218, R219, R221). -/
def Desc.elemPuts (e : Desc) (pieces : List (List PByte)) (a : Nat) (at_ : Nat → Nat → List (Nat × Nat)) : List BitPut :=
  (upTo e.rCount).flatMap (fun r => (upTo e.kCount).flatMap (fun k =>
    let x := e.elem pieces a r k
    let step := fun (acc : List BitPut × Nat) (s : Nat × Nat) =>
      (acc.1 ++ [(⟨s.1, s.2, acc.2 % 2 ^ s.2, x.2.1⟩ : BitPut)], acc.2 / 2 ^ s.2)
    ((at_ r k).foldl step ([], x.1)).1))

/-- A WSTAGE fills its weight bank (R218), and lists the invalid trits it met (R147). -/
def Desc.fillWeights (e : Desc) (pieces : List (List PByte)) (m : SlabMem) : SlabMem :=
  let w := fmtBits e.fmt
  let puts := e.elemPuts pieces 0 (fun r k => [(k * 128 * w + w * r, w)])
    ++ e.scalePuts pieces 0 (fun r b => 0x4000 + 128 * b + r)
  let spots := (upTo e.rCount).flatMap (fun r => (upTo e.kCount).map (fun k => (r, k)))
  let bad := spots.filter (fun s => (e.elem pieces 0 s.1 s.2).2.2)
  let key := fun (s : Nat × Nat) => e.bank * 16384 + s.2 * 128 + s.1
  { m with wbank := bankPuts (e.bank * wbankSize) puts m.wbank
           wbad := (m.wbad.filter (fun k => !(spots.map key).contains k)) ++ bad.map key }

/-- An ASTAGE skews its rows into the activation bank of one array (R219). -/
def Desc.fillActs (e : Desc) (pieces : List (List PByte)) (ordinal array : Nat) (m : SlabMem) : SlabMem :=
  let k := tileK e.tile
  let a := fmtBits e.fmt
  let rho2 := (pairRho2 e.fmt e.pfmt).getD 2
  let elems := e.elemPuts pieces ordinal (fun r i =>
    let bit := feedBit k a rho2 r i
    if rho2 = 1 then [(bit, 8), (bit + 8 * feedBytes k a 1, 8)] else [(bit, a)])
  let scales := e.scalePuts pieces ordinal (fun r b => feedScaleAt e.fmt k a rho2 e.m r b)
  { m with abank := bankPuts ((2 * array + e.bank) * abankSize) (elems ++ scales) m.abank }

/-- Bytes of an activation row in a Streak bank (R221). -/
def streakRowBytes (fmt k : Nat) : Nat := cdiv (k * fmtBits fmt) 8

/-- An SBANK fills its Streak bank without skew (R221). -/
def Desc.fillStreak (e : Desc) (pieces : List (List PByte)) (m : SlabMem) : SlabMem :=
  let w := fmtBits e.fmt
  let rb := streakRowBytes e.fmt e.klen
  let puts := e.elemPuts pieces 0 (fun r k => [(r * rb * 8 + w * k, w)])
    ++ e.scalePuts pieces 0 (fun r b => e.m * rb + r * cdiv e.klen 32 + b)
  { m with sbank := bankPuts (e.bank * sbankSize) puts m.sbank
           sbankErr := m.sbankErr.filter (fun x => !((putWords puts).map (fun wd => e.bank * 8192 + wd)).contains x) }

/-- What a descriptor leaves in the banks when it completes (R227). -/
def Desc.fill (e : Desc) (got : List PByte) (m : SlabMem) : SlabMem :=
  let pieces := cutBytes (e.segs.map (·.2)) got
  match e.kind with
  | 0 => e.fillWeights pieces m
  | 1 =>
    let arrays := arrayList e.arrays
    ((upTo arrays.length).zip arrays).foldl (fun m x => e.fillActs pieces x.1 x.2 m) m
  | 2 => e.fillStreak pieces m
  | _ => m

/-! ## Reading -/

/-- Read pieces of a memory at addresses given by a map, in order. -/
def Dev.readPieces (d : Dev) (at_ : Nat → Nat) : List (Nat × Nat) → List PByte × Dev
  | [] => ([], d)
  | (a, n) :: rest =>
    let r := d.readMem (at_ a) n
    let q := r.2.readPieces at_ rest
    (r.1 ++ q.1, q.2)

/-- Bytes a cycle that the slab store gives the memory channel (R187, R227). -/
def SlabSeq.storeRate (s : SlabSeq) (u : Nat) : Nat :=
  if s.storeReads.any (fun r => decide (r.1 ≤ u) && decide (u < r.2)) then 1024 else 2048

/-- Change a running descriptor of a channel (0 memory, 1 mesh): the first that still reads. -/
def modReading (mesh : Bool) (f : DmaJob → DmaJob) : List DmaJob → List DmaJob
  | [] => []
  | j :: js => if (j.desc.src == 1) == mesh ∧ j.readEnd.isNone then f j :: js else j :: modReading mesh f js

/-- The descriptor of a channel that reads in a cycle. -/
def SlabSeq.reading (s : SlabSeq) (mesh : Bool) (u : Nat) : Option DmaJob :=
  s.dmaRun.find? (fun j => (j.desc.src == 1) == mesh && j.readEnd.isNone
    && (match j.started with | some c => decide (c ≤ u) | none => false))

/-- The target of a COPY takes bytes read in a cycle: `wait` cycles later (R227); a DPA target is written over the routed plane. -/
def Dev.copyOut (d : Dev) (slab : Nat) (e : Desc) (off time : Nat) (bs : List PByte) : Dev :=
  match e.dst with
  | 0 => d.later slab (time + 1) (.store (e.dstAddr + off) bs)
  | 1 => d.later slab time (.fifo bs true)
  | 3 => d.later slab (time + 1) (.sbank e.bank (e.dstAddr + off) bs)
  | _ => d

/-- Cut n bytes from a DPA on into the pieces of single packets (R353, log entry 34). -/
def Dev.chunks (d : Dev) : Nat → Nat → Nat → Nat → List (Nat × Nat × Nat)
  | 0, _, _, _ => []
  | fuel + 1, a, off, n =>
    if n = 0 then []
    else
      let k := max 1 (d.chunkOf a n)
      (a, off, k) :: d.chunks fuel (a + k) (off + k) (n - k)

/-- Endpoint that a DPA lies at; an unmapped address goes to the Bedrock of its die, whose hub refuses it (R294). -/
def Dev.dpaEndpoint (d : Dev) (a : Nat) : Nat :=
  match d.unitOfDpa a with
  | some u => endpointOf d.fab.selfDevice u.1 u.2
  | none => endpointOf d.fab.selfDevice (fld a 46 2) 0x20

/-- Note a tag on the descriptor that is the last of the running ones to have been handled. -/
def addTag (tag : Nat) (match_ : DmaJob → Bool) (js : List DmaJob) : List DmaJob :=
  js.map (fun (j : DmaJob) => if match_ j then { j with tags := j.tags ++ [tag] } else j)

/-- Send the READ requests of a descriptor with SRC = DPA (R227, R366). -/
def Dev.sendReads (d : Dev) (slab cyc : Nat) (mine : DmaJob → Bool) (e : Desc) : Dev :=
  let src := endpointOf d.fab.selfDevice (slab / 8) (unitSlab (slab % 8))
  let part := d.holderNo (halfOfUnit slab)
  let step := fun (acc : List (Nat × Nat × Nat) × Nat) (s : Nat × Nat) => (acc.1 ++ d.chunks (s.2 + 1) s.1 acc.2 s.2, acc.2 + s.2)
  let pieces := (e.segs.foldl step ([], 0)).1
  Dev.each pieces (fun d p =>
    let (tag, d) := d.takeTag
    let dest := d.dpaEndpoint p.1
    let r : Req := ⟨src, dest, tag, 1, part, p.1, p.2.2, 0, d.clock.wall, .dma slab, p.2.1⟩
    let d := d.modSlab slab (fun s => { s with seq.dmaRun := addTag tag mine s.seq.dmaRun })
    d.request r cyc (mkPacket dest src part 1 0 false (msgHeader p.1 0 0 p.2.2 tag 0 0 0) [])) d

/-- Every packet of a transfer writes the memory of the tile that holds the target cairn, so that the signal rides on the last one (R329). -/
def Dev.ridesTo (d : Dev) (slab : Nat) (j : DmaJob) : Option (Nat × Nat) :=
  let e := d.mapEntry (tileOfSlab slab) j.x j.at_.sigCairn
  if j.at_.sigEn ∧ !mapRemote e then
    let unit := unitOfCairn (mapTile e)
    let here := fun a => d.unitOfDpa a == some (mapDie e, unit)
    if here j.desc.dstAddr ∧ here (j.desc.dstAddr + j.desc.bytes - 1) then some (mapIndex e, j.at_.sigInc) else none
  else none

/-- Send the WRITE requests of a COPY with DST = DPA (R227, R329, R366). -/
def Dev.sendWrites (d : Dev) (slab cyc : Nat) (mine : DmaJob → Bool) (j : DmaJob) : Dev :=
  let src := endpointOf d.fab.selfDevice (slab / 8) (unitSlab (slab % 8))
  let part := d.holderNo (halfOfUnit slab)
  let ride := d.ridesTo slab j
  Dev.each (d.chunks (j.desc.bytes + 1) j.desc.dstAddr 0 j.desc.bytes) (fun d p =>
    let (tag, d) := d.takeTag
    let dest := d.dpaEndpoint p.1
    let last := decide (p.2.1 + p.2.2 = j.desc.bytes)
    let sig := if last then ride else none
    let r : Req := ⟨src, dest, tag, 0, part, p.1, p.2.2, 0, d.clock.wall, .dma slab, p.2.1⟩
    let d := d.modSlab slab (fun s => { s with seq.dmaRun := addTag tag mine s.seq.dmaRun })
    let hdr := msgHeader p.1 (b2n sig.isSome) 0 p.2.2 tag ((sig.map (·.1)).getD 0) ((sig.map (·.2)).getD 0) 0
    d.request r cyc (mkPacket dest src part 0 0 sig.isSome hdr ((j.got.drop p.2.1).take p.2.2))) d

/-- What a slab out of service delivers is poisoned (R452). -/
def retiredBytes (gone : Bool) (bs : List PByte) : List PByte := if gone then bs.map (fun b => ⟨b.val, true⟩) else bs

/-- One channel reads in a cycle (R227, R452): up to its rate from the store, or what the inbound FIFO holds. -/
def Dev.dmaRead (d : Dev) (slab u : Nat) (mesh : Bool) : Dev :=
  let s := d.getSlab slab
  match s.seq.reading mesh u with
  | none => d
  | some j =>
    let e := j.desc
    let left := e.total - j.got.length
    let cyc := u - d.now (halfOfUnit slab) 0
    let mine := fun (q : DmaJob) => (q.desc.src == 1) == mesh && q.readEnd == some (u + 1)
    let got : List PByte × Dev :=
      if mesh then
        (s.mem.inFifo.take left, d.modSlab slab (fun s => { s with mem.inFifo := s.mem.inFifo.drop left }))
      else if e.src = 0 then d.readPieces (storeDpa slab) (takeSegs e.segs j.got.length (min left (s.seq.storeRate u)))
      else ([], d)
    let allRead : Bool := if e.src = 2 then j.tags.isEmpty else decide (left ≤ got.1.length)
    let gone := s.regs.retired
    let got := (retiredBytes gone got.1, got.2)
    let all := retiredBytes gone j.got ++ got.1
    let d := if gone then got.2.raiseOnce (d.slabEv slab evPoison 3) else got.2
    let d := d.modSlab slab (fun s => { s with seq.dmaRun := modReading mesh (fun q =>
      { q with got := all, readEnd := if allRead then some (u + 1) else none }) s.seq.dmaRun })
    let d := if e.kind = 3 ∧ e.src ≠ 2 ∧ ¬got.1.isEmpty then
        d.copyOut slab e j.got.length (if mesh then u + 1 else u + 8) got.1 else d
    let d := if allRead ∧ ¬mesh then d.modSlab slab (fun s => { s with seq.memFree := u + 1 }) else d
    if allRead ∧ e.kind = 3 ∧ e.dst = 2 then d.sendWrites slab cyc mine { j with got := all } else d

/-- Banks that the mesh channel writes in a cycle: those of its descriptor while bytes leave the inbound FIFO (R224, R227). -/
def Dev.meshWrites (d : Dev) (slab u : Nat) : List Nat :=
  let s := d.getSlab slab
  match s.seq.reading true u with
  | some j => if s.mem.inFifo.isEmpty then [] else j.desc.bankKeys
  | none => []

/-- The memory channel waits in a cycle, since the mesh channel writes a bank of its descriptor (R224). -/
def Dev.memoryWaits (d : Dev) (slab u : Nat) : Bool :=
  match (d.getSlab slab).seq.reading false u with
  | some j => j.desc.bankKeys.any (fun k => (d.meshWrites slab u).contains k)
  | none => false

/-- Both channels in one cycle (R224, R227). -/
def Dev.dmaCycle (d : Dev) (slab u : Nat) : Dev :=
  if d.memoryWaits slab u then d.dmaRead slab u true else (d.dmaRead slab u true).dmaRead slab u false

/-- Cycle from which a descriptor that has read everything may complete (R227), none while routed requests are open. -/
def DmaJob.done (j : DmaJob) : Option Nat :=
  match j.readEnd with
  | none => none
  | some r =>
    if !j.tags.isEmpty then none
    else if j.desc.src = 2 ∨ (j.desc.kind = 3 ∧ j.desc.dst = 2) then some r
    else if j.desc.src = 1 then some (r + 3) else some (r + 8)

end Sys2Proof.Machine
end

