-- ==== Sys2Proof/Machine/SlabRun.lean ====
section
/-! DEFINITION. What a slab does by itself from cycle to cycle: accumulator updates, Streak records (spec/07), drain rows (spec/06 R175 to R183),
DMA reading, selections. `slabRun` is the clock of a slab. -/

namespace Sys2Proof.Machine

/-! ## Streak records -/

/-- Segments, column groups and records of a Streak command (R191, R229). -/
def StreakOp.segs (k : StreakOp) : Nat := cdiv k.k 128
def StreakOp.groups (k : StreakOp) : Nat := cdiv k.n (streakG k.wfmt)
def StreakOp.records (k : StreakOp) : Nat := k.groups * k.segs

/-- Streaming duration of a Streak command (R191). -/
def StreakOp.dur (k : StreakOp) : Nat := k.records * k.m

/-- Offset and length of the element bytes of record r from WADDR (R229). -/
def StreakOp.elemAt (k : StreakOp) (r : Nat) : Nat × Nat :=
  if k.wfmt = 0x0D then
    let q := r % 320 * 2048
    (131072 * (r / 320) + q / 5, (q + 2047) / 5 + 1 - q / 5)
  else (r * streakEb k.wfmt, streakEb k.wfmt)

/-- First tile-local offset of the scale area (R229): the multiple of 64 at or after the end of the elements. -/
def StreakOp.scaleBase (k : StreakOp) : Nat :=
  let n := k.records
  let len := if k.wfmt = 0x0D then 131072 * (n / 320) + cdiv (n % 320 * 2048) 5 else n * streakEb k.wfmt
  cdiv (k.waddr + len) 64 * 64

/-- Weight of column c and K row i of record r, from its element and scale bytes (R229): value, poison, invalid trit. -/
def StreakOp.weight (k : StreakOp) (r : Nat) (elems scales : List PByte) (c i : Nat) : Val × Bool × Bool :=
  let e :=
    if k.wfmt = 0x0D then rowElem 0x0D (r % 320 * 2048 % 5 + c * 128 + i) elems
    else rowElem k.wfmt ((c * 128 + i) * fmtBits k.wfmt) elems
  if fmtBlock k.wfmt then
    let s := scales.getD (4 * c + i / 32) PByte.zero
    (decodeScaled k.wfmt e.1 s.val.toNat, e.2.1 || s.poison, e.2.2)
  else (decodeElem k.wfmt e.1, e.2.1, e.2.2)

/-- Activation of row m and K row i in a Streak bank (R221), with its poison. -/
def StreakOp.act (k : StreakOp) (tab : List (Nat × PByte)) (m i : Nat) : Val × Bool :=
  let base := k.abank * sbankSize
  let rb := streakRowBytes k.afmt k.k
  let w := fmtBits k.afmt
  let e := bankBits tab base (m * rb * 8 + w * i) w
  if fmtBlock k.afmt then
    let s := bankBits tab base (8 * (k.m * rb + m * cdiv k.k 32 + i / 32)) 8
    (decodeScaled k.afmt e.1 s.1, e.2 || s.2)
  else (decodeElem k.afmt e.1, e.2)

/-- Streak-bank words that hold row m of a segment's activations. -/
def StreakOp.rowWords (k : StreakOp) (m lo n : Nat) : List Nat :=
  let rb := streakRowBytes k.afmt k.k
  let a := (m * rb * 8 + fmtBits k.afmt * lo) / 64
  let b := (m * rb * 8 + fmtBits k.afmt * (lo + n) - 1) / 64
  (upTo (b + 1 - a)).map (fun i => k.abank * 8192 + a + i)

/-- Mark POISON_SEEN of the Streak unit (R198, R200). -/
def Dev.streakPoison (d : Dev) (slab : Nat) : Dev := d.modSlab slab (fun s => { s with regs.streakPoison := true })

/-- The sums of one row of a record (R192): poisoned by the row's uncorrectable words, by poisoned weights, by invalid trits (R147, R198). -/
def streakSums (k : StreakOp) (s : SlabMem) (ws : List (List (Val × Bool))) (lo n m : Nat) : List ColSum :=
  let as := (upTo n).map (fun i => k.act s.sbank m (lo + i))
  let bad := (k.rowWords m lo n).any (fun w => s.sbankErr.contains w)
  ws.map (fun col => let r := columnOf 0 (fmtInt k.afmt && fmtInt k.wfmt) as col; { r with poison := r.poison || bad })

/-- Read the bytes of a record from its source (R187, R229). -/
def Dev.readRecord (d : Dev) (slab : Nat) (k : StreakOp) (wsrc r : Nat) : List PByte × List PByte × Dev :=
  let at_ := fun o => if wsrc = 0 then storeDpa slab o else rowqDpa slab o
  let e := k.elemAt r
  let x := d.readMem (at_ (k.waddr + e.1)) e.2
  if fmtBlock k.wfmt then
    let g := 4 * streakG k.wfmt
    let y := x.2.readMem (at_ (k.scaleBase + r * g)) g
    (x.1, y.1, y.2)
  else (x.1, [], x.2)

/-- A ROWQ record claims banks of the quarry tile in its cycle, before scheduled entries (R187, R290). Tile key 32p + 16h + 4 row + 1. -/
def Dev.rowqClaim (d : Dev) (slab u off n : Nat) : Dev :=
  let tile := 4 * slab + 1
  Dev.each (upTo ((off + n - 1) / 64 + 1 - off / 64)) (fun d i =>
    { d with mesh.banks := tabSet 0 (64 * tile + (off / 64 + i) % 64) (u + 1) d.mesh.banks }) d

/-- The claims of record r, elements and scales. -/
def Dev.rowqClaims (d : Dev) (slab : Nat) (k : StreakOp) (u r : Nat) : Dev :=
  if k.rowq then
    let e := k.elemAt r
    let d := d.rowqClaim slab u (k.waddr + e.1) e.2
    if fmtBlock k.wfmt then d.rowqClaim slab u (k.scaleBase + r * (4 * streakG k.wfmt)) (4 * streakG k.wfmt) else d
  else d

/-- One step of a Streak command (R191, R192): activation row m against the weights of record r; its sums reach the entries 40 cycles later. -/
def Dev.streakRow (d : Dev) (slab x : Nat) (k : StreakOp) (u r m : Nat) (ws : List (List (Val × Bool))) : Dev :=
  let j := r % k.segs
  let n := min 128 (k.k - 128 * j)
  let col := r / k.segs * streakG k.wfmt
  let s := d.getSlab slab
  let sums := streakSums k s.mem ws (128 * j) n m
  let pair := s.regs.pair x
  let mode := if s.regs.retired then 9 else 0
  let d := d.later slab (u + 40) (.acc (col / 128) (physRow pair k.accRow m) (col % 128) sums false mode (k.combine || decide (0 < j)) pair)
  let d := if (k.rowWords m (128 * j) n).any (fun w => s.mem.sbankErr.contains w) then
      d.raise { d.slabEv slab evUncorrectable 1 with index := k.abank }
    else d
  if s.regs.retired || sums.any (·.poison) then d.streakPoison slab else d

/-- One record of a Streak command (R229): its weights are read once, in the step of row 0, and held for the M rows of the step. -/
def Dev.streakRecord (d : Dev) (slab x : Nat) (k : StreakOp) (u r : Nat) : Dev :=
  let n := min 128 (k.k - 128 * (r % k.segs))
  let cols := min (streakG k.wfmt) (k.n - r / k.segs * streakG k.wfmt)
  let rec_ := (d.rowqClaims slab k u r).readRecord slab k (b2n k.rowq) r
  let d := rec_.2.2
  let raw := (upTo cols).map (fun c => (upTo n).map (fun i => k.weight r rec_.1 rec_.2.1 c i))
  let trits := raw.any (fun c => c.any (fun w => w.2.2))
  let ws := raw.map (fun c => let bad := c.any (fun w => w.2.2); c.map (fun w => (w.1, w.2.1 || bad)))
  let d := d.streakRow slab x k u r 0 ws
  let d := if 1 < k.m then d.later slab (u + 1) (.streakRow x k r 1 ws) else d
  let d := if trits then d.raiseOnce (d.slabEv slab evPoison 4) else d
  if (d.getSlab slab).regs.retired then d.raiseOnce (d.slabEv slab evPoison 3) else d

/-! ## Drain rows -/

/-- Read one logical entry for a drain (R176 stage 1): its FP32 code and poison. -/
def Dev.drainEntry (d : Dev) (slab : Nat) (pair : Bool) (array row col : Nat) : Elem × Dev :=
  let k := accKey array row col
  let r := d.accRead slab k
  if pair then
    let q := r.2.accRead slab (k + 128)
    (⟨(rneFp32 (Val.add (fp32.decode r.1.code) (fp32.decode q.1.code))).code, r.1.poison || q.1.poison⟩, q.2)
  else (⟨r.1.code, r.1.poison⟩, r.2)

/-- Read the columns of one array's row in order. -/
def Dev.drainCols (d : Dev) (slab : Nat) (pair : Bool) (array row : Nat) : List Nat → List Elem × Dev
  | [] => ([], d)
  | c :: cs =>
    let r := d.drainEntry slab pair array row c
    let q := r.2.drainCols slab pair array row cs
    (r.1 :: q.1, q.2)

/-- Read a row of every enabled array. -/
def Dev.drainArrays (d : Dev) (slab : Nat) (pair : Bool) (row nv : Nat) : List Nat → List (List Elem) × Dev
  | [] => ([], d)
  | a :: as =>
    let r := d.drainCols slab pair a row (upTo nv)
    let q := r.2.drainArrays slab pair row nv as
    (r.1 :: q.1, q.2)

/-- Read the top-k input records of a row (R182, R212). -/
def Dev.drainInputs (d : Dev) (slab : Nat) (aux : Nat) : List Nat → List (List PByte) × Dev
  | [] => ([], d)
  | i :: is =>
    let r := d.readMem (storeDpa slab (aux + 80 * i)) 80
    let q := r.2.drainInputs slab aux is
    (r.1 :: q.1, q.2)

/-- CLEAR sets the entries that were read to +0 and clears their poison (R175, R179). -/
def clearRow (pair : Bool) (arrays : List Nat) (row nv : Nat) (t : List (Nat × AccWord)) : List (Nat × AccWord) :=
  arrays.foldl (fun t a => (upTo nv).foldl (fun t c =>
    let t := tabErase (accKey a row c) t
    if pair then tabErase (accKey a (row + 1) c) t else t) t) t

/-- In a slab out of service the entries that CLEAR would write are marked poisoned instead (R452). -/
def poisonRow (pair : Bool) (arrays : List Nat) (row nv : Nat) (t : List (Nat × AccWord)) : List (Nat × AccWord) :=
  let mark := fun (k : Nat) (t : List (Nat × AccWord)) => tabSet ({} : AccWord) k { tabGet ({} : AccWord) k t with poison := true } t
  arrays.foldl (fun t a => (upTo nv).foldl (fun t c =>
    let t := mark (accKey a row c) t
    if pair then mark (accKey a (row + 1) c) t else t) t) t

/-- Stages of a drain in a context (R175). -/
def drainStages (c : SCtx) (o : DrainOp) : DrainStages :=
  ⟨o.scale, if o.table = 0 then none else tabGet none (o.table - 1) c.tables, o.reduce, o.smallest, o.merge, o.colBase, o.outFmt, o.rmode, o.nonSat⟩

/-- Where row j of a drain goes, 12 cycles on (R179, R212, R214); a slab out of service writes it poisoned (R452). -/
def Dev.drainOut (d : Dev) (slab : Nat) (o : DrainOp) (u j : Nat) (r : DrainRow) : Dev :=
  let gone := (d.getSlab slab).regs.retired
  let r := { r with bytes := retiredBytes gone r.bytes }
  let sc := retiredBytes gone (r.scales.map (fun s => (⟨BitVec.ofNat 8 s, false⟩ : PByte)))
  let d := if gone then d.raiseOnce (d.slabEv slab evPoison 3) else d
  let off := o.dstAddr + j * r.bytes.length
  let so := o.auxAddr + j * sc.length
  match o.dst with
  | 0 =>
    let d := d.later slab (u + 13) (.store off r.bytes)
    if sc.isEmpty then d else d.later slab (u + 13) (.store so sc)
  | 1 => d.later slab (u + 12) (.fifo (r.bytes ++ sc) false)
  | _ =>
    let d := d.later slab (u + 13) (.sbank o.bank off r.bytes)
    if sc.isEmpty then d else d.later slab (u + 13) (.sbank o.bank so sc)

/-- One row of a drain in the cycle in which it is read (R176 to R183). -/
def Dev.drainOne (d : Dev) (slab x : Nat) (o : DrainOp) (u j : Nat) : Dev :=
  let pair := (d.getSlab slab).regs.pair x
  let arrays := arrayList o.arrays
  let row := physRow pair o.accRow j
  let r := d.drainArrays slab pair row o.nv arrays
  let d := r.2
  let ins := if o.reduce = 3 ∧ o.merge then
      d.drainInputs slab o.auxAddr ((upTo arrays.length).map (fun a => j * arrays.length + a))
    else ([], d)
  let d := ins.2
  let c := d.getSCtx (2 * slab + x)
  let out := drainRow (drainStages c o) r.1 ins.1 c.lfsr
  let d := (d.modSCtx (2 * slab + x) (fun c => { c with lfsr := out.lfsr })).accFlags slab out.flags
  let d := if o.clear then
      d.modSlab slab (fun s => { s with mem.acc := if s.regs.retired then poisonRow pair arrays row o.nv s.mem.acc else clearRow pair arrays row o.nv s.mem.acc })
    else d
  let d := if out.badInput then
      (d.modSlab slab (fun s => { s with regs.topkBad := true })).raiseOnce (d.slabEv slab evPoison 5)
    else d
  d.drainOut slab o u j out

/-! ## The clock of a slab -/

/-- Order in which effects due in one cycle are taken: entries and memory, then the drains' FIFO bytes, then COPY's (R214), then what reads. -/
def SlabEff.rank : SlabEff → Nat
  | .acc .. => 0
  | .store .. => 0
  | .sbank .. => 0
  | .fifo _ copy => if copy then 2 else 1
  | .drainRow .. => 3
  | .streakRec .. => 3
  | .streakRow .. => 3

/-- Take one effect in its cycle. -/
def Dev.slabEffect (d : Dev) (slab u : Nat) : SlabEff → Dev
  | .acc a row col sums skew mode combine pair =>
    if skew then
      match sums with
      | [] => d
      | v :: rest =>
        let d := d.accUpdate slab a row col mode combine pair v
        if rest.isEmpty then d else d.later slab (u + 1) (.acc a row (col + 1) rest true mode combine pair)
    else Dev.each ((upTo sums.length).zip sums) (fun d z => d.accUpdate slab a row (col + z.1) mode combine pair z.2) d
  | .streakRec x k c r =>
    let d := d.streakRecord slab x k u r
    if r + 1 < k.records then d.later slab (c + (r + 1) * k.m) (.streakRec x k c (r + 1)) else d
  | .streakRow x k r m ws =>
    let d := d.streakRow slab x k u r m ws
    if m + 1 < k.m then d.later slab (u + 1) (.streakRow x k r (m + 1) ws) else d
  | .drainRow x o j =>
    let d := d.drainOne slab x o u j
    if j + 1 < o.rows then d.later slab (u + 1) (.drainRow x o (j + 1)) else d
  | .store off bs => d.writeMem (storeDpa slab off) bs (d.slabWriter slab)
  | .fifo bs _ => d.pushOut slab (d.cycleValue (halfOfUnit slab) u) bs
  | .sbank b off bs => d.modSlab slab (fun s => { s with mem := s.mem.sbankBytes b off bs })

/-- Take every effect due by a cycle. -/
def Dev.slabEffects (d : Dev) (slab u : Nat) : Dev :=
  let es := (d.getSlab slab).seq.effs
  let now := es.filter (fun e => decide (e.1 ≤ u))
  let d := d.modSlab slab (fun s => { s with seq.effs := es.filter (fun e => decide (u < e.1)) })
  Dev.each (upTo 4) (fun d r => Dev.each (now.filter (fun e => e.2.rank == r)) (fun d e => d.slabEffect slab u e.2) d) d

/-- A descriptor that reads could go on in a cycle. -/
def SlabSeq.canRead (s : SlabSeq) (fifo : List PByte) (mesh : Bool) : Bool :=
  s.dmaRun.any (fun j => (j.desc.src == 1) == mesh && j.readEnd.isNone
    && (if mesh then !fifo.isEmpty else j.desc.src == 0 || j.tags.isEmpty))

/-- Nothing happens in a slab by itself any more: no effect waits, nothing reads, nothing can be selected. -/
def Dev.slabQuiet (d : Dev) (slab u : Nat) : Bool :=
  let s := d.getSlab slab
  s.seq.effs.isEmpty && !s.seq.canRead s.mem.inFifo true && !s.seq.canRead s.mem.inFifo false
  && (d.passPick slab u).isNone && (d.streakPick slab u).isNone

/-- One cycle of a slab: what it reads and selects in it, then the effects due in the next. -/
def Dev.slabCycle (d : Dev) (slab u : Nat) : Dev :=
  let d := ((d.dmaCycle slab u).selectPass slab u).selectStreak slab u
  (d.modSlab slab (fun s => { s with seq.cur := u + 1 })).slabEffects slab (u + 1)

/-- Run a slab for at most `fuel` cycles, up to the start of cycle t. -/
def Dev.slabCycles (d : Dev) (slab t : Nat) : Nat → Dev
  | 0 => d
  | fuel + 1 =>
    let u := (d.getSlab slab).seq.cur
    if t ≤ u then d
    else if d.slabQuiet slab u then d.modSlab slab (fun s => { s with seq.cur := t })
    else (d.slabCycle slab u).slabCycles slab t fuel

/-- Bring a slab up to the start of cycle t. -/
def Dev.slabRun (d : Dev) (slab t : Nat) : Dev := d.slabCycles slab t (t - (d.getSlab slab).seq.cur)

end Sys2Proof.Machine
end

