-- ==== Sys2Proof/Machine/ClusterRun.lean ====
section
/-! DEFINITION. A cluster tile from cycle to cycle (spec/09 R267 to R272): bank claims of its eleven ports, the grants of pebble accesses, and the
IN and OUT stream channels. `clusterRun` brings a cluster up to the start of a job cycle. -/

namespace Sys2Proof.Machine

/-- Size of a cluster memory (R237). -/
def cmemSize : Nat := 8388608

/-- DPA of an offset in a cluster's memory (R293). -/
def cmemDpa (cl off : Nat) : Nat := dpaCluster (cl / 8) (cl % 8) off

/-- Pieces of n bytes from an offset on, modulo 8 MiB (R267, R270). -/
def cmemPieces (off n : Nat) : List (Nat × Nat) :=
  let a := off % cmemSize
  if a + n ≤ cmemSize then [(a, n)] else [(a, cmemSize - a), (0, n - (cmemSize - a))]

/-- Read n bytes of cluster memory from an offset on. -/
def Dev.cmemRead (d : Dev) (cl off n : Nat) : List PByte × Dev := d.readPieces (cmemDpa cl) (cmemPieces off n)

/-- Write bytes of cluster memory from an offset on. -/
def Dev.cmemWrite (d : Dev) (cl off : Nat) (bs : List PByte) : Dev :=
  let w := d.slabWriter cl
  let a := off % cmemSize
  let n := cmemSize - a
  let d := d.writeMem (cmemDpa cl a) (bs.take n) w
  if n < bs.length then d.writeMem (cmemDpa cl 0) (bs.drop n) w else d

/-- Banks that n bytes from an offset on lie in (R267). -/
def cmemBanks (off n : Nat) : List Nat :=
  if n = 0 then [] else (upTo (min 64 ((off + n - 1) / 64 + 1 - off / 64))).map (fun i => (off / 64 + i) % 64)

/-- An event that a cluster tile raises about itself; `sub` is a pebble, `ctx` its context. -/
def Dev.clusterEv (d : Dev) (cl code cause sub ctx : Nat) : Ev :=
  { code := code, cause := cause, sev := 2, die := cl / 8, partition := d.holderNo (halfOfUnit cl), cls := 1, idx := unitCluster (cl % 8)
    sub := sub, ctx := ctx }

/-! ## FIFOs of the tile (R272) -/

/-- Bytes enter the inbound FIFO of a cluster tile; those beyond 16 KiB are discarded with EV_SLOT_COLLISION (R214, R272). -/
def Dev.clusterIn (d : Dev) (cl at_ : Nat) (bs : List PByte) : Dev :=
  let f := (d.getCluster cl).inFifo
  let d := d.modCluster cl (fun c => { c with inFifo := (f ++ bs).take localFifo })
  if localFifo < f.length + bs.length then
    (d.modCluster cl (fun c => { c with fifoOver := true })).raiseOnce { d.clusterEv cl 0x0201 2 0xFF 0xFF with index := 0, valueA := at_ }
  else d

/-! ## Stream channels (R270, R271) -/

/-- Bytes of a stream descriptor. -/
def SDesc.total (s : SDesc) : Nat := s.rows * s.rowBytes

/-- Cluster-memory pieces of n bytes of a stream from position `pos`: offset and length, row by row. `fuel` bounds the rows. -/
def StreamJob.pieces (j : StreamJob) : Nat → Nat → Nat → List (Nat × Nat)
  | 0, _, _ => []
  | fuel + 1, pos, n =>
    if n = 0 then []
    else
      let row := pos / j.desc.rowBytes
      let k := min n (j.desc.rowBytes - pos % j.desc.rowBytes)
      ((j.cmem + row * j.desc.cmemStride + pos % j.desc.rowBytes) % cmemSize, k) :: j.pieces fuel (pos + k) (n - k)

/-- Bytes that IN could move in a cycle (R271). -/
def Cluster.inMove (c : Cluster) (u : Nat) : Nat :=
  match c.chIn.run with
  | some j =>
    if j.done.isNone ∧ (match j.started with | some s => decide (s ≤ u) | none => false) = true then
      min 512 (min c.inFifo.length (j.desc.total - j.moved))
    else 0
  | none => 0

/-- Bytes that OUT could move in a cycle, as far as the FIFO has room (R271, R272). -/
def Cluster.outMove (c : Cluster) (u : Nat) : Nat :=
  match c.chOut.run with
  | some j =>
    if j.done.isNone ∧ (match j.started with | some s => decide (s ≤ u) | none => false) = true then
      min 512 (min (localFifo - c.outFifo.length) (j.desc.total - j.moved))
    else 0
  | none => 0

/-- Banks that a stream's next n bytes claim. -/
def StreamJob.banks (j : StreamJob) (n : Nat) : List Nat := (j.pieces 513 j.moved n).flatMap (fun p => cmemBanks p.1 p.2)

/-- Count moved bytes of a running stream; the last one fixes its completion cycle. -/
def StreamJob.move (j : StreamJob) (n done : Nat) : StreamJob :=
  { j with moved := j.moved + n, done := if j.moved + n = j.desc.total then some done else none }

/-- Write pieces of cluster memory in order. -/
def Dev.writePieces (d : Dev) (cl : Nat) : List (Nat × Nat) → List PByte → Dev
  | [], _ => d
  | (a, n) :: rest, bs => (d.cmemWrite cl a (bs.take n)).writePieces cl rest (bs.drop n)

/-- Read pieces of cluster memory in order. -/
def Dev.readStream (d : Dev) (cl : Nat) : List (Nat × Nat) → List PByte × Dev
  | [] => ([], d)
  | (a, n) :: rest =>
    let r := d.cmemRead cl a n
    let q := r.2.readStream cl rest
    (r.1 ++ q.1, q.2)

/-- The IN channel moves n bytes in a cycle: it completes 4 cycles after its last byte is written (R271). -/
def Dev.streamIn (d : Dev) (cl u n : Nat) : Dev :=
  match (d.getCluster cl).chIn.run with
  | some j =>
    if n = 0 then d
    else
      let bs := (d.getCluster cl).inFifo.take n
      let d := d.modCluster cl (fun c => { c with inFifo := c.inFifo.drop n, chIn.run := some (j.move n (u + 4)) })
      d.writePieces cl (j.pieces 513 j.moved n) bs
  | none => d

/-- The OUT channel moves n bytes in a cycle: it completes in the cycle after its last byte enters the FIFO (R271). -/
def Dev.streamOut (d : Dev) (cl u n : Nat) : Dev :=
  match (d.getCluster cl).chOut.run with
  | some j =>
    if n = 0 then d
    else
      let r := d.readStream cl (j.pieces 513 j.moved n)
      r.2.modCluster cl (fun c => { c with outFifo := c.outFifo ++ r.1, chOut.run := some (j.move n (u + 1)) })
  | none => d

/-! ## Pebble accesses (R268, R269) -/

/-- Bytes that an access covers. -/
def MemAcc.bytes (a : MemAcc) : Nat := if a.vec then 256 else 8

/-- Port of an access: 2 to 9 for p0 to p7 (R268). -/
def MemAcc.port (a : MemAcc) : Nat := 2 + a.ctx / 4 % 8

/-- Latency of a load whose banks are granted in the cycle after issue (R252, R266). -/
def MemAcc.latency (a : MemAcc) : Nat := if a.vec then 8 else 6

/-- Maximal runs of present bytes: offset and bytes. -/
def byteRuns : List (Option PByte) → Nat → List (Nat × List PByte)
  | [], _ => []
  | none :: t, i => byteRuns t (i + 1)
  | some b :: t, i =>
    match byteRuns t (i + 1) with
    | (o, bs) :: rest => if o = i + 1 then (i, b :: bs) :: rest else (i, [b]) :: (o, bs) :: rest
    | [] => [(i, [b])]

/-- A ready cycle that lies beyond every run: the access has not been granted yet. -/
def notGranted : Nat := 2 ^ 64

/-- The vector register after a load: enabled lanes from memory, the others kept or zero (R249), poison by granule (R274). -/
def loadVector (old : VReg) (a : MemAcc) (bs : List PByte) : VReg :=
  let outs := (upTo (2048 / a.width)).map (fun i =>
    let lane := (bs.drop (i * a.width / 8)).take (a.width / 8)
    let word := (bs.drop (8 * (i * a.width / 64))).take 8
    OutElem.mk (a.width * i) a.width (leNat (lane.map PByte.val)) (word.any PByte.poison) false false)
  writeElems old a.mask a.mz false outs

/-- A granted load writes its register (R269, R274), usable `latency` cycles after issue and later by the wait for its banks (R252). -/
def Dev.loadDone (d : Dev) (cl u : Nat) (a : MemAcc) : Dev :=
  let r := d.cmemRead cl a.off a.bytes
  let ready := u + a.latency - 1
  r.2.modPCtx a.ctx (fun c =>
    if a.vec then
      { c with v := tabSet {} a.reg (loadVector (tabGet {} a.reg c.v) a r.1) c.v, vReady := tabSet 0 a.reg ready c.vReady }
    else if a.reg = 0 then c
    else
      let v : SReg := ⟨BitVec.ofNat 64 (leNat (r.1.map PByte.val)), r.1.any PByte.poison⟩
      { c with s := tabSet {} a.reg v c.s, sReady := tabSet 0 a.reg ready c.sReady })

/-- A granted store writes memory, visible in the next cycle (R269). A V.ST counts as visible for FENCE three cycles after its grant (R252, log entry
45). -/
def Dev.storeDone (d : Dev) (cl u : Nat) (a : MemAcc) : Dev :=
  let d := Dev.each (byteRuns a.data 0) (fun d r => d.cmemWrite cl (a.off + r.1) r.2) d
  d.modPCtx a.ctx (fun c => { c with storesUntil := max c.storesUntil (if a.vec then u + 3 else u + 1) })

/-- Grant the accesses of one cycle in port order (R268): `taken` lists the banks of lower ports, and one port makes one access a cycle. -/
def grantPorts (u : Nat) : List MemAcc → List Nat → List Nat → List MemAcc
  | [], _, _ => []
  | a :: rest, taken, ports =>
    let bs := cmemBanks a.off a.bytes
    if a.issued < u ∧ !ports.contains a.port then
      if bs.any (fun b => taken.contains b) then grantPorts u rest (bs ++ taken) (a.port :: ports)
      else a :: grantPorts u rest (bs ++ taken) (a.port :: ports)
    else grantPorts u rest taken ports

/-- Insert an access by port; accesses of one port keep their order. -/
def insertAcc (a : MemAcc) : List MemAcc → List MemAcc
  | [] => [a]
  | x :: xs => if a.port < x.port then a :: x :: xs else x :: insertAcc a xs

/-- One cycle of a cluster (R268): IN, then OUT unless IN claims one of its banks, then the pebbles' accesses in port order. -/
def Dev.clusterCycle (d : Dev) (cl u : Nat) : Dev :=
  let c := d.getCluster cl
  let ni := c.inMove u
  let bi := match c.chIn.run with
    | some j => j.banks ni
    | none => []
  let no := c.outMove u
  let bo := match c.chOut.run with
    | some j => j.banks no
    | none => []
  let clash := bo.any (fun b => bi.contains b)
  let go := grantPorts u c.pend (bi ++ bo) []
  let d := d.modCluster cl (fun c => { c with pend := c.pend.filter (fun a => !go.contains a), cur := u + 1 })
  let d := if clash then d else d.streamOut cl u no
  let d := Dev.each (go.filter (·.load)) (fun d a => d.loadDone cl u a) d
  let d := Dev.each (go.filter (fun a => !a.load)) (fun d a => d.storeDone cl u a) d
  d.streamIn cl u ni

/-- Nothing moves in a cluster by itself at a cycle. -/
def Cluster.quiet (c : Cluster) (u : Nat) : Bool :=
  c.pend.isEmpty && c.inMove u == 0 && c.outMove u == 0
  && (match c.chIn.run with | some j => (match j.started with | some s => decide (s ≤ u) | none => true) | none => true)
  && (match c.chOut.run with | some j => (match j.started with | some s => decide (s ≤ u) | none => true) | none => true)

/-- Run a cluster for at most `fuel` cycles, up to the start of cycle t. -/
def Dev.clusterCycles (d : Dev) (cl t : Nat) : Nat → Dev
  | 0 => d
  | fuel + 1 =>
    let c := d.getCluster cl
    if t ≤ c.cur then d
    else if c.quiet c.cur then d.modCluster cl (fun c => { c with cur := t })
    else (d.clusterCycle cl c.cur).clusterCycles cl t fuel

/-- Bring a cluster up to the start of cycle t. -/
def Dev.clusterRun (d : Dev) (cl t : Nat) : Dev := d.clusterCycles cl t (t - (d.getCluster cl).cur)

/-- Bring every slab and cluster of a half up to a cycle. -/
def Dev.runHalf (d : Dev) (half t : Nat) : Dev :=
  Dev.each (unitsOfHalf half) (fun d k => (d.slabRun k t).clusterRun k t) d

end Sys2Proof.Machine
end

