-- ==== Sys2Proof/Machine/Link.lean ====
section
/-! DEFINITION. Links (spec/13): received flits, replay, training, scheduled slots and mate ports. A port operand is a link end (0 to 15 vein ports, 16 + l
the clockwise end of D2D link l, 20 + l its other end); training and registers belong to the port (`linkReg`). -/

namespace Sys2Proof.Machine

/-- Lanes of a port (R382). -/
def portLanes (n : Nat) : Nat := if n < 16 then 16 else 32

/-- Legal widths of a port, widest first (R382; the D2D fallback excluded). -/
def legalWidths (n : Nat) : List Nat := if n < 16 then [16, 12, 8, 4] else [32, 24, 16, 8]

/-- Bits set in a mask of so many lanes. -/
def countLanes (mask lanes : Nat) : Nat := ((upTo lanes).filter (fun i => mask.testBit i)).length

/-- Largest legal width of at most so many lanes. -/
def widthWithin (n lanes : Nat) : Option Nat := (legalWidths n).find? (fun w => decide (w ≤ lanes))

/-- The widest width that a port may run (R399, R419, R433): its sound lanes and LinkConfig.MAX_WIDTH. -/
def Dev.ownMaxWidth (d : Dev) (n : Nat) : Nat :=
  let g := (d.getLink n).regs
  let cap := (widthWithin n (portLanes n - countLanes g.laneFault (portLanes n))).getD 0
  if n < 16 then min cap (16 - 4 * g.maxWidth) else cap

/-- What the package offers (R400, R538): the common subset of its dies. -/
def pkgFeatures : Nat := (upTo 4).foldl (fun v p => v &&& Config.dieFeatures p) 0x7F
def pkgFormats : Nat := (upTo 4).foldl (fun v p => v &&& Config.dieFormats p) 0x1FFFF
def pkgScl : Nat := (upTo 4).foldl (fun v p => min v (Config.dieScl p)) 0xFFFF
def pkgLpv : Nat := Config.lpv

/-- An event about a port (R567: CLASS 2, INDEX the port). -/
def evLink (code cause sev n valueA valueB : Nat) : Ev :=
  { code := code, cause := cause, sev := sev, cls := 2, idx := n, die := linkDie n, valueA := valueA, valueB := valueB }

/-- EV_LINK_DEGRADED (R407, R408, R418) and DEGRADED_SEEN. -/
def Dev.linkDegraded (d : Dev) (n cause : Nat) : Dev :=
  let g := (d.getLink n).regs
  (d.raise (evLink 0x0301 cause 1 n g.width g.lastCause)).modLink n (fun l => { l with regs.degradedSeen := true })

/-- Vein ports marked MATE (R417). -/
def Dev.matePorts (d : Dev) : List Nat := (upTo 16).filter (fun n => (d.getLink n).regs.mate)

/-- MATE_OK of every port (R417). -/
def Dev.mateCheck (d : Dev) : Dev :=
  let ms := d.matePorts
  let ok := ms.all (fun n =>
    let l := d.getLink n
    l.regs.state == 3 && l.peer.mate && l.peer.features.testBit 6
    && ms.all (fun m => (d.getLink m).peer.uid == l.peer.uid))
  Dev.each (upTo 16) (fun d n =>
    let v := ok && ms.contains n
    if (d.getLink n).regs.mateOk = v then d else d.modLink n (fun l => { l with regs.mateOk := v })) d

/-- Begin an attempt at stage LOCK (R398, R406). -/
def Dev.beginAttempt (d : Dev) (n attempt : Nat) (fullEq : Bool) : Dev :=
  d.modLink n (fun l => { l with
    regs.state := 2
    regs.width := 0
    regs.attempt := attempt
    train := { stage := 1, since := d.clock.wall, attemptSince := d.clock.wall, fullEq := fullEq, cached := l.train.cached } })

/-- An ACTIVE port retrains (R409). -/
def Dev.retrain (d : Dev) (n cause : Nat) : Dev :=
  if (d.getLink n).regs.state = 3 then
    ((d.modLink n (fun l => { l with regs.lastCause := cause })).beginAttempt n 1 false).mateCheck
  else d

/-- Packets queued towards a port that left service are discarded (R368, R407). -/
def Dev.dropQueued (d : Dev) (n : Nat) : Dev :=
  let mine := fun (q : QPkt) => decide (64 ≤ q.outPort ∧ q.outPort < 128) && linkReg (q.outPort - 64) == n
  let out := d.fab.queue.filter mine
  let d := { d with fab.queue := d.fab.queue.filter (fun q => !mine q) }
  Dev.each out (fun d q =>
    (d.freeBuffer q.router q.inPort q.pkt.vc (q.pkt.len + 1)).modDrop q.router (fun c =>
      { c with linkDown := satAdd 16 c.linkDown 1 })) d

/-- A port leaves service as DOWN (R407). -/
def Dev.linkGoesDown (d : Dev) (n : Nat) : Dev :=
  let d := (d.modLink n (fun l => { l with regs.state := 4, regs.width := 0, train.downSince := d.clock.wall })).linkDegraded n 1
  (d.dropQueued n).mateCheck

/-- An attempt fails (R407): the next one, or DOWN after the third. -/
def Dev.attemptFails (d : Dev) (n cause : Nat) : Dev :=
  let l := d.getLink n
  let d := d.modLink n (fun l => { l with regs.lastCause := cause })
  if l.regs.attempt < 3 then d.beginAttempt n (l.regs.attempt + 1) l.train.fullEq else d.linkGoesDown n

/-! ## Routed flits -/

/-- A packet whose last flit has come reaches its router (R352). -/
def Dev.packetIn (d : Dev) (e : Nat) (p : Packet) : Dev :=
  { d with fab.queue := d.fab.queue ++ [⟨linkRouter e, 3, atInput, d.stamp 0, false, 0, p⟩] }

/-- Take a good routed flit of a VC (R352, R388). -/
def Dev.acceptFlit (d : Dev) (e vc : Nat) (bytes : List Byte) : Dev :=
  let h := flitHeader bytes
  let pay := (bytes.drop 16).take flitPayload
  if hKind h < 7 then
    let p := headPacket h pay
    if p.len = 0 then d.packetIn e p
    else d.modLink e (fun l => { l with routed.asm := l.routed.asm.filter (fun a => a.1 != vc) ++ [(vc, p)] })
  else
    match (d.getLink e).routed.asm.find? (fun a => a.1 == vc) with
    | none => d
    | some a =>
      let p := addFlit a.2 h pay
      let rest := (d.getLink e).routed.asm.filter (fun a => a.1 != vc)
      if h.testBit 71 then (d.modLink e (fun l => { l with routed.asm := rest })).packetIn e p
      else d.modLink e (fun l => { l with routed.asm := rest ++ [(vc, p)] })

/-- VC of a good routed flit. -/
def flitVc (h : Nat) : Nat := if hKind h < 7 then fld h 114 2 else fld h 69 2

/-- Payload of a NAK or REPLAY flit (R397). -/
def ctrlPayload (type beat slot last : Nat) : List Byte :=
  padTo flitPayload (natLe 2 type ++ natLe 7 beat ++ natLe 2 slot ++ natLe 1 last)

/-- Queue a link-control flit (R394). -/
def Dev.sendCtrl (d : Dev) (e : Nat) (payload : List Byte) : Dev :=
  d.modLink e (fun l => { l with routed.ctrlOut := l.routed.ctrlOut ++ [payload] })

/-- A bad routed flit (R395, R396): CRC_FAIL, and a NAK naming its beat and slot. -/
def Dev.badRouted (d : Dev) (e slot : Nat) : Dev :=
  let b := d.beat.number
  let d := d.modLink (linkReg e) (fun l => { l with regs.crcFail := satAdd 16 l.regs.crcFail 1 })
  (d.modLink e (fun l => { l with routed.naks := l.routed.naks ++ [⟨b, slot, d.clock.wall, 1⟩] })).sendCtrl e (ctrlPayload 0x0C01 b slot 1)

/-- Bad flits in 16 of any 64 consecutive beats retrain the port (R409). -/
def Dev.badBeat (d : Dev) (e : Nat) : Dev :=
  let w := d.clock.wall
  let keep := fun (l : List Nat) => insertNat w (l.filter (fun b => decide (w < b + 64)))
  let d := d.modLink e (fun l => { l with routed.badBeats := keep l.routed.badBeats })
  if 16 ≤ (d.getLink e).routed.badBeats.length then d.retrain (linkReg e) 2 else d

/-- CREDIT of a good flit (R393, R395): credits come back, and the oldest recorded flits of the VC are no longer kept. -/
def Dev.takeCredits (d : Dev) (e h : Nat) : Dev :=
  Dev.each (upTo 4) (fun d v =>
    let got := hCredit h v
    d.modLink e (fun l =>
      let n := (got + 64 - tabGet 0 v l.routed.peerFreed) % 64
      let kept := l.routed.record.foldl (fun (a : List SentFlit × Nat) f =>
        if f.vc = some v ∧ a.2 < n then (a.1, a.2 + 1) else (a.1 ++ [f], a.2)) ([], 0)
      { l with routed := { l.routed with
        peerFreed := tabSet 0 v got l.routed.peerFreed
        credits := tabSet 0 v (tabGet 0 v l.routed.credits - n) l.routed.credits
        record := kept.1 } })) d

/-- R395: a NAK: the sender answers with REPLAY, naming the VC of the flit it sent in that slot, and resends that VC's flits from there on. A flit that
was replayed 8 times and is bad again retrains the link (R396). -/
def nak (port : Nat) (payload : List Byte) (d : Dev) : Dev :=
  d.gate (decide (payload.length = flitPayload) && leAt payload 0 2 == 0x0C01 && d.linkUp port) (fun d =>
    let b := leAt payload 2 7
    let s := leAt payload 9 2
    let r := (d.getLink port).routed
    let d := d.modLink (linkReg port) (fun l => { l with regs.replays := satAdd 16 l.regs.replays 1 })
    match r.record.find? (fun f => f.beat == b && f.slot == s) with
    | none => (d.sendCtrl port (ctrlPayload 0x0C02 b s 0xFF)).pumpLinks
    | some f =>
      if 8 ≤ f.tries then d.retrain (linkReg port) 1
      else
        let vc := f.vc.getD 0
        let before := r.record.takeWhile (fun x => !(x.beat == b && x.slot == s))
        let after := r.record.drop before.length
        let again := (after.filter (fun x => x.vc == f.vc)).map (fun (x : SentFlit) => if x = f then { x with tries := x.tries + 1 } else x)
        ((d.modLink port (fun l => { l with routed := { l.routed with
          record := before ++ after.filter (fun x => x.vc != f.vc)
          resend := l.routed.resend ++ again } })).sendCtrl port (ctrlPayload 0x0C02 b s vc)).pumpLinks)

def execNak (port : Nat) (payload : List Byte) (s : State) : Host.Outcome State Fault Refusal := s.live (nak port payload)

/-- R395, R396: a REPLAY: held flits of the VC it names are discarded; once no NAK is open the other held flits go on in link order. -/
def replay (port : Nat) (payload : List Byte) (d : Dev) : Dev :=
  d.gate (decide (payload.length = flitPayload) && leAt payload 0 2 == 0x0C02 && d.linkUp port) (fun d =>
    let b := leAt payload 2 7
    let s := leAt payload 9 2
    let vc := leAt payload 11 1
    let d := d.modLink port (fun l => { l with routed := { l.routed with
      naks := l.routed.naks.filter (fun n => !(n.beat == b && n.slot == s))
      held := if vc = 0xFF then l.routed.held else l.routed.held.filter (fun f => f.vc != vc) } })
    let r := (d.getLink port).routed
    if r.naks.isEmpty then
      (Dev.each r.held (fun d f => d.acceptFlit port f.vc f.bytes)
        (d.modLink port (fun l => { l with routed.held := [] }))).pumpLinks
    else d)

def execReplay (port : Nat) (payload : List Byte) (s : State) : Host.Outcome State Fault Refusal := s.live (replay port payload)

/-- R396: no REPLAY within 4 µs of a NAK: the NAK is sent again; the third unanswered one retrains the link. -/
def nakResendTimer (port : Nat) (d : Dev) : Dev :=
  match (d.getLink port).routed.naks.find? (fun n => d.due n.since 4000) with
  | none => d
  | some n =>
    if 3 ≤ n.tries then d.retrain (linkReg port) 1
    else
      ((d.modLink port (fun l => { l with routed.naks := l.routed.naks.map (fun (x : OpenNak) =>
        if x = n then { x with tries := x.tries + 1, since := d.clock.wall } else x) })).sendCtrl port
          (ctrlPayload 0x0C01 n.beat n.slot (n.tries + 1))).pumpLinks

def execNakResendTimer (port : Nat) (s : State) : Host.Outcome State Fault Refusal := s.live (nakResendTimer port)

/-- A routed slot delivers a good flit (R389, R392, R395). -/
def Dev.routedFlit (d : Dev) (e slot : Nat) (bytes : List Byte) : Dev :=
  let h := flitHeader bytes
  let pay := (bytes.drop 16).take flitPayload
  if hKind h = 7 ∧ hSub h = subSched then
    d.raiseOnce { evLink 0x0201 4 2 (linkReg e) (65536 * slot) 0 with index := linkReg e, key := 1 }
  else if hKind h = 7 ∧ hSub h = subCtrl then
    if leAt pay 0 2 = 0x0C01 then nak e pay d else if leAt pay 0 2 = 0x0C02 then replay e pay d else d
  else if hKind h = 7 ∧ hSub h = subIdle then d
  else if (d.getLink e).routed.naks.isEmpty then d.acceptFlit e (flitVc h) bytes
  else d.modLink e (fun l => { l with routed.held := l.routed.held ++ [⟨flitVc h, bytes⟩] })

/-! ## Scheduled slots -/

/-- Job beat of the partition that owns a link end's allotment. -/
def Dev.allotBeat (d : Dev) (e : Nat) : Nat := (d.getPart (d.getLink e).sched.owner).job.jobBeat

/-- An allotment entry claims a slot of a direction on a job beat. -/
def Allot.claims (a : Allot) (dir slot j : Nat) : Bool :=
  a.txEntries.any (fun x => aDir x == dir && decide (aFirst x ≤ slot) && decide (slot < aFirst x + aCount x)
    && firesOn (aPeriod x) (aPhase x) j)

/-- The 30 words of a flit that was not received well, poisoned (R392, R415). -/
def poisonFlit : List PByte := poisonBytes flitPayload

/-- EV_POISON_DELIVERED of a port (R392, R410, R414, R415), once per beat. -/
def Dev.linkPoison (d : Dev) (e cause : Nat) : Dev :=
  d.raiseOnce { evLink evPoison cause 2 (linkReg e) 0 0 with index := linkReg e }

/-- A scheduled RX slot delivers a flit, good or not (R392, R415): it waits for its release time. -/
def Dev.schedFlit (d : Dev) (e slot : Nat) (good : Option (List Byte)) : Dev :=
  let j := d.allotBeat e
  let put := fun (d : Dev) (bs : List PByte) => d.modLink e (fun l => { l with sched.rx := l.sched.rx ++ [⟨j, slot, bs⟩] })
  match good with
  | none => (put d poisonFlit).linkPoison e 1
  | some f =>
    let h := flitHeader f
    if hKind h = 7 ∧ hSub h = subSched then
      let pay := (f.drop 16).take flitPayload
      put d ((upTo flitPayload).map (fun i => ⟨pay.getD i 0, (hPoison h).testBit (i / 8)⟩))
    else
      (put d poisonFlit).raiseOnce { evLink 0x0201 4 2 (linkReg e) (65536 * slot) 0 with index := linkReg e }

/-- R392: a flit of this beat arrives in a slot and is handled by that slot. The beat header of slot 0 itself is the command BEAT_HEADER_RECEIVE (log
entry 37). -/
def flitReceive (port slot : Nat) (bytes : List Byte) (d : Dev) : Dev :=
  d.gate (d.linkUp port && decide (bytes.length = 272)) (fun d =>
    let (good, fixed) := readFlit bytes
    let d := if fixed then d.modLink (linkReg port) (fun l => { l with regs.fecCorrected := satAdd 32 l.regs.fecCorrected 1 }) else d
    let d := if good.isNone then d.badBeat port else d
    let d := match good with
      | none => d
      | some f =>
        let h := flitHeader f
        let d := if port < 16 then d.recvSync port (hSync h) else d
        if hKind h = 7 then d.takeCredits port h else d
    if slot < 8 then d.pumpLinks
    else if d.schedSlot port (rxDir port) slot then (d.schedFlit port slot good).pumpLinks
    else
      match good with
      | none => (d.badRouted port slot).pumpLinks
      | some f => (d.routedFlit port slot f).pumpLinks)

def execFlitReceive (port slot : Nat) (bytes : List Byte) (s : State) : Host.Outcome State Fault Refusal :=
  s.live (flitReceive port slot bytes)

/-- Bytes of a scheduled FIFO (R414). -/
def fifoBytes : Nat := 32768

/-- Bytes enter a scheduled FIFO; those that find it full are discarded (R414). -/
def fifoPut (q bs : List PByte) : List PByte × Bool := (q ++ bs.take (fifoBytes - q.length), decide (fifoBytes < q.length + bs.length))

/-- EV_SLOT_COLLISION with cause FIFO_FULL of a port (R414, R569), once per beat; `at_` holds the lane and the first cycle or slot. -/
def Dev.fifoFull (d : Dev) (e at_ : Nat) : Dev := d.raiseOnce { evLink 0x0201 2 2 (linkReg e) at_ 0 with index := linkReg e }

/-- Feed a scheduled flit's payload to the Assay units that watch a link end (R583): source 1 LINK_RX, 2 LINK_TX; a poisoned word goes in as eight zeros. -/
def Dev.assayLink (d : Dev) (e source : Nat) (pay : List PByte) : Dev :=
  if d.test.assay.isEmpty then d
  else Dev.each (upTo 8) (fun d u =>
    let b := (d.getAssay (8 * linkDie e + u)).blk
    if b.source = source ∧ b.port = linkReg e then
      d.modAssay (8 * linkDie e + u) (fun a => (upTo 30).foldl (fun a i =>
        let w := (pay.drop (8 * i)).take 8
        a.feedWord (w.map PByte.val) (w.any PByte.poison)) a)
    else d) d

/-- R410, R414, R40: a scheduled TX slot takes 240 bytes of the outbound FIFO; missing words go out poisoned. While the port trains, or where the slot
does not exist at its width, the bytes leave the FIFO and nothing is sent. -/
def linkTxSlot (port slot : Nat) (d : Dev) : Dev :=
  d.gate (d.schedSlot port (txDir port) slot) (fun d =>
    let q := (d.getLink port).sched.outFifo
    let bs := q.take flitPayload
    let d := d.modLink port (fun l => { l with sched.outFifo := q.drop flitPayload })
    let d := if bs.length < flitPayload ∧ d.linkUp port then d.linkPoison port 1 else d
    if d.linkUp port ∧ slot < 40 * (d.getLink (linkReg port)).regs.width then
      let words := (upTo 30).filter (fun w => decide (bs.length < 8 * (w + 1)) || ((bs.drop (8 * w)).take 8).any (·.poison))
      let mask := words.foldl (fun v w => v ||| 2 ^ w) 0
      (d.assayLink port 2 (bs ++ poisonBytes (flitPayload - bs.length))).emit (.flit port slot (mkFlit (otherHeader (d.syncOf port) mask subSched 0 false (d.creditList port))
        (padTo flitPayload (bs.map PByte.val))))
    else d)

def execLinkTxSlot (port slot : Nat) (s : State) : Host.Outcome State Fault Refusal := s.live (linkTxSlot port slot)

/-- T_rel of a slot in units of 1/96 ns over W_ref = 12, 24, 16, 32 (R415): RELEASE × 12 + (s + 1) × 17 × 96 / W_ref. -/
def tRel (a : Allot) (e slot : Nat) : Nat :=
  let w := if e < 16 then (if a.widthProof then 12 else 16) else (if a.widthProof then 24 else 32)
  (if rxDir e = 0 then a.release0 else a.release1) * 12 + (slot + 1) * 17 * 96 / w

/-- R415, R410, R40: at T_rel a slot's payload is released into the inbound FIFO, poisoned if it was not decoded. The slot belongs to the job beat
that lies T_rel back. -/
def schedFlitRelease (port slot : Nat) (d : Dev) : Dev :=
  match (d.getLink port).sched.allot with
  | none => d
  | some a =>
    let back := tRel a port slot / (680 * 96)
    let j := d.allotBeat port - back
    d.gate ((d.getPart (d.getLink port).sched.owner).running && decide (back ≤ d.allotBeat port) && a.claims (rxDir port) slot j) (fun d =>
      let s := (d.getLink port).sched
      let found := s.rx.find? (fun r => r.slot == slot && r.beat == j)
      let d := match found with
        | some _ => d
        | none => d.linkPoison port (if d.linkUp port ∧ slot < 40 * (d.getLink (linkReg port)).regs.width then 2 else 1)
      let pay := (found.map (·.bytes)).getD poisonFlit
      let d := d.assayLink port 1 pay
      let (q, full) := fifoPut s.inFifo pay
      let d := d.modLink port (fun l => { l with sched := { l.sched with
        inFifo := q, rx := l.sched.rx.filter (fun r => !(r.slot == slot && r.beat == j)) } })
      if full then d.fifoFull port (2 ^ 16 * slot) else d)

def execSchedFlitRelease (port slot : Nat) (s : State) : Host.Outcome State Fault Refusal := s.live (schedFlitRelease port slot)

/-! ## Training -/

/-- Deadline of a training stage in ns (R406). -/
def stageNs (stage : Nat) (fullEq : Bool) : Nat :=
  if stage = 1 then 2000000 else if stage = 2 then (if fullEq then 1400000000 else 10000000)
  else if stage = 3 ∨ stage = 4 then 1000000 else 2000000

/-- The width and used mask that a port agrees from both masks (R403). -/
def agreeWidth (n a maxW : Nat) : Option (Nat × Nat) :=
  ((legalWidths n).find? (fun w => decide (w ≤ countLanes a (portLanes n) ∧ w ≤ maxW))).map (fun w =>
    (w, (((upTo (portLanes n)).filter (fun i => a.testBit i)).take w).foldl (fun v i => v ||| 2 ^ i) 0))

/-- CHK of R404. -/
def widthChk (w u : Nat) : Nat := w + 256 * (fld u 0 8 ^^^ fld u 8 8 ^^^ fld u 16 8 ^^^ fld u 24 8)

/-- Own MASK of a port (R403). -/
def Link.ownMask (l : Link) (n : Nat) : Nat :=
  (upTo (portLanes n)).foldl (fun v i => if l.train.lanesUp.testBit i ∧ !l.regs.laneFault.testBit i then v ||| 2 ^ i else v) 0

/-- The peer's capability block is taken (R399, R401, R402, R611): the agreed subset, the downgrade event, or a failed attempt; two vein ports of one
device do not train. -/
def Dev.takeCaps (d : Dev) (n : Nat) (cap : List Byte) : Dev :=
  let lpv := leAt cap 0 1
  let scl := leAt cap 2 2
  let feat := leAt cap 8 8 &&& pkgFeatures
  let feat := if scl = pkgScl then feat else feat - (if feat.testBit 0 then 1 else 0)
  let fmts := leAt cap 4 4 &&& pkgFormats
  let dev := leAt cap 18 2
  let d := d.modLink n (fun l => { l with
    peer := { lpv := min lpv pkgLpv, dieRev := leAt cap 1 1, scl := scl, device := dev % 4096, deviceValid := dev.testBit 15
              port := leAt cap 20 1 % 32, mate := (leAt cap 21 1).testBit 0, uid := leAt cap 24 8, features := feat, formats := fmts }
    train.capSeen := true
    train.peerMax := leAt cap 16 1
    regs.schedOk := feat.testBit 0 })
  if lpv = 0 ∨ pkgLpv = 0 ∨ (16 ≤ n ∧ leAt cap 17 1 ≠ 1) ∨ (n < 16 ∧ leAt cap 24 8 = Config.deviceUid % 2 ^ 64) then d.attemptFails n 7
  else if feat ≠ pkgFeatures ∨ fmts ≠ pkgFormats ∨ lpv < pkgLpv ∨ scl ≠ pkgScl then
    (d.raise (evLink 0x0303 1 1 n (pkgFeatures - feat) ((pkgFormats - fmts) + 2 ^ 32 * min lpv pkgLpv + 2 ^ 40 * min scl pkgScl))).modLink n
      (fun l => { l with regs.downgradeSeen := true })
  else d

/-- The width that both sides must confirm, from the masks as they stand; none fails the attempt (R403). -/
def Dev.formWidth (d : Dev) (n : Nat) : Dev :=
  let l := d.getLink n
  match agreeWidth n (l.ownMask n &&& l.train.peerMask) (min (d.ownMaxWidth n) l.train.peerMax) with
  | some (w, u) => d.modLink n (fun l => { l with train.width := w, train.used := u, regs.offered := l.ownMask n, regs.fallback := false })
  | none => (d.modLink n (fun l => { l with regs.offered := l.ownMask n })).attemptFails n 7

/-- Enter the next stage (R406). -/
def Dev.nextStage (d : Dev) (n : Nat) : Dev :=
  let s := (d.getLink n).train.stage + 1
  let d := d.modLink n (fun l => { l with train := { l.train with
    stage := s, since := d.clock.wall, ownDone := false, peerDone := false, round := 1, samples := [], capSeen := false } })
  if s = 5 then d.formWidth n else d

/-- L of a port after its samples (R405). -/
def latencyOf (samples : List Int) (width : Nat) : Nat :=
  let sum : Int := samples.foldl (· + ·) 0
  min 65535 ((sum / (2 * samples.length : Nat)).toNat + Config.headerTime width)

/-- A good training block in a port's own stage (R398 to R406). -/
def Dev.trainStep (d : Dev) (n : Nat) (b : List Byte) (localTime : Nat) (localDone : Bool) : Dev :=
  let t := (d.getLink n).train
  let stage := leAt b 2 1
  let same := stage == t.stage
  let peer := (same && (leAt b 7 1).testBit 0) || decide (t.stage < stage)
  let d := d.modLink n (fun l => { l with train.peerDone := l.train.peerDone || peer })
  let own := fun (d : Dev) => d.modLink n (fun l => { l with train.ownDone := true })
  let d :=
    if t.stage ≤ 2 then (if localDone then own d else d)
    else if t.stage = 3 then
      let d := if same then d.modLink n (fun l => { l with train.peerMask := leAt b 8 4 }) else d
      if localDone then own d else d
    else if t.stage = 4 then (if same ∧ !t.capSeen then own (d.takeCaps n ((b.drop 16).take 32)) else d)
    else if t.stage = 5 then
      (if same ∧ leAt b 4 1 = t.round ∧ leAt b 12 1 = t.width ∧ leAt b 14 2 = widthChk t.width t.used then own d else d)
    else if t.stage = 6 then
      if same ∧ t.samples.length < 64 then
        let d := d.modLink n (fun l => { l with train.samples := l.train.samples ++ [(localTime : Int) - leAt b 48 8 - leAt b 56 4] })
        if t.samples.length = 63 then
          own { d with beat.latency := tabSet 0 n (latencyOf (d.getLink n).train.samples t.width) d.beat.latency }
        else d
      else d
    else d
  let l := d.getLink n
  if l.regs.state = 2 ∧ l.train.stage = t.stage ∧ l.train.ownDone ∧ l.train.peerDone ∧ l.train.stage < 7 then d.nextStage n else d

/-- The capability block that a port sends (R399, R538). -/
def Dev.capBlock (d : Dev) (n : Nat) : List Byte :=
  natLe 1 pkgLpv ++ natLe 1 ((upTo 4).foldl (fun v p => min v (Config.dieRev p)) (Config.dieRev 0)) ++ natLe 2 pkgScl ++ natLe 4 pkgFormats
  ++ natLe 8 pkgFeatures ++ natLe 1 (d.ownMaxWidth n) ++ natLe 1 (b2n (decide (16 ≤ n)))
  ++ natLe 2 (d.fab.selfDevice % 4096 + 32768 * b2n d.fab.selfValid) ++ natLe 1 n ++ natLe 1 (b2n (d.getLink n).regs.mate) ++ natLe 2 0
  ++ natLe 8 Config.deviceUid

/-- The next training block of a port on a lane (R398, R403, R404, R406). The requests of the receiver logic and the time stamps are free values (log
entry 4). -/
def Dev.trainingOut (d : Dev) (n lane : Nat) : Dev :=
  let l := d.getLink n
  let t := l.train
  let k := d.clock.freeCtr
  let free := fun (i : Nat) => natLe 4 (Config.freeBits (k + i)).toNat
  let body := natLe 2 0x7E81 ++ natLe 1 t.stage ++ natLe 1 lane ++ natLe 1 (if t.stage = 5 then t.round else l.regs.attempt) ++ (free 0).take 2
    ++ natLe 1 (b2n t.ownDone + 2 * b2n (!t.cached)) ++ natLe 4 (l.ownMask n) ++ natLe 1 t.width ++ natLe 1 0
    ++ natLe 2 (if t.stage = 5 then widthChk t.width t.used else 0) ++ d.capBlock n ++ free 1 ++ free 2 ++ free 3
  { d with clock.freeCtr := k + 4 }.emit (.training n (body ++ natLe 4 (crc32c body)))

/-- R398, R401 to R406, R408, R409: a training block arrives on a receive lane. `localDone` says that the lane logic has finished what the stage asks of it
(CDR lock, equalisation, deskew); `localTime` is the arrival in units of 15.625 ps. -/
def trainingBlockReceive (port lane : Nat) (bytes : List Byte) (localTime : Nat) (localDone : Bool) (d : Dev) : Dev :=
  let n := linkReg port
  let inv := leAt bytes 0 2 == 0x817E
  let b := if inv then bytes.map (fun x => ~~~x) else bytes
  d.gate (decide (bytes.length = 64) && leAt b 0 2 == 0x7E81 && crc32c (b.take 60) == leAt b 60 4 && decide (n < 20)) (fun d =>
    let g := (d.getLink n).regs
    let d :=
      if g.state = 3 then d.retrain n 4
      else if g.state = 1 then d.beginAttempt n 1 (!(d.getLink n).train.cached)
      else d
    if (d.getLink n).regs.state ≠ 2 then d
    else
      let d := d.modLink n (fun l => { l with train := { l.train with
        lanesUp := if leAt b 3 1 = lane then l.train.lanesUp ||| 2 ^ lane else l.train.lanesUp
        inverted := if inv then l.train.inverted ||| 2 ^ lane else l.train.inverted
        fullEq := l.train.fullEq || (leAt b 7 1).testBit 1 } })
      let d := d.trainStep n b localTime localDone
      if (d.getLink n).regs.state = 2 then d.trainingOut n lane else d)

/-- R406, R407: a stage has not ended by its deadline, or the attempt by its limit: the attempt fails. -/
def trainingStageDeadline (port : Nat) (d : Dev) : Dev :=
  let n := linkReg port
  let t := (d.getLink n).train
  d.gate ((d.getLink n).regs.state == 2 && (d.due t.since (stageNs t.stage t.fullEq)
      || d.due t.attemptSince (if t.fullEq then 1500000000 else 20000000))) (fun d => d.attemptFails n 6)

def execTrainingStageDeadline (port : Nat) (s : State) : Host.Outcome State Fault Refusal := s.live (trainingStageDeadline port)

/-- R404: CHK is not confirmed within 1 ms: the exchange repeats once, then the fixed set of lanes 0 to 3 applies. -/
def widthConfirmTimeout (port : Nat) (d : Dev) : Dev :=
  let n := linkReg port
  let l := d.getLink n
  d.gate (l.regs.state == 2 && l.train.stage == 5 && !l.train.ownDone && d.due l.train.since 1000000) (fun d =>
    if l.train.round = 1 then d.modLink n (fun l => { l with train.round := 2, train.since := d.clock.wall })
    else
      let d := (d.raise (evLink 0x0302 0 1 n (l.ownMask n) l.train.peerMask)).modLink n (fun l => { l with
        regs.fallback := true, regs.mismatchSeen := true, train.width := 4, train.used := 0xF, train.ownDone := true })
      if l.ownMask n % 16 ≠ 15 then d.attemptFails n 7 else d.nextStage n)

def execWidthConfirmTimeout (port : Nat) (s : State) : Host.Outcome State Fault Refusal := s.live (widthConfirmTimeout port)

/-- R406 step 7, R393, R40: at the first beat edge after LATENCY the port becomes ACTIVE at the agreed width, with full credits and an empty replay
record; its expected beat number is forgotten (R42). -/
def portActive (port : Nat) (d : Dev) : Dev :=
  let n := linkReg port
  let l := d.getLink n
  d.gate (l.regs.state == 2 && l.train.stage == 7) (fun d =>
    let ends := if n < 16 then [n] else [n, n + 4]
    let d := Dev.each ends (fun d e => d.modLink e (fun l => { l with routed := { txSlot := 8 } })) d
    let d := d.modLink n (fun l => { l with
      regs := { l.regs with state := 3, width := l.train.width, used := l.train.used }
      train.cached := true })
    let d := (d.modBPort n (fun b => { b with expected := none })).mateCheck
    let w := (d.getLink n).regs
    (if w.width < min (d.ownMaxWidth n) l.train.peerMax ∨ w.fallback then d.linkDegraded n 2 else d).pumpLinks)

def execPortActive (port : Nat) (s : State) : Host.Outcome State Fault Refusal := s.live (portActive port)

/-- R407: every 10 s a DOWN port with AUTO_RETRY starts a new series of attempts. -/
def portDownRetry (port : Nat) (d : Dev) : Dev :=
  let n := linkReg port
  let l := d.getLink n
  d.gate (l.regs.state == 4 && l.regs.autoRetry && d.due l.train.downSince 10000000000) (fun d => d.beginAttempt n 1 true)

def execPortDownRetry (port : Nat) (s : State) : Host.Outcome State Fault Refusal := s.live (portDownRetry port)

/-- R408: no signal on any lane for 100 µs: the port waits for its peer. -/
def peerSilence (port : Nat) (d : Dev) : Dev :=
  let n := linkReg port
  d.gate ((d.getLink n).regs.state == 2 || (d.getLink n).regs.state == 3) (fun d =>
    (((d.linkDegraded n 3)).modLink n (fun l => { l with regs.state := 1, regs.width := 0, train := { cached := l.train.cached } })).mateCheck)

def execPeerSilence (port : Nat) (s : State) : Host.Outcome State Fault Refusal := s.live (peerSilence port)

/-- R409: a receive lane loses CDR lock: an ACTIVE port retrains. -/
def cdrLoss (port : Nat) (d : Dev) : Dev := d.retrain (linkReg port) 3

def execCdrLoss (port : Nat) (s : State) : Host.Outcome State Fault Refusal := s.live (cdrLoss port)

/-- The lowest-numbered ACTIVE mate port (R418). -/
def Dev.mateInUse (d : Dev) : Option Nat := d.matePorts.find? (fun n => (d.getLink n).regs.state == 3)

/-- R418: the mate port in use has left ACTIVE: mate traffic moves to the other at the next beat edge, or MATE_LOST is reported. -/
def matePortSwitch (d : Dev) : Dev :=
  match d.mirror.matePort with
  | none => d
  | some n =>
    d.gate ((d.getLink n).regs.state != 3) (fun d =>
      match d.mateInUse with
      | some m => { d with mirror.matePort := some m }
      | none => { d.linkDegraded n 4 with mirror.matePort := none })

def execMatePortSwitch (s : State) : Host.Outcome State Fault Refusal := s.live matePortSwitch

end Sys2Proof.Machine
end

