-- ==== Sys2Proof/Machine/ImageBase.lean ====
section
/-! DEFINITION. Schedule images (spec/08 R230 to R234): how a check fails, the header and the section table. Offsets of flaws are bits from
the first byte of a section; the one with the least key decides in a unit (R234, R447). -/

namespace Sys2Proof.Machine

/-- A failed check of a section: its status (R447), the first bit of its field from the section's first byte, or the LENGTH field of the
section's table entry where `short`. -/
structure Flaw where
  status : Nat
  bit : Nat
  short : Bool
deriving DecidableEq, Repr

/-- Statuses of R447. -/
def stOk : Nat := 0
def stDraining : Nat := 1
def stDenied : Nat := 2
def stBad : Nat := 3
def stRange : Nat := 4
def stNotReady : Nat := 5
def stConflict : Nat := 6
def stTimeout : Nat := 7
def stNoResource : Nat := 8
def stIncompatible : Nat := 9
def stInternal : Nat := 10

/-- The flaw of a check, where it fails. -/
def flaw (status : Nat) (c : Bool) (bit : Nat) : List Flaw := if c then [⟨status, bit, false⟩] else []
def badIf (c : Bool) (bit : Nat) : List Flaw := flaw stBad c bit
def rangeIf (c : Bool) (bit : Nat) : List Flaw := flaw stRange c bit
def absentIf (c : Bool) (bit : Nat) : List Flaw := flaw stIncompatible c bit
def clashIf (c : Bool) (bit : Nat) : List Flaw := flaw stConflict c bit
def shortIf (c : Bool) : List Flaw := if c then [⟨stBad, 0, true⟩] else []

/-- Which of two flaws of one unit decides (R234): presence last, then the lower field, then encoding before range. -/
def Flaw.before (a b : Flaw) : Bool :=
  let k := fun (f : Flaw) => (if f.status = stIncompatible then 2 ^ 40 else 0) + 16 * f.bit + f.status
  decide (k a ≤ k b)

/-- The flaw that decides a unit. -/
def unitFlaw (l : List Flaw) : Option Flaw :=
  l.foldl (fun (r : Option Flaw) f => match r with | none => some f | some g => if f.before g then some f else some g) none

/-- A flaw moved by an offset in bits. -/
def Flaw.shift (n : Nat) (f : Flaw) : Flaw := { f with bit := f.bit + n }

/-- The first unit of a list that has a flaw. -/
def firstUnit (l : List (Option Flaw)) : Option Flaw := l.findSome? id

/-- The lowest set bit of a number below 2 ^ n. -/
def lowBit (n w : Nat) : Nat := ((upTo n).find? (fun i => w.testBit i)).getD 0

/-- Reserved bits under a mask are zero (R13). -/
def reservedIf (w mask n : Nat) : List Flaw := badIf (w &&& mask != 0) (lowBit n (w &&& mask))

/-- Reserved bytes from one offset up to another are zero (R13). -/
def zeroBytes (bs : List Byte) (lo hi : Nat) : List Flaw :=
  match (upTo (hi - lo)).find? (fun i => bs.getD (lo + i) 0 != 0) with
  | some i => [⟨stBad, 8 * (lo + i), false⟩]
  | none => []

/-- A section of an image (R231): its index, where its table entry stands, and its body. -/
structure Sect where
  idx : Nat
  entryAt : Nat
  type : Nat
  target : Nat
  off : Nat
  len : Nat
  aux : Nat
  body : List Byte
deriving DecidableEq, Repr

/-- Why an image is rejected (R234, R451): status, DETAIL, section index and check order. -/
structure ImgFail where
  status : Nat
  detail : Nat
  section_ : Nat
  order : Nat
deriving DecidableEq, Repr

/-- DETAIL of a field at a byte of the image (R447). -/
def bufferDetail (status off : Nat) : Nat :=
  if status = stBad ∨ status = stRange then 2 ^ 31 + off else if status = stConflict then 0xFFFFFFFF else 0

/-- A failure of the header, which R451 numbers 0xFFFF_FFFF. -/
def headFail (status off order : Nat) : ImgFail := ⟨status, bufferDetail status off, 0xFFFFFFFF, order⟩

/-- A failure in a section's table entry. -/
def Sect.entryFail (s : Sect) (status off order : Nat) : ImgFail := ⟨status, bufferDetail status (s.entryAt + off), s.idx, order⟩

/-- A failure in a section's body (R447): a length that does not fit names the LENGTH field. -/
def Sect.fail (s : Sect) (f : Flaw) : ImgFail :=
  ⟨f.status, bufferDetail f.status (if f.short then s.entryAt + 16 else s.off + f.bit / 8), s.idx, 7⟩

/-- CHECK of an image: CRC-32C over the image with bytes 28 to 31 read as zero (R230). -/
def imageCheck (img : List Byte) : Nat := crc32c (img.take 28 ++ [0, 0, 0, 0] ++ img.drop 32)

/-- R234 steps 2 to 4: the header, checked in the order of their rows. -/
def headerFail (img : List Byte) (scl formats halves : Nat) : Option ImgFail :=
  let n := img.length
  let checks : List (Bool × ImgFail) :=
    [(leAt img 0 4 != 0x49535741, headFail stBad 0 2),
     (leAt img 4 2 != 1, headFail stBad 4 2),
     (decide (n < 128) || leAt img 16 8 != n, headFail stBad 16 2),
     (leAt img 28 4 != imageCheck img, headFail stBad 28 2),
     (leAt img 11 1 != 0, headFail stBad 11 2),
     (decide (2 ≤ leAt img 8 1), headFail stBad 8 2)]
    ++ ((zeroBytes img 64 128).map (fun f => (true, headFail stBad (f.bit / 8) 2)))
    ++ [(decide (scl < leAt img 6 2), headFail stIncompatible 6 3),
        (leAt img 24 4 &&& (0xFFFFFFFF ^^^ formats) != 0, headFail stIncompatible 24 3),
        (leAt img 10 1 != halves, headFail stBad 10 4),
        (decide (20 < leAt img 9 1), headFail stBad 9 4)]
  (checks.find? (·.1)).map (·.2)

/-- Section types of R231. -/
def sSlab : Nat := 1
def sConfig : Nat := 2
def sTables : Nat := 3
def sSlots : Nat := 4
def sAllot : Nat := 5
def sPebble : Nat := 6
def sSeeds : Nat := 7
def sOpp : Nat := 8
def sMap : Nat := 9
def sData : Nat := 10

/-- A type this device knows (R231). -/
def knownType (t : Nat) : Bool := decide (1 ≤ t) && decide (t ≤ 10)

/-- A section table entry. -/
def sectAt (img : List Byte) (i : Nat) : Sect :=
  let at_ := 128 + 32 * i
  let off := leAt img (at_ + 8) 8
  let len := leAt img (at_ + 16) 8
  { idx := i, entryAt := at_, type := leAt img at_ 2, target := leAt img (at_ + 2) 2, off := off, len := len
    aux := leAt img (at_ + 24) 8, body := (img.drop off).take len }

/-- Sections of an image, without optional ones that the device does not know (R231). -/
def sections (img : List Byte) : List Sect :=
  ((upTo (leAt img 12 4)).map (sectAt img)).filter (fun s => knownType s.type || !s.type.testBit 15)

/-- A section lies outside the image, or overlaps an earlier one. -/
def Sect.outside (s : Sect) (imgLen tableEnd : Nat) : Bool :=
  s.off % 64 != 0 || decide (s.off < tableEnd) || decide (imgLen < s.off + s.len)
def Sect.overlaps (s : Sect) (ss : List Sect) : Bool :=
  ss.any (fun q => decide (q.idx < s.idx) && decide (s.off < q.off + q.len) && decide (q.off < s.off + s.len))

/-- R234 step 5: the section table. -/
def tableFail (img : List Byte) : Option ImgFail :=
  let n := leAt img 12 4
  if img.length < 128 + 32 * n then some (headFail stBad 12 5)
  else
    let ss := sections img
    let first := fun (p : Sect → Bool) (off : Nat) => (ss.find? p).map (fun s => s.entryFail stBad off 5)
    [first (fun s => s.outside img.length (128 + 32 * n)) 8,
     first (fun s => s.overlaps ss) 8,
     first (fun s => !knownType s.type) 0,
     first (fun s => ss.any (fun q => decide (q.idx < s.idx) && q.type == s.type && q.target == s.target)) 0,
     first (fun s => leAt img (s.entryAt + 4) 4 != 0) 4,
     first (fun s => s.type != sData && s.aux != 0) 24].findSome? id

/-- TARGET of a pebble context's map (R231). -/
def Sect.pebMap (s : Sect) : Bool := s.type == sMap && s.target.testBit 10

/-- Die of a target, its slab, cluster or row number, and its context. -/
def Sect.die (s : Sect) : Nat := fld s.target 0 2
def Sect.unit (s : Sect) : Nat := fld s.target 2 3
def Sect.ctx (s : Sect) : Nat := fld s.target 5 1
/-- Slab or cluster key of a target, and the slab context key. -/
def Sect.key (s : Sect) : Nat := 8 * s.die + s.unit
def Sect.slabCtx (s : Sect) : Nat := 2 * s.key + s.ctx
/-- Mesh tile of a SLOT_TABLE. -/
def Sect.tile (s : Sect) : Nat := 32 * s.die + 16 * fld s.target 2 1 + 4 * fld s.target 3 2 + fld s.target 5 2
/-- Pebble and context of a pebble's CAIRN_MAP: key 4 × (8 × cluster + pebble) + context. -/
def Sect.pebCtx (s : Sect) : Nat := 4 * (8 * s.key + fld s.target 5 3) + fld s.target 8 2

/-- Bits of TARGET that the table of R231 names. -/
def Sect.targetBits (s : Sect) : Nat :=
  if s.type = sSlab ∨ s.type = sTables then 6
  else if s.type = sConfig ∨ s.type = sPebble then 5
  else if s.type = sSlots then 7
  else if s.type = sMap then (if s.pebMap then 11 else 6)
  else if s.type = sAllot then 5
  else 0

/-- Halves to which the unit of a target belongs; a port's are those of its hub tiles. -/
def Sect.halves (s : Sect) : List Nat :=
  if s.type = sSlots then [tileHalf s.tile]
  else if s.type = sAllot then
    (if s.target < 16 then [s.target] else [s.target, s.target + 4]).map (fun e => tileHalf (linkRouter e / 256 * 32 + linkRouter e % 256))
  else if s.type = sSeeds ∨ s.type = sOpp ∨ s.type = sData then []
  else [halfOfUnit s.key]
where tileHalf (t : Nat) : Nat := t / 16

/-- The unit of a target is reported absent (R234). -/
def Sect.absent (s : Sect) (c : Caps) : Bool :=
  if s.type = sSlab ∨ s.type = sTables ∨ s.type = sConfig then !c.slabOn s.die s.unit
  else if s.type = sPebble then c.namesOf s.key == 0
  else if s.type = sMap then
    if s.pebMap then decide (c.namesOf s.key ≤ fld s.target 5 3) else !c.slabOn s.die s.unit
  else if s.type = sSlots then
    if s.tile % 4 = 2 then !c.slabOn s.die (s.tile % 32 / 16 * 4 + s.tile / 4 % 4)
    else if s.tile % 4 = 3 then c.namesOf (8 * s.die + s.tile % 32 / 16 * 4 + s.tile / 4 % 4) == 0 else false
  else if s.type = sAllot then
    if s.target < 16 then !c.veins.testBit s.target else !c.d2ds.testBit (s.target - 16)
  else false

/-- R234 step 6: the targets. -/
def targetFail (ss : List Sect) (halves : Nat) (c : Caps) : Option ImgFail :=
  let outside := fun (s : Sect) =>
    decide (2 ^ s.targetBits ≤ s.target) || (s.type == sAllot && decide (19 < s.target))
    || (!s.halves.isEmpty && !s.halves.any (fun h => halves.testBit h))
  match ss.find? outside with
  | some s => some (s.entryFail stBad 2 6)
  | none => (ss.find? (fun s => s.absent c)).map (fun s => s.entryFail stIncompatible 2 6)

end Sys2Proof.Machine
end

