-- ==== Sys2Proof/Machine/ImageSlab.lean ====
section
/-! DEFINITION. The checks of slab sections at IMAGE_LOAD (spec/08 R202 to R217, R223, R226, R228, R614; spec/04 R126; spec/06 R170, R176, R177;
spec/07 R199; spec/11 R320). -/

namespace Sys2Proof.Machine

/-- COMMANDS and DESCRIPTORS of a SLAB_CONTEXT (R231), and where its descriptor table starts in command memory (R202). -/
def nCmds (b : List Byte) : Nat := leAt b 0 2
def nDescs (b : List Byte) : Nat := leAt b 2 2
def descBase (n : Nat) : Nat := cdiv (32 * n) 64 * 64

/-- Words of command i and of descriptor i of a SLAB_CONTEXT body. -/
def bodyCmd (b : List Byte) (i : Nat) : CmdWords := cmdWordsOf (slice b (64 + 32 * i) 32)
def bodyDesc (b : List Byte) (i : Nat) : DescWords := descWordsOf (slice b (64 + descBase (nCmds b) + 64 * i) 64)

/-- Commands and descriptors of a SLAB_CONTEXT body. -/
def bodyCmds (b : List Byte) : List CmdWords := (upTo (nCmds b)).map (bodyCmd b)
def bodyDescs (b : List Byte) : List DescWords := (upTo (nDescs b)).map (bodyDesc b)

/-- The 256 bits of a command's words as one number, and its reserved bits that are set (R13, R206). -/
def CmdWords.bits (w : CmdWords) : Nat := w.w0 + 2 ^ 64 * w.w1 + 2 ^ 128 * w.w2 + 2 ^ 192 * w.w3
def cmdReserved (w : CmdWords) (c : SlabCmd) : List Flaw :=
  let x := w.bits ^^^ (encodeSlab c).bits
  badIf (x != 0) (lowBit 256 x)

/-- A pass fits its activation bank (R220). -/
def actFits (afmt wfmt k m : Nat) : Bool :=
  let rho2 := (pairRho2 afmt wfmt).getD 2
  decide ((streamD m rho2 + k - 1) * (feedBytes k (fmtBits afmt) rho2 + feedScales afmt k rho2) ≤ abankSize)

/-- A mode other than MAC takes one format on both sides, of those of R115 (R115, R116). -/
def modeFits (p : PassOp) : Bool :=
  p.mode == 0 || (p.afmt == p.wfmt && (p.afmt == 0x0B || p.afmt == 3 || p.afmt == 4 || p.afmt == 2))

/-- Flaws of a PASS on its own (R126, R208). -/
def passFlaws (p : PassOp) (arrays : Nat) : List Flaw :=
  badIf ((pairRho2 p.afmt p.wfmt).isNone || (decide (p.mode < 6) && !modeFits p)) 64
  ++ rangeIf (decide (5 < p.mode)) 74 ++ rangeIf (decide (6 < p.tile)) 77
  ++ rangeIf (decide (p.tile ≤ 6) && (decide (tileK p.tile < p.kv) || decide (tileN p.tile < p.nv))) 77
  ++ badIf (p.arrays == 0) 107
  ++ rangeIf (decide (p.tile ≤ 6) && (pairRho2 p.afmt p.wfmt).isSome && !actFits p.afmt p.wfmt (tileK p.tile) p.m) 64
  ++ absentIf (p.arrays &&& (15 ^^^ arrays) != 0) 107

/-- Streak operand pairs (R136): a weight format of R186, and an activation format that R99 pairs with it. -/
def streakPairOk (afmt wfmt : Nat) : Bool :=
  (pairRho2 afmt wfmt).isSome && decide (1 ≤ wfmt) && decide (wfmt ≤ 0x0D)

/-- Bytes of M rows of activations and their scales in a Streak bank (R221). -/
def streakBankBytes (afmt k m : Nat) : Nat := m * cdiv (k * fmtBits afmt) 8 + (if fmtBlock afmt then m * cdiv k 32 else 0)

/-- Flaws of a STREAK on its own (R199). -/
def streakFlaws (k : StreakOp) : List Flaw :=
  badIf (!streakPairOk k.afmt k.wfmt) 64
  ++ rangeIf (decide (512 < k.n)) 90
  ++ rangeIf (decide (sbankSize < streakBankBytes k.afmt k.k k.m)) 64

/-- A format in blocks cannot take a row reduction, and takes whole blocks of columns (R176). -/
def drainFmtBad (o : DrainOp) : Bool :=
  o.reduce != 3 && (decide (0x0F < o.outFmt) || (fmtBlock o.outFmt && o.reduce != 0)
    || (fmtBlock o.outFmt && o.dst == 1 && (o.auxAddr != 0 || o.auxSel != 0)))

/-- Flaws of a DRAIN on its own (R175, R176, R211). -/
def drainFlaws (o : DrainOp) (arrays : Nat) : List Flaw :=
  badIf (o.arrays == 0) 89
  ++ badIf (o.reduce != 3 && fmtBlock o.outFmt && o.reduce == 0 && o.nv % 32 != 0) 93
  ++ rangeIf (o.reduce == 3 && decide (0xFFFFFFFE < o.colBase + o.nv - 1)) 93
  ++ badIf (drainFmtBad o) 100 ++ badIf (o.reduce != 3 && o.rmode == 3) 105
  ++ badIf (decide (4 < o.table)) 108 ++ badIf (o.dst == 3) 116
  ++ badIf (let v := decodeElem 0 o.scale; !v.isFin || v.isZero) 192
  ++ absentIf (o.arrays &&& (15 ^^^ arrays) != 0) 89

/-- Flaws of one command on its own (R206 to R215). -/
def cmdFlaws (w : CmdWords) (arrays : Nat) (present : Bool) : List Flaw :=
  match decodeSlab w with
  | none => [⟨stBad, 0, false⟩]
  | some c =>
    cmdReserved w c ++ badIf (c.at_.waitEn && c.at_.waitN == 0) 20 ++ badIf (c.at_.sigEn && c.at_.sigInc == 0) 47
    ++ absentIf (!present) 0
    ++ (match c.op with
      | .pass p => passFlaws p arrays
      | .streak k => streakFlaws k
      | .drain o => drainFlaws o arrays
      | .base r _ _ => badIf (r == 0) 64
      | .loop _ b _ => badIf (b == 0) 80
      | _ => [])

/-- Flaws of one descriptor on its own (R225, R226, R228, R614). -/
def descFlaws (w : DescWords) (lockstep : Bool) : List Flaw :=
  match decodeDesc w with
  | none => [⟨stBad, 0, false⟩]
  | some e =>
    let kind := e.kind
    let pair := if kind = 0 then pairRho2 e.pfmt e.fmt else pairRho2 e.fmt e.pfmt
    reservedIf w.d0 (0xFFF * 2 ^ 52) 64
    ++ badIf (e.src == 3 || (lockstep && e.src == 2)) 2 ++ badIf (kind != 3 && e.dst != 0 || (lockstep && kind == 3 && e.dst == 2)) 4
    ++ badIf (kind == 3 && e.fmt != 0) 6
    ++ badIf (decide (kind < 2) && pair.isNone) 6
    ++ badIf (kind == 2 && !(upTo 17).any (fun q => streakPairOk e.fmt q)) 6
    ++ badIf (kind != 3 && e.trans && fmtBlock e.fmt) 6
    ++ badIf (kind != 3 && ((fmtBlock e.fmt && e.k0 % 32 != 0) || (e.fmt == 0x0C && e.k0 % 2 != 0))) 6
    ++ badIf (decide (2 ≤ kind) && e.pfmt != 0) 11
    ++ rangeIf (decide (kind < 2) && decide (6 < e.tile)) 16
    ++ rangeIf (decide (kind < 2) && decide (e.tile ≤ 6) && (decide (tileK e.tile < e.kv) || (kind == 0 && decide (tileN e.tile < e.nv)))) 16
    ++ badIf (kind != 0 && e.nv != 1) 27
    ++ badIf ((kind == 0 || kind == 3) && e.m != 1) 35 ++ rangeIf (kind == 2 && decide (16 < e.m)) 35
    ++ badIf (kind != 1 && e.arrays != 0) 47
    ++ badIf (e.src == 1 && e.srcAddr != 0) 64 
    ++ (reservedIf w.d1 (0xFFFF * 2 ^ 48) 64).map (Flaw.shift 64)
    ++ (badIf (e.src == 1 && e.srcSaddr != 0) 0 ++ reservedIf w.d2 (0xFFFF * 2 ^ 48) 64).map (Flaw.shift 128)
    ++ (badIf (kind != 2 && e.klen != 1) 20 ++ reservedIf w.d5 (0xFFFFFFF * 2 ^ 36) 64).map (Flaw.shift 320)
    ++ (badIf (kind != 3 && e.dstAddr != 0) 0 ++ reservedIf w.d6 (0xFFFF * 2 ^ 48) 64).map (Flaw.shift 384)
    ++ (badIf (kind != 3 && e.bytes != 0) 0 ++ rangeIf (kind == 3 && e.bytes == 0) 0
        ++ reservedIf w.d7 (0xFFFFFFFF * 2 ^ 32) 64).map (Flaw.shift 448)

/-- R202, R231: the first pass over a SLAB_CONTEXT. -/
def slabCtxFirst (b : List Byte) (arrays : Nat) (present lockstep : Bool) : Option Flaw :=
  let n := nCmds b
  let m := nDescs b
  let need := 64 + (if m = 0 then 32 * n else descBase n + 64 * m)
  firstUnit
    ([unitFlaw (shortIf (decide (b.length < 64))), unitFlaw (zeroBytes b 4 64),
      unitFlaw (rangeIf (decide (131072 < 32 * n + 64 * m) || decide (1024 < m)) 0),
      unitFlaw (shortIf (decide (b.length < need)))]
    ++ (upTo n).map (fun i => (unitFlaw (cmdFlaws (bodyCmd b i) arrays present)).map (Flaw.shift (512 + 256 * i)))
    ++ [unitFlaw (if m = 0 then [] else zeroBytes b (64 + 32 * n) (64 + descBase n))]
    ++ (upTo m).map (fun i => (unitFlaw (descFlaws (bodyDesc b i) lockstep)).map (Flaw.shift (8 * (64 + descBase n + 64 * i))))
    ++ [unitFlaw (zeroBytes b need b.length)])

/-! ## The second pass -/

/-- Walk of a stream as it would execute (R216, R217): base values and strides, open loops as (first of body, last, left, mask), command index. -/
structure Walk where
  base : List (Nat × Nat)
  stride : List (Nat × Nat)
  loops : List LoopRec
  pc : Nat

/-- Effective value of a field (R216). -/
def Walk.eff (w : Walk) (field sel : Nat) : Nat := if sel = 0 then field else (field + tabGet 0 sel w.base) % 2 ^ 32

/-- The iterations that end at a command. -/
def Walk.close (w : Walk) (at_ : Nat) : Nat → Walk
  | 0 => w
  | fuel + 1 =>
    match w.loops with
    | [] => w
    | l :: rest =>
      if l.last = at_ then
        let w := { w with base := (upTo 7).foldl (fun t k =>
          if l.mask.testBit k then tabSet 0 (k + 1) ((tabGet 0 (k + 1) t + tabGet 0 (k + 1) w.stride) % 2 ^ 32) t else t) w.base }
        if 1 < l.left then { w with loops := { l with left := l.left - 1 } :: rest, pc := l.start }
        else ({ w with loops := rest }).close at_ fuel
      else w

/-- The state behind a command. -/
def Walk.next (w : Walk) (op : SlabOp) : Walk :=
  let i := w.pc
  let w := { w with pc := i + 1 }
  match op with
  | .base r v st => ({ w with base := tabSet 0 r v w.base, stride := tabSet 0 r st w.stride }).close i 4
  | .loop n b m => { w with loops := ⟨i + 1, i + b, n, m⟩ :: w.loops }
  | _ => w.close i 4

/-- Follow a stream, past its first END too (R217), and gather what a check finds in every iteration. -/
def walkStream {α : Type} (cmds : List (Option SlabCmd)) (check : Walk → Nat → SlabOp → List α) : Nat → Walk → List α → List α
  | 0, _, acc => acc
  | fuel + 1, w, acc =>
    match (cmds.getD w.pc none) with
    | none => acc
    | some c => walkStream cmds check fuel (w.next c.op) (check w w.pc c.op ++ acc)

/-- More dispatches than any stream of R202 with four nested loops makes. -/
def walkFuel : Nat := 2 ^ 80

/-- Command i of the section as a bit offset. -/
def cmdBit (i : Nat) : Nat := 512 + 256 * i

/-- Indices of the ENDs of a stream. -/
def endsOf (cmds : List (Option SlabCmd)) : List Nat :=
  (upTo cmds.length).filter (fun i => match cmds.getD i none with | some c => c.op == .finish | none => false)

/-- Loop structure (R217): the open bodies by their last commands. -/
def loopFlaws (cmds : List (Option SlabCmd)) (ends : List Nat) : List Nat → List Nat → List Flaw
  | [], _ => []
  | i :: is, stack =>
    let stack := stack.filter (fun e => decide (i ≤ e))
    match cmds.getD i none with
    | some ⟨_, .loop _ b _⟩ =>
      let last := i + b
      badIf (decide (ends.getLast?.getD 0 ≤ last) || ends.any (fun e => decide (i < e) && decide (e ≤ last))
          || stack.any (fun e => decide (e < last))) (cmdBit i + 80)
      ++ badIf (decide (4 ≤ stack.length)) (cmdBit i)
      ++ loopFlaws cmds ends is (last :: stack)
    | _ => loopFlaws cmds ends is stack

/-- R215, R217: structure, and the descriptor indices. -/
def structureFlaws (cmds : List (Option SlabCmd)) (descs : Nat) : List Flaw :=
  let ends := endsOf cmds
  badIf ends.isEmpty (cmdBit cmds.length)
  ++ loopFlaws cmds ends (upTo cmds.length) []
  ++ (upTo cmds.length).flatMap (fun i =>
    match cmds.getD i none with
    | some ⟨_, .dma k _ _ _⟩ => rangeIf (decide (descs ≤ k)) (cmdBit i + 64)
    | _ => [])

/-- Bytes that a drain writes in a row and its scale bytes (R212). -/
def drainRowBytes (o : DrainOp) : Nat × Nat :=
  let a := (arrayList o.arrays).length
  if o.reduce = 3 then (80 * a, 0)
  else
    let n := if o.reduce = 0 then o.nv else 1
    (a * (if o.outFmt = 0x0D then cdiv n 5 else cdiv (n * fmtBits o.outFmt) 8), if fmtBlock o.outFmt then a * cdiv n 32 else 0)

/-- Sizes of a slab store and a quarry tile (R292, R293). -/
def slabStoreBytes : Nat := 0x1800000
def quarryTileBytes : Nat := 0x2000000

/-- Effective addresses of a command in one iteration (R199, R211, R217). -/
def effFlaws (descs : List DescWords) (nCmd : Nat) (w : Walk) (i : Nat) : SlabOp → List Flaw
  | .streak k =>
    let k := { k with waddr := w.eff k.waddr k.wSel }
    let fin := if fmtBlock k.wfmt then k.scaleBase + k.records * 4 * streakG k.wfmt
      else k.waddr + k.records * streakEb k.wfmt
    rangeIf (decide ((if k.rowq then quarryTileBytes else slabStoreBytes) < fin)) (cmdBit i + 128)
  | .drain o =>
    let (body, scales) := drainRowBytes o
    let space := if o.dst = 2 then sbankSize else slabStoreBytes
    rangeIf (o.dst != 1 && decide (space < w.eff o.dstAddr o.dstSel + body * o.rows)) (cmdBit i + 128)
    ++ rangeIf (if o.reduce = 3 then o.merge && decide (slabStoreBytes < w.eff o.auxAddr o.auxSel + body * o.rows)
        else o.dst != 1 && scales != 0 && decide (space < w.eff o.auxAddr o.auxSel + scales * o.rows)) (cmdBit i + 156)
  | .dma n ss ds sss =>
    match (descs[n]?).bind decodeDesc with
    | none => []
    | some e =>
      let at_ := 8 * (64 + descBase nCmd + 64 * n)
      let sel := fun (f s : Nat) => if s = 0 then f else (f + tabGet 0 s w.base) % 2 ^ 32
      let e := { e with srcAddr := sel e.srcAddr ss, srcSaddr := sel e.srcSaddr sss, dstAddr := sel e.dstAddr ds }
      rangeIf (e.src == 0 && e.segs.any (fun s => decide (slabStoreBytes < s.1 + s.2))) (at_ + 64)
      ++ rangeIf (e.kind == 3 && e.dst == 0 && decide (slabStoreBytes < e.dstAddr + e.bytes)) (at_ + 384)
  | _ => []

/-- Accumulator rows of a command in one iteration (R126, R170, R199, R211). -/
def rowFlaws (pair : Bool) (lo hi : Nat) (w : Walk) (i : Nat) (op : SlabOp) : List Flaw :=
  let rows := fun (row sel n rowBit low : Nat) =>
    let r := w.eff row sel
    let n := if pair then 2 * n else n
    badIf (pair && r % 2 == 1) (cmdBit i + rowBit) ++ rangeIf (decide (r < lo) || decide (hi < r + n)) (cmdBit i + low)
  match op with
  | .pass p => badIf (pair && (p.mode == 3 || p.mode == 4)) (cmdBit i + 74) ++ rows p.accRow p.accSel p.m 114 96
  | .streak k => rows k.accRow k.accSel k.m 106 99
  | .drain o => rows o.accRow o.accSel o.rows 64 64
  | _ => []

/-- TABLE of a drain names a valid table (R211). -/
def tableFlaws (cmds : List (Option SlabCmd)) (valid : Nat) : List Flaw :=
  (upTo cmds.length).flatMap (fun i =>
    match cmds.getD i none with
    | some ⟨_, .drain o⟩ => badIf (decide (1 ≤ o.table) && decide (o.table ≤ 4) && !valid.testBit (o.table - 1)) (cmdBit i + 108)
    | _ => [])

/-- A map as its section gives it (R319): entries, timeout, barrier mask, RELEASE_BEATS. -/
def mapOf (b : List Byte) (owner : Nat) : CMap :=
  let n := leAt b 6 2
  { entries := (upTo n).map (fun v => leAt b (64 + 8 * v) 8), timeoutUs := leAt b 0 4, barrierMask := leAt b 4 2
    releaseBeats := (upTo 16).map (fun c => leAt b (8 + c) 1), owner := some owner }

/-- A wait reference fails (R320): the ID is not valid, or its cairn is not in the context's own tile. -/
def waitRefBad (m : CMap) (tile v : Nat) : Bool :=
  let e := m.entries.getD v 0
  !mapValid e || mapRemote e || 16 * mapDie e + mapTile e != tile

/-- A signal reference fails (R320). -/
def sigRefBad (m : CMap) (tile v : Nat) (lockstep : Bool) : Bool :=
  let e := m.entries.getD v 0
  !mapValid e || (lockstep && (mapRemote e || 16 * mapDie e + mapTile e != tile))

/-- Cairn and barrier references of the commands (R320). -/
def cmdRefFlaws (cmds : List (Option SlabCmd)) (m : CMap) (tile : Nat) (lockstep : Bool) : List Flaw :=
  (upTo cmds.length).flatMap (fun i =>
    match cmds.getD i none with
    | some c =>
      badIf (c.at_.waitEn && waitRefBad m tile c.at_.waitCairn) (cmdBit i + 10)
      ++ badIf (c.at_.sigEn && sigRefBad m tile c.at_.sigCairn lockstep) (cmdBit i + 37)
      ++ (match c.op with
        | .barrier ch _ => badIf (!m.barrierMask.testBit ch) (cmdBit i + 64)
        | _ => [])
    | none => [])

/-- A drain that converts in SR mode (R154, R155, R175). -/
def drainSr (o : DrainOp) : Bool := o.reduce != 3 && o.rmode == 2 && o.outFmt != 0x0D

/-- Seeds (R155): an SR conversion in a context whose seed is zero. -/
def cmdSeedFlaws (cmds : List (Option SlabCmd)) (seed : Nat) : List Flaw :=
  (upTo cmds.length).flatMap (fun i =>
    match cmds.getD i none with
    | some ⟨_, .drain o⟩ => badIf (seed == 0 && drainSr o) (cmdBit i + 105)
    | _ => [])

/-- Bank bounds of a descriptor (R614) that its own fields decide. -/
def bankFlaws (descs : List DescWords) (nCmd : Nat) : List Flaw :=
  (upTo descs.length).flatMap (fun n =>
    match (descs[n]?).bind decodeDesc with
    | none => []
    | some e =>
      rangeIf ((e.kind == 1 && !actFits e.fmt e.pfmt (tileK e.tile) e.m)
        || (e.kind == 2 && decide (sbankSize < streakBankBytes e.fmt e.klen e.m))) (8 * (64 + descBase nCmd + 64 * n) + 6))

/-- Bank bounds of a COPY to a Streak bank in one iteration (R614). -/
def copyFlaws (descs : List DescWords) (nCmd : Nat) (w : Walk) (_i : Nat) : SlabOp → List Flaw
  | .dma n _ ds _ =>
    match (descs[n]?).bind decodeDesc with
    | none => []
    | some e =>
      let dst := if ds = 0 then e.dstAddr else (e.dstAddr + tabGet 0 ds w.base) % 2 ^ 32
      rangeIf (e.kind == 3 && e.dst == 3 && decide (sbankSize < dst + e.bytes)) (8 * (64 + descBase nCmd + 64 * n) + 384)
  | _ => []

/-- What the second pass needs of other sections for a slab context. -/
structure SlabView where
  split : Nat
  pair : Bool
  tables : Nat
  map : CMap
  seed : Nat
  lockstep : Bool

/-- The second pass over a SLAB_CONTEXT (R234), check by check, each over the units in ascending offset. -/
def slabCtxSecond (b : List Byte) (key : Nat) (v : SlabView) : Option Flaw :=
  let cmds := (bodyCmds b).map decodeSlab
  let descs := bodyDescs b
  let n := nCmds b
  let lo := if key % 2 = 0 then 0 else 256 * v.split
  let hi := if key % 2 = 0 then 256 * v.split else 2048
  let walk := fun (check : Walk → Nat → SlabOp → List Flaw) => walkStream cmds check walkFuel ⟨[], [], [], 0⟩ []
  let tile := tileOfSlab (key / 2)
  [fun (_ : Unit) => unitFlaw (structureFlaws cmds descs.length),
   fun _ => unitFlaw (walk (effFlaws descs n)),
   fun _ => unitFlaw (walk (rowFlaws v.pair lo hi)),
   fun _ => unitFlaw (tableFlaws cmds v.tables),
   fun _ => unitFlaw (cmdRefFlaws cmds v.map tile v.lockstep),
   fun _ => unitFlaw (cmdSeedFlaws cmds v.seed),
   fun _ => unitFlaw (bankFlaws descs n ++ walk (copyFlaws descs n))].findSome? (fun f => f ())

/-- Banks that the commands and descriptors of a context name (R223): the keys of `wKey`, `aKey` of array 0 and `sKey`. -/
def banksNamed (b : List Byte) : List Nat :=
  (((bodyCmds b).filterMap decodeSlab).flatMap (fun c =>
    match c.op with
    | .pass p => [wKey p.wbank, aKey 0 p.abank]
    | .streak k => [sKey k.abank]
    | .drain o => if o.dst = 2 then [sKey o.bank] else []
    | _ => []))
  ++ (((bodyDescs b).filterMap decodeDesc).flatMap (fun e =>
    if e.kind = 0 then [wKey e.bank] else if e.kind = 1 then [aKey 0 e.bank]
    else if e.kind = 2 ∨ e.dst = 3 then [sKey e.bank] else []))

/-! ## SLAB_CONFIG and ACT_TABLES -/

/-- R133, R184, R231: SLAB_CONFIG. -/
def slabConfigFirst (b : List Byte) : Option Flaw :=
  firstUnit [unitFlaw (shortIf (decide (b.length < 2))),
    unitFlaw (rangeIf (decide (8 < fld (leAt b 0 1) 0 4)) 0 ++ badIf (fld (leAt b 0 1) 4 4 != 0) 4 ++ badIf (fld (leAt b 1 1) 2 6 != 0) 10),
    unitFlaw (zeroBytes b 2 b.length)]

/-- Table t of an ACT_TABLES body: XMIN, XMAX and 64 pairs of slope and intercept (R177, R231). -/
def actTableAt (b : List Byte) (t : Nat) : ActTable :=
  let at_ := 8 + 520 * t
  ⟨leAt b at_ 4, leAt b (at_ + 4) 4, (upTo 64).map (fun i => leAt b (at_ + 8 + 8 * i) 4),
    (upTo 64).map (fun i => leAt b (at_ + 12 + 8 * i) 4)⟩

/-- R177: every field of a table is finite and XMIN lies below XMAX. A table that VALID does not mark is not checked. -/
def actTableFlaws (b : List Byte) (t : Nat) : List Flaw :=
  let at_ := 8 + 520 * t
  let fin := fun (off : Nat) => (decodeElem 0 (leAt b off 4)).isFin
  badIf (fin at_ && fin (at_ + 4) && !Val.lt (decodeElem 0 (leAt b at_ 4)) (decodeElem 0 (leAt b (at_ + 4) 4))) (8 * at_)
  ++ (upTo 130).flatMap (fun i => badIf (!fin (at_ + 4 * i)) (8 * (at_ + 4 * i)))

/-- R177, R231: ACT_TABLES. -/
def actTablesFirst (b : List Byte) : Option Flaw :=
  firstUnit ([unitFlaw (shortIf (decide (b.length < 2088))), unitFlaw (badIf (fld (leAt b 0 1) 4 4 != 0) 4), unitFlaw (zeroBytes b 1 8)]
    ++ (upTo 4).map (fun t => if (leAt b 0 1).testBit t then unitFlaw (actTableFlaws b t) else none)
    ++ [unitFlaw (zeroBytes b 2088 b.length)])

end Sys2Proof.Machine
end

