-- ==== Sys2Proof/Machine/Pebble.lean ====
section
/-! DEFINITION. Issue in a pebble (spec/09 R238 to R243, R252, R265, R274, R275): what an instruction reads and writes, when it can issue, the
order of the four contexts, and how a command names the instruction that issues. Keys: pebble 8 × cluster + q, context 4 × pebble + x. -/

namespace Sys2Proof.Machine

/-- The instruction word at an index, and the extension word behind it (R244). -/
def Pebble.word (p : Pebble) (i : Nat) : Nat := (tabGet 0 i p.imem).toNat

/-- Scalar, vector and mask registers of a context; s0 reads as zero and m0 as all ones (R237). -/
def PCtx.sreg (c : PCtx) (i : Nat) : SReg := if i = 0 then {} else tabGet {} i c.s
def PCtx.vreg (c : PCtx) (i : Nat) : VReg := tabGet {} i c.v
def PCtx.mreg (c : PCtx) (i : Nat) : MaskReg := if i = 0 then BitVec.allOnes 256 else tabGet 0 i c.m

/-- Write a scalar register, usable from a cycle; writes to s0 are discarded (R237). -/
def PCtx.setS (c : PCtx) (i ready : Nat) (v : SReg) : PCtx :=
  if i = 0 then c else { c with s := tabSet {} i v c.s, sReady := tabSet 0 i ready c.sReady }

/-- Write a vector register, usable from a cycle. -/
def PCtx.setV (c : PCtx) (i ready : Nat) (v : VReg) : PCtx := { c with v := tabSet {} i v c.v, vReady := tabSet 0 i ready c.vReady }

/-- Write a mask register, usable from a cycle; m0 cannot be written (R237). -/
def PCtx.setM (c : PCtx) (i ready : Nat) (v : MaskReg) : PCtx :=
  if i = 0 then c else { c with m := tabSet 0 i v c.m, mReady := tabSet 0 i ready c.mReady }

/-- Registers of one kind that an instruction reads or writes. -/
structure RegUse where
  s : List Nat
  v : List Nat
  m : List Nat
deriving DecidableEq, Repr

/-- Source registers of an instruction (R240, R245, R246). -/
def PWord.sources : PWord → RegUse
  | .vec v =>
    let b := if v.imm then [] else [v.vb]
    match v.cls with
    | 8 =>
      let r := arithReads v.op
      ⟨[], (if r.1 then [v.va] else []) ++ (if r.2.1 then b else []) ++ (if r.2.2 then [v.vc] else []), [v.mask]⟩
    | 9 => if v.op ≥ 0x10 then ⟨[], [], [v.va % 8, v.vb % 8, v.mask]⟩ else ⟨[], v.va :: b, [v.mask]⟩
    | 0xA => ⟨[], if v.imm then [] else [v.va], [v.mask]⟩
    | 0xB => ⟨if fmtBlock v.type ∧ !v.imm then [v.sd] else [], [v.va], [v.mask]⟩
    | 0xC => ⟨[], [v.va], [v.mask]⟩
    | 0xD => ⟨[], if v.op = 3 then [v.va, v.vb] else [v.va], [v.mask]⟩
    | 0xE => ⟨[v.sd], if v.op = 1 then [v.va] else [], [v.mask]⟩
    | _ => if v.op = 4 then ⟨[], [v.va], [v.mask]⟩ else ⟨[], [], [v.va % 8, v.mask]⟩
  | .sca s =>
    match s.cls with
    | 1 => if s.op = 0x0B then ⟨[s.sd], [], []⟩ else ⟨[s.sa, s.sb], [], []⟩
    | 2 => if s.op = 8 then ⟨[], [], []⟩ else ⟨[s.sa, s.sb], [], []⟩
    | 3 => if s.op = 0 then ⟨[s.sa], [], []⟩ else ⟨[s.sa, s.sd], [], []⟩
    | 5 => ⟨[s.sa, s.sb], [], []⟩
    | _ => ⟨[], [], []⟩

/-- Destination registers of an instruction (R240, R245, R246). -/
def PWord.dests : PWord → RegUse
  | .vec v =>
    match v.cls with
    | 9 => ⟨[], [], [v.vd % 8]⟩
    | 0xB => ⟨if fmtBlock v.type2 ∧ !v.imm then [v.sd] else [], [v.vd], []⟩
    | 0xE => if v.op = 0 then ⟨[], [v.vd], []⟩ else ⟨[], [], []⟩
    | 0xF => ⟨[v.sd], [], []⟩
    | _ => ⟨[], [v.vd], []⟩
  | .sca s =>
    match s.cls with
    | 1 => ⟨[s.sd], [], []⟩
    | 3 => if s.op = 0 then ⟨[s.sd], [], []⟩ else ⟨[], [], []⟩
    | _ => ⟨[], [], []⟩

/-- No listed register awaits a result at a cycle (R240). -/
def PCtx.usable (c : PCtx) (r : RegUse) (t : Nat) : Bool :=
  r.s.all (fun i => i == 0 || decide (tabGet 0 i c.sReady ≤ t)) && r.v.all (fun i => decide (tabGet 0 i c.vReady ≤ t))
  && r.m.all (fun i => i == 0 || decide (tabGet 0 i c.mReady ≤ t))

/-- An instruction that accesses cluster memory (R268). -/
def PWord.memory : PWord → Bool
  | .vec v => v.cls == 0xE
  | .sca s => s.cls == 3

/-- Channel of a stream descriptor: 0 IN, 1 OUT, 2 ROUTED (R271). -/
def SDesc.channel (s : SDesc) : Nat := min s.kind 2

/-- A channel of a cluster. -/
def Cluster.chan (c : Cluster) (ch : Nat) : StreamCh := if ch = 0 then c.chIn else if ch = 1 then c.chOut else c.chRouted

/-- Change a channel of a cluster. -/
def Cluster.setChan (c : Cluster) (ch : Nat) (x : StreamCh) : Cluster :=
  if ch = 0 then { c with chIn := x } else if ch = 1 then { c with chOut := x } else { c with chRouted := x }

/-- Descriptor i of a cluster's table (R270). -/
def Cluster.desc (c : Cluster) (i : Nat) : Option SDesc :=
  match tabGet [] i c.descs with
  | [a, b, e, f] => decodeSDesc a b e f
  | _ => none

/-- The unit that an instruction needs takes it at a cycle (R240, R252, R268, R271). -/
def Dev.unitFree (d : Dev) (peb t : Nat) (w : PWord) : Bool :=
  let p := d.getPebble peb
  let c := d.getCluster (peb / 8)
  match w with
  | .vec v =>
    if v.cls = 0xA then decide (p.sfFree ≤ t)
    else if v.cls = 0xC then decide (p.redFree ≤ t)
    else if v.cls = 0xE then !c.pend.any (fun a => a.ctx / 4 == peb && decide (a.issued + 1 < t))
    else true
  | .sca s =>
    if s.cls = 3 then !c.pend.any (fun a => a.ctx / 4 == peb && decide (a.issued + 1 < t))
    else if s.cls = 5 then
      match c.desc (s.imm32 % 256) with
      | some e => decide ((c.chan e.channel).queue.length < 16)
      | none => true
    else true

/-- The head instruction of a context and whether it can issue in a cycle (R239, R240, R265). -/
def Dev.canIssue (d : Dev) (peb x t : Nat) : Bool :=
  let p := d.getPebble peb
  let c := d.getPCtx (4 * peb + x)
  c.bound && c.state == 1 && !c.endIssued && decide (c.wake ≤ t)
  && (match decodeP (p.word c.pc) with
      | some w => p.imemErr.contains c.pc || (c.usable w.sources t && c.usable w.dests t && d.unitFree peb t w)
      | none => false)

/-- The context that a pebble issues from in a cycle (R239): the first that can, after the one that issued last. -/
def Dev.issuePick (d : Dev) (peb t : Nat) : Option Nat :=
  let k := (d.getPebble peb).lastCtx
  if (d.getPebble peb).nextIssue ≤ t then [(k + 1) % 4, (k + 2) % 4, (k + 3) % 4, k].find? (fun x => d.canIssue peb x t) else none

/-- An uncorrectable error in an instruction or stream descriptor that is fetched (R275). -/
def Dev.pebFetchError (d : Dev) (peb x index : Nat) : Dev :=
  ((d.raise { d.clusterEv (peb / 8) evUncorrectable 3 (peb % 8) x with valueA := index }).faultPebCtx (4 * peb + x)).noteFault
    (d.holderNo (halfOfUnit (peb / 8))) 3

/-- The issue slot is taken (R239, R252): the unit is busy for its interval, and the context goes on behind the instruction. -/
def Dev.takeSlot (d : Dev) (peb x t : Nat) (w : PWord) : Dev :=
  let unit := match w with
    | .vec v => v.cls
    | .sca _ => 0
  let d := d.modPebble peb (fun p => { p with
    lastCtx := x, nextIssue := t + 1
    sfFree := if unit = 0xA then t + w.interval else p.sfFree, redFree := if unit = 0xC then t + w.interval else p.redFree })
  d.modPCtx (4 * peb + x) (fun c => { c with pc := c.pc + w.size })

/-- An instruction of a context issues at a cycle of the current beat, if the pebble issues it then and it is the one that the command names. `f` gets the
cycle, the registers before, the word and its extension. -/
def Dev.issue (d : Dev) (peb x cyc cls op : Nat) (f : Nat → PCtx → PWord → Nat → Dev → Dev) : Dev :=
  let half := halfOfUnit (peb / 8)
  let t := d.now half cyc
  if d.working half cyc ∧ (d.getCluster (peb / 8)).cur ≤ t then
    let d := (d.clusterRun (peb / 8) t).cairnFlush half t
    let p := d.getPebble peb
    let c := d.getPCtx (4 * peb + x)
    match decodeP (p.word c.pc) with
    | none => d
    | some w =>
      d.gate (w.kind == (cls, op) && d.issuePick peb t == some x) (fun d =>
        if p.imemErr.contains c.pc then d.pebFetchError peb x c.pc
        else f t c w (p.word (c.pc + 1)) (d.takeSlot peb x t w))
  else d

/-- A vector instruction issues. -/
def Dev.issueV (d : Dev) (peb x cyc cls op : Nat) (f : Nat → PCtx → VWord → Nat → Dev → Dev) : Dev :=
  d.issue peb x cyc cls op (fun t c w e d => match w with | .vec v => f t c v e d | .sca _ => d)

/-- A scalar instruction issues. -/
def Dev.issueS (d : Dev) (peb x cyc cls op : Nat) (f : Nat → PCtx → SWord → Dev → Dev) : Dev :=
  d.issue peb x cyc cls op (fun t c w _ d => match w with | .sca s => f t c s d | .vec _ => d)

/-- Operands of a vector instruction; VB or the broadcast immediate (R250). -/
def vOperands (c : PCtx) (v : VWord) (ext : Nat) : VSrc :=
  ⟨c.vreg v.va, if v.imm then broadcast (laneW v.type) ext else c.vreg v.vb, c.vreg v.vc, c.vreg v.vd, c.mreg v.mask⟩

/-- Add to the counters of PebbleFpCount (R261, R283). -/
def PCtx.count (c : PCtx) (a : FpAdd) : PCtx :=
  { c with satCount := satAdd 24 c.satCount a.sat, nanCount := satAdd 24 c.nanCount a.nan, tritInvalid := satAdd 16 c.tritInvalid a.trit }

/-- Cycle from which the result of an instruction is usable (R252). -/
def VWord.ready (v : VWord) (t : Nat) : Nat := t + (PWord.vec v).latency

/-! ## Vector classes -/

/-- V.ARITH (R252, R253). -/
def vArithOp (op peb x cyc : Nat) (d : Dev) : Dev :=
  d.issueV peb x cyc 8 op (fun t c v e d =>
    let r := vArith v (vOperands c v e) c.lfsr
    d.modPCtx (4 * peb + x) (fun c => ({ c.setV v.vd (v.ready t) r.reg with lfsr := r.lfsr }).count r.cnt))

/-- V.CMP comparisons (R254). -/
def vCompareOp (op peb x cyc : Nat) (d : Dev) : Dev :=
  d.issueV peb x cyc 9 op (fun t c v e d =>
    let m := vCompare v (vOperands c v e) (c.mreg (v.vd % 8))
    d.modPCtx (4 * peb + x) (fun c => c.setM (v.vd % 8) (v.ready t) m))

/-- V.CMP mask logic (R252). -/
def vMaskOp (op peb x cyc : Nat) (d : Dev) : Dev :=
  d.issueV peb x cyc 9 op (fun t c v _ d =>
    let m := vMaskLogic v (c.mreg (v.va % 8)) (c.mreg (v.vb % 8)) (c.mreg v.mask) (c.mreg (v.vd % 8))
    d.modPCtx (4 * peb + x) (fun c => c.setM (v.vd % 8) (v.ready t) m))

/-- V.SF (R262, R263). -/
def vSpecialOp (op peb x cyc : Nat) (d : Dev) : Dev :=
  d.issueV peb x cyc 0xA op (fun t c v e d =>
    let r := vSpecial v (vOperands c v e)
    d.modPCtx (4 * peb + x) (fun c => (c.setV v.vd (v.ready t) r.1).count r.2))

/-- VA of V.CVT: wholly poisoned where the scales in s[SD] are (R258, R274). -/
def cvtSrc (c : PCtx) (v : VWord) : VReg :=
  if fmtBlock v.type && !v.imm && (c.sreg v.sd).poison then { c.vreg v.va with poison := BitVec.allOnes 32 } else c.vreg v.va

/-- V.CVT (R257 to R261). A block target without immediate scales also writes s[SD] (R258). -/
def vConvertOp (peb x cyc : Nat) (d : Dev) : Dev :=
  d.issueV peb x cyc 0xB 0 (fun t c v e d =>
    let s := c.sreg v.sd
    let o : VSrc := ⟨cvtSrc c v, {}, {}, c.vreg v.vd, c.mreg v.mask⟩
    let src := if v.imm then e else s.bits.toNat
    let r := vConvert v o src (if v.imm then some e else none) c.lfsr
    let any := (upTo (cvtCount v.type v.type2)).any (fun j =>
      o.mask.getLsbD j && o.a.pois (cvtPos v.type j) (cvtBits v.type))
    d.modPCtx (4 * peb + x) (fun c =>
      let c := ({ c.setV v.vd (v.ready t) r.1.reg with lfsr := r.1.lfsr }).count r.1.cnt
      match r.2 with
      | some w => c.setS v.sd (v.ready t) ⟨BitVec.ofNat 64 w, any⟩
      | none => c))

/-- V.RED (R255). -/
def vReduceOp (op peb x cyc : Nat) (d : Dev) : Dev :=
  d.issueV peb x cyc 0xC op (fun t c v e d =>
    let r := vReduce v (vOperands c { v with imm := false } e)
    d.modPCtx (4 * peb + x) (fun c => (c.setV v.vd (v.ready t) r.1).count r.2))

/-- V.PERM SPLAT, SHUP, SHDN, SEL and SWAP2 (R256). -/
def vPermOp (op peb x cyc : Nat) (d : Dev) : Dev :=
  d.issueV peb x cyc 0xD op (fun t c v e d =>
    let r := vPerm v e (vOperands c { v with imm := false } e)
    d.modPCtx (4 * peb + x) (fun c => c.setV v.vd (v.ready t) r))

/-- V.PERM PACK5 (R256). -/
def vPackOp (peb x cyc : Nat) (d : Dev) : Dev :=
  d.issueV peb x cyc 0xD 5 (fun t c v _ d => d.modPCtx (4 * peb + x) (fun k => k.setV v.vd (v.ready t) (vPack5 (c.vreg v.va))))

/-- V.PERM UNPACK5 (R256, R261). -/
def vUnpackOp (peb x cyc : Nat) (d : Dev) : Dev :=
  d.issueV peb x cyc 0xD 6 (fun t c v e d =>
    let r := vUnpack5 v (vOperands c { v with imm := false } e)
    d.modPCtx (4 * peb + x) (fun c => (c.setV v.vd (v.ready t) r.1).count ⟨0, 0, r.2⟩))

/-- Effective address of a V.MEM access: s[SD] and the signed offset, its 64-byte-aligned window modulo 8 MiB (R250, R267). -/
def vAddress (c : PCtx) (v : VWord) (ext : Nat) : Nat :=
  let a := ((c.sreg v.sd).bits.toNat + unsgn 64 (sgn 32 (ext % 2 ^ 32))) % cmemSize
  a - a % 64

/-- Put an access into the cluster's claims (R268). -/
def Dev.access (d : Dev) (peb : Nat) (a : MemAcc) : Dev := d.modCluster (peb / 8) (fun c => { c with pend := insertAcc a c.pend })

/-- V.MEM LD (R268, R269): the register waits for the grant. -/
def vLoadOp (peb x cyc : Nat) (d : Dev) : Dev :=
  d.issueV peb x cyc 0xE 0 (fun t c v e d =>
    (d.modPCtx (4 * peb + x) (fun c => { c with vReady := tabSet 0 v.vd notGranted c.vReady })).access peb
      ⟨4 * peb + x, true, true, v.vd, vAddress c v e, t, c.mreg v.mask, v.mz, laneW v.type, []⟩)

/-- Bytes that a V.ST writes: those of enabled lanes of VA, poisoned by granule (R249, R274). -/
def storeBytes (c : PCtx) (v : VWord) : List (Option PByte) :=
  let r := c.vreg v.va
  let m := c.mreg v.mask
  (upTo 256).map (fun i =>
    if m.getLsbD (8 * i / laneW v.type) then some ⟨BitVec.ofNat 8 (r.get (8 * i) 8), r.poison.getLsbD (i / 8)⟩ else none)

/-- V.MEM ST (R268, R269). -/
def vStoreOp (peb x cyc : Nat) (d : Dev) : Dev :=
  d.issueV peb x cyc 0xE 1 (fun t c v e d =>
    d.access peb ⟨4 * peb + x, false, true, 0, vAddress c v e, t, 0, false, 8, storeBytes c v⟩)

/-- V.SUM ANY, ALL, COUNT and FIRST (R264). -/
def vSumOp (op peb x cyc : Nat) (d : Dev) : Dev :=
  d.issueV peb x cyc 0xF op (fun t c v _ d =>
    let r := vSumMask op v.type (c.mreg (v.va % 8)) (c.mreg v.mask)
    d.modPCtx (4 * peb + x) (fun c => c.setS v.sd (v.ready t) ⟨BitVec.ofNat 64 r, false⟩))

/-- V.SUM MAX (R264, R274). -/
def vSumMaxOp (peb x cyc : Nat) (d : Dev) : Dev :=
  d.issueV peb x cyc 0xF 4 (fun t c v _ d =>
    let r := vSumMax v.type (c.vreg v.va) (c.mreg v.mask)
    let p := enabledPoison v.type (c.vreg v.va) (c.mreg v.mask)
    d.modPCtx (4 * peb + x) (fun c => c.setS v.sd (v.ready t) ⟨BitVec.ofNat 64 r, p⟩))

end Sys2Proof.Machine
end

