-- ==== Sys2Proof/Machine/ImagePebble.lean ====
section
/-! DEFINITION. The checks of PEBBLE_PROGRAM sections at IMAGE_LOAD (spec/09 R244 to R266, R270, R273, R278, R279). -/

namespace Sys2Proof.Machine

/-- Types of V.ARITH and V.RED (R251). -/
def isArithT (t : Nat) : Bool := isFloatT t || isIntT t

/-- TYPE is accepted by the class and operation (R251). -/
def typeOk (v : VWord) : Bool :=
  match v.cls with
  | 8 => if v.op < 0x0A then isArithT v.type else isIntT v.type
  | 9 => if v.op < 0x10 then isArithT v.type else decide (v.type ≤ 0x10)
  | 0xA => isFloatT v.type
  | 0xC => isArithT v.type
  | 0xD => if v.op ≥ 5 then v.type == 0x0D else decide (v.type ≤ 0x10)
  | 0xF => if v.op = 4 then isArithT v.type else decide (v.type ≤ 0x10)
  | _ => decide (v.type ≤ 0x10)

/-- RMODE is accepted (R150, R253, R255, R262). -/
def rmodeOk (v : VWord) : Bool :=
  v.rmode == 0 || (decide (v.rmode < 3) && (v.cls == 0x0B || (v.cls == 8 && decide (v.op ≤ 4) && isFloatT v.type)))

/-- IMM is as the class requires (R250). -/
def immOk (v : VWord) : Bool :=
  if v.cls = 0xE then v.imm
  else if v.cls = 0xC ∨ v.cls = 0xF ∨ (v.cls = 0xD ∧ 3 ≤ v.op) then !v.imm else true

/-- Flaws of an extension word (R250, R256). -/
def extFlaws (v : VWord) (x : Nat) : List Flaw :=
  let high := fun (lo : Nat) => (badIf (decide (2 ^ lo ≤ x)) (lo + lowBit 64 (x / 2 ^ lo))).map (Flaw.shift 64)
  match v.cls with
  | 8 => high (laneW v.type)
  | 9 => high (laneW v.type)
  | 0xA => high (laneW v.type)
  | 0xE => high 32
  | 0xD => high 8 ++ badIf (decide (laneN v.type ≤ x % 256)) 64
  | _ => []

/-- Flaws of a vector instruction (R245 to R265). -/
def vecFlaws (v : VWord) (w : Nat) (ext : Option Nat) : List Flaw :=
  badIf (!opListed v.cls v.op) 4
  ++ badIf (v.cls == 9 && v.vd % 8 == 0) 10 ++ badIf (v.cls == 9 && decide (8 ≤ v.vd)) 13
  ++ badIf (!typeOk v || (v.cls == 0x0B && fmtBlock v.type && fmtBlock v.type2)) 30
  ++ badIf (if v.cls = 0x0B then decide (0x10 < v.type2) else v.type2 != 0) 35
  ++ badIf (v.cls == 0xD && v.op == 3 && v.mz) 43 ++ badIf (!immOk v) 44 ++ badIf (!rmodeOk v) 45
  ++ badIf (!(v.cls == 8 && decide (0x0D ≤ v.op)) && v.aux != 0) 53
  ++ reservedIf w (63 * 2 ^ 58) 64
  ++ (match ext with | some x => extFlaws v x | none => [])

/-- Flaws of a scalar instruction (R246, R266). -/
def scaFlaws (s : SWord) (w : Nat) : List Flaw :=
  badIf (!opListed s.cls s.op) 4 ++ reservedIf w (127 * 2 ^ 25) 64
  ++ (if s.cls = 4 then
      if s.op ≤ 1 then badIf (fld s.imm32 10 16 == 0) 42 ++ badIf (fld s.imm32 26 6 != 0) 58
      else if s.op = 2 then badIf (fld s.imm32 10 8 == 0) 42 ++ badIf (fld s.imm32 18 14 != 0) 50
      else if s.op = 3 then badIf (fld s.imm32 5 27 != 0) 37 else []
    else if s.cls = 5 then badIf (fld s.imm32 8 24 != 0) 40 else [])

/-- Instructions of a code block: word index, instruction, word and extension word; `ended` is the index of an instruction that the code cuts off
or of a word outside R247. -/
structure CodeScan where
  instrs : List (Nat × PWord × Nat × Option Nat)
  ended : Option Nat

/-- Scan a code block (R244). -/
def scanCode (words : List Nat) : Nat → Nat → CodeScan
  | 0, _ => ⟨[], none⟩
  | fuel + 1, i =>
    match words[i]? with
    | none => ⟨[], none⟩
    | some w =>
      match decodeP w with
      | none => ⟨[], some i⟩
      | some p =>
        if p.size = 2 then
          match words[i + 1]? with
          | none => ⟨[], some i⟩
          | some x => let r := scanCode words fuel (i + 2); ⟨(i, p, w, some x) :: r.instrs, r.ended⟩
        else let r := scanCode words fuel (i + 1); ⟨(i, p, w, none) :: r.instrs, r.ended⟩

/-- Flaws of one instruction on its own. -/
def instrFlaws (w : Nat) (ext : Option Nat) : PWord → List Flaw
  | .vec v => vecFlaws v w ext
  | .sca s => scaFlaws s w

/-- A pebble's block in a PEBBLE_PROGRAM (R278): where it starts, its CONTEXTS, entries and code. -/
structure PebBlock where
  q : Nat
  at_ : Nat
  contexts : Nat
  entries : List Nat
  codeBytes : Nat
  words : List Nat

/-- DESC_COUNT, and the first byte behind the descriptor table. -/
def pebDescs (b : List Byte) : Nat := leAt b 2 2
def pebBlocksAt (b : List Byte) : Nat := 64 + cdiv (32 * pebDescs b) 64 * 64

/-- The blocks of the pebbles named, in order (R278). -/
def pebBlocksFrom (b : List Byte) : List Nat → Nat → List PebBlock
  | [], _ => []
  | q :: qs, at_ =>
    let n := leAt b (at_ + 24) 4
    let here : PebBlock := ⟨q, at_, leAt b at_ 1, (upTo 4).map (fun x => leAt b (at_ + 8 + 4 * x) 4), n,
      (upTo (min n 65536 / 8)).map (fun i => leAt b (at_ + 64 + 8 * i) 8)⟩
    here :: pebBlocksFrom b qs (at_ + 64 + cdiv n 64 * 64)

def pebBlocks (b : List Byte) : List PebBlock :=
  pebBlocksFrom b ((upTo 8).filter (fun q => (leAt b 0 1).testBit q)) (pebBlocksAt b)

/-- Words of stream descriptor i (R270). -/
def pebDesc (b : List Byte) (i : Nat) : List Nat := (upTo 4).map (fun k => leAt b (64 + 32 * i + 8 * k) 8)

/-- Decode four words of a stream descriptor. -/
def sdescOf (q : List Nat) : Option SDesc := decodeSDesc (q.getD 0 0) (q.getD 1 0) (q.getD 2 0) (q.getD 3 0)

/-- Flaws of a stream descriptor (R270, R273). -/
def sdescFlaws (q : List Nat) (lockstep : Bool) : List Flaw :=
  match sdescOf q with
  | none => [⟨stBad, 0, false⟩]
  | some e =>
    badIf (lockstep && decide (2 ≤ e.kind)) 0 ++ badIf (e.sigEn && e.sigInc == 0) 13 ++ badIf (e.rowBytes == 0) 32
    ++ reservedIf (q.getD 0 0) (255 * 2 ^ 56) 64
    ++ (reservedIf (q.getD 1 0) (511 * 2 ^ 23) 64).map (Flaw.shift 64)
    ++ (badIf (decide (e.kind < 2) && e.dpa != 0) 0 ++ reservedIf (q.getD 2 0) (0xFFFF * 2 ^ 48) 64).map (Flaw.shift 128)
    ++ (reservedIf (q.getD 3 0) (0xFFFFFFFF * 2 ^ 32) 64).map (Flaw.shift 192)

/-- Flaws of a pebble header (R278, R279). -/
def pebHeadFlaws (b : List Byte) (p : PebBlock) : List Flaw :=
  badIf (decide (16 ≤ p.contexts)) 4
  ++ zeroIn 1 8
  ++ (upTo 4).flatMap (fun x =>
    let e := p.entries.getD x 0
    badIf (e % 8 != 0) (64 + 32 * x) ++ rangeIf (p.contexts.testBit x && decide (p.codeBytes ≤ e)) (64 + 32 * x))
  ++ badIf (p.codeBytes % 8 != 0) 192 ++ rangeIf (decide (65536 < p.codeBytes)) 192
  ++ zeroIn 28 64
where zeroIn (lo hi : Nat) : List Flaw := (zeroBytes (b.drop p.at_) lo hi)

/-- First bit of the code of a block, and of a word in it. -/
def PebBlock.wordBit (p : PebBlock) (i : Nat) : Nat := 8 * (p.at_ + 64 + 8 * i)

/-- The units of a pebble's block, in ascending offset. -/
def pebBlockUnits (b : List Byte) (p : PebBlock) : List (Option Flaw) :=
  let scan := scanCode p.words p.words.length 0
  [unitFlaw (shortIf (decide (b.length < p.at_ + 64))),
   (unitFlaw (pebHeadFlaws b p)).map (Flaw.shift (8 * p.at_)),
   unitFlaw (shortIf (decide (b.length < p.at_ + 64 + p.codeBytes)))]
  ++ scan.instrs.map (fun x => (unitFlaw (instrFlaws x.2.2.1 x.2.2.2 x.2.1)).map (Flaw.shift (p.wordBit x.1)))
  ++ [scan.ended.map (fun i => ⟨stBad, p.wordBit i, false⟩),
      unitFlaw (zeroBytes b (p.at_ + 64 + p.codeBytes) (min b.length (p.at_ + 64 + cdiv p.codeBytes 64 * 64)))]

/-- R279: the first pass over a PEBBLE_PROGRAM. -/
def pebbleFirst (b : List Byte) (names : Nat) (lockstep : Bool) : Option Flaw :=
  let n := pebDescs b
  let ps := pebBlocks b
  let fin := ps.foldl (fun _ p => p.at_ + 64 + cdiv p.codeBytes 64 * 64) (pebBlocksAt b)
  firstUnit
    ([unitFlaw (shortIf (decide (b.length < 64))),
      unitFlaw (zeroBytes b 1 2 ++ rangeIf (decide (256 < n)) 16 ++ zeroBytes b 4 64 ++ absentIf (decide (2 ^ names ≤ leAt b 0 1)) 0),
      unitFlaw (shortIf (decide (b.length < 64 + 32 * n)))]
    ++ (upTo n).map (fun i => (unitFlaw (sdescFlaws (pebDesc b i) lockstep)).map (Flaw.shift (8 * (64 + 32 * i))))
    ++ [unitFlaw (zeroBytes b (64 + 32 * n) (min b.length (pebBlocksAt b)))]
    ++ ps.flatMap (pebBlockUnits b)
    ++ [unitFlaw (zeroBytes b fin b.length)])

/-- Target of a branch (R266). -/
def branchTarget (i imm : Nat) : Int := (i : Int) + sgn 32 imm

/-- R266, R279: branch targets and descriptor numbers. -/
def pebStructure (p : PebBlock) (descs : Nat) : List Flaw :=
  let is := (scanCode p.words p.words.length 0).instrs
  is.flatMap (fun x =>
    match x.2.1 with
    | .sca s =>
      if s.cls = 2 then badIf (!is.any (fun y => decide ((y.1 : Int) = branchTarget x.1 s.imm32))) (p.wordBit x.1 + 32)
      else if s.cls = 5 then rangeIf (decide (descs ≤ s.imm32 % 256)) (p.wordBit x.1 + 32) else []
    | .vec _ => [])

/-- R320: the references of a pebble's code against the map of one bound context; a stream descriptor's signal is one of the context that
dispatches it. -/
def pebRefFlaws (b : List Byte) (p : PebBlock) (m : CMap) (tile : Nat) (lockstep : Bool) : List Flaw :=
  (scanCode p.words p.words.length 0).instrs.flatMap (fun x =>
    match x.2.1 with
    | .sca s =>
      let at_ := p.wordBit x.1 + 32
      if s.cls = 4 ∧ s.op ≤ 1 then badIf (waitRefBad m tile (fld s.imm32 0 10)) at_
      else if s.cls = 4 ∧ s.op = 2 then badIf (sigRefBad m tile (fld s.imm32 0 10) lockstep) at_
      else if s.cls = 4 ∧ s.op = 3 then badIf (!m.barrierMask.testBit (fld s.imm32 0 4)) at_
      else if s.cls = 5 then
        let i := s.imm32 % 256
        match sdescOf (pebDesc b i) with
        | some e => badIf (decide (i < pebDescs b) && e.sigEn && sigRefBad m tile e.sigCairn lockstep) (8 * (64 + 32 * i) + 3)
        | none => []
      else []
    | .vec _ => [])

/-- An instruction that converts in SR mode (R154, R155, R260). -/
def srWord : PWord → Bool
  | .vec v => v.rmode == 2 && ((v.cls == 8 && decide (v.op ≤ 4) && isFloatT v.type)
      || (v.cls == 0x0B && v.type2 != 0x0D && v.type2 != 0x10 && v.type != 0x10))
  | .sca _ => false

/-- R155: an SR conversion in a pebble with a bound context whose seed is zero. -/
def pebSeedFlaws (p : PebBlock) (seeds : List Nat) : List Flaw :=
  if (upTo 4).any (fun x => p.contexts.testBit x && seeds.getD x 0 == 0) then
    (scanCode p.words p.words.length 0).instrs.flatMap (fun x => badIf (srWord x.2.1) (p.wordBit x.1 + 45))
  else []

/-- R234: the second pass over a PEBBLE_PROGRAM; maps and seeds are those of a pebble's contexts. -/
def pebbleSecond (b : List Byte) (tile : Nat) (lockstep : Bool) (maps : Nat → Nat → CMap) (seeds : Nat → Nat → Nat) : Option Flaw :=
  let ps := pebBlocks b
  [unitFlaw (ps.flatMap (fun p => pebStructure p (pebDescs b))),
   unitFlaw (ps.flatMap (fun p => ((upTo 4).filter (fun x => p.contexts.testBit x)).flatMap (fun x =>
     pebRefFlaws b p (maps p.q x) tile lockstep))),
   unitFlaw (ps.flatMap (fun p => pebSeedFlaws p ((upTo 4).map (seeds p.q))))].findSome? id

end Sys2Proof.Machine
end

