-- ==== Sys2Proof/Machine/SlabCmd.lean ====
section
/-! DEFINITION. The commands of slab contexts and of their engines (spec/04 R106 to R111, spec/07 R194 to R196, spec/08 R203, R204, R213, R227). Each
acts in its job cycle and does nothing where its conditions do not hold (log entry 2). -/

namespace Sys2Proof.Machine

/-- A command of context x takes place at a cycle: the slab runs up to it, cairn work before it is done, and the head is handed on. A fetch error
of the head stops the context (R205). -/
def Dev.atHead (d : Dev) (slab x cyc : Nat) (f : Nat → SCtx → SlabCmd → Dev → Dev) : Dev :=
  match d.slabAt slab cyc with
  | none => d
  | some t =>
    let d := (d.slabRun slab t).cairnFlush (halfOfUnit slab) t
    let c := d.getSCtx (2 * slab + x)
    match c.head with
    | none => d
    | some h => if c.codeErr.contains c.pc then d.fetchError (2 * slab + x) c.pc else f t c h d

/-- Rows, with base registers added (R216, R170). -/
def PassOp.resolve (p : PassOp) (c : SCtx) : PassOp := { p with accRow := c.eff p.accRow p.accSel, accSel := 0 }
def StreakOp.resolve (k : StreakOp) (c : SCtx) : StreakOp :=
  { k with accRow := c.eff k.accRow k.accSel, accSel := 0, waddr := c.eff k.waddr k.wSel, wSel := 0 }
def DrainOp.resolve (o : DrainOp) (c : SCtx) : DrainOp :=
  { o with accRow := c.eff o.accRow o.accSel, accSel := 0, dstAddr := c.eff o.dstAddr o.dstSel, dstSel := 0
           auxAddr := c.eff o.auxAddr o.auxSel, auxSel := 0 }

/-- Cycle from which the moving front lets a pass with K tile rows issue (R110). -/
def issueBound (s : SlabSeq) (sel : PassSel) (k : Nat) : Nat :=
  match s.active with
  | some a => max (a.c + a.d + (a.k - k)) (sel.load + k)
  | none => sel.load + k

/-- Cycles of the bubble before a pass (R110, R134). -/
def bubbleOf (s : SlabSeq) (sel : PassSel) (k : Nat) : Nat :=
  match s.active with
  | some a => issueBound s sel k - max (a.c + a.d) sel.selAt
  | none => issueBound s sel k - sel.selAt

/-- The conditions under which a pass issues (R106, R195, R505). -/
def Dev.passMay (d : Dev) (slab x t : Nat) (p : PassOp) (sel : PassSel) : Bool :=
  let s := (d.getSlab slab).seq
  let pair := (d.getSlab slab).regs.pair x
  let n := if pair then 2 * p.m else p.m
  sel.x == x && decide (issueBound s sel (tileK p.tile) ≤ t)
  && (arrayList p.arrays).all (fun a => !s.filling (aKey a p.abank) sel.selAt)
  && !s.blocked x 2 15 p.accRow n t && !s.blocked x 1 p.arrays p.accRow n t
  && decide (0 ≤ ((d.creditTo slab t).getSlab slab).pow.passCredit)

/-- The sequencer after a pass issues at t (R106, R107, R222). -/
def SlabSeq.issuePass (s : SlabSeq) (x t : Nat) (p : PassOp) (at_ : Attach) (pair : Bool) : SlabSeq :=
  let k := tileK p.tile
  let done := t + rowStep p.rho2 (p.m - 1) + k + tileN p.tile + 6
  let keys := (arrayList p.arrays).map (fun a => aKey a p.abank)
  let s := s.lock ⟨x, 0, p.arrays, p.accRow, p.m, pair, t, k, tileN p.tile, p.rho2⟩
  { s with
    active := some ⟨x, t, p.dur, k⟩, selected := none, lastPass := x
    inflight := s.inflight ++ [⟨x, 0, t, done, none, at_⟩]
    readers := s.readers.map (fun (r : BankRead) =>
      if r.fin.isNone ∧ keys.contains r.key then { r with fin := some (t + p.dur + k - 1) } else r) }

/-- Counters and status of a slab after a pass issues (R132, R134); gravel stops (R130). -/
def SlabRegs.issuePass (r : SlabRegs) (x t : Nat) (p : PassOp) (bubble : Nat) (poisoned : Bool) : SlabRegs :=
  { r with
    lastCtx := x, gravelOn := false, poisonSeen := r.poisonSeen || poisoned, passes := r.passes + 1
    streamCycles := r.streamCycles + p.dur, streamEnd := t + p.dur, bubbleCycles := r.bubbleCycles + bubble }

/-- Weight parity errors that a pass meets, as array × 128 + column (R128). -/
def passParity (s : Slab) (p : PassOp) : List Nat :=
  s.mem.weightErr.filter (fun k => p.arrays.testBit (k / 128) && decide (k % 128 < p.nv))

/-- Arrays of a pass that have left service (R129). -/
def passGone (s : Slab) (p : PassOp) : Bool :=
  (arrayList p.arrays).any (fun a => s.regs.retired || s.regs.arraysOff.testBit a)

/-- The events of a pass that poisons entries (R128, R129, R147). -/
def Dev.passEvents (d : Dev) (slab : Nat) (parity : List Nat) (gone trits : Bool) : Dev :=
  let d := Dev.each parity (fun d k =>
    d.raise { d.slabEv slab evUncorrectable 2 with sub := k / 128, index := k % 128 }) d
  let d := if gone then d.raiseOnce (d.slabEv slab evPoison 3) else d
  if trits then d.raiseOnce (d.slabEv slab evPoison 4) else d

/-- A pass issues (R106, R107): its effects are fixed from here on. -/
def Dev.passIssue (d : Dev) (slab x t : Nat) (p : PassOp) (at_ : Attach) (sel : PassSel) : Dev :=
  let s := d.getSlab slab
  let pair := s.regs.pair x
  let effs := passEffects s p sel pair t
  let parity := passParity s p
  let bubble := bubbleOf s.seq sel (tileK p.tile)
  let gone := passGone s p
  let trits := !(passBadTrits p sel.wbad).isEmpty
  let d := (d.creditTo slab t).modSlab slab (fun s => { s with
    seq := s.seq.issuePass x t p at_ pair, regs := s.regs.issuePass x t p bubble (gone || !parity.isEmpty)
    mem.weightErr := s.mem.weightErr.filter (fun k => !parity.contains k), pow.activity := s.pow.activity ++ [(t, p.dur)] })
  let d := d.modSlab slab (fun s => { s with seq.effs := s.seq.effs ++ effs })
  (d.passEvents slab parity gone trits).dispatchSlab (2 * slab + x) t

/-- R106: PASS issues. -/
def pass (slab x cyc : Nat) (d : Dev) : Dev :=
  d.atHead slab x cyc (fun t c h d =>
    match h.op, (d.getSlab slab).seq.selected with
    | .pass p, some sel =>
      let p := p.resolve c
      d.gate (c.canDispatch h t && d.passMay slab x t p sel) (fun d => d.passIssue slab x t p h.at_ sel)
    | _, _ => d)

def execPass (slab x cyc : Nat) (s : State) : Host.Outcome State Fault Refusal := s.live (pass slab x cyc)

/-- Complete the oldest command of a kind and context that is due (R204): its signal applies in the cycle after. -/
def Dev.complete (d : Dev) (slab x kind cyc : Nat) : Dev :=
  match d.slabAt slab cyc with
  | none => d
  | some t =>
    let d := d.slabRun slab t
    match (d.getSlab slab).seq.inflight.find? (fun f => f.x == x && f.kind == kind && decide (f.done ≤ t)) with
    | none => d
    | some f =>
      (d.modSlab slab (fun s => { s with seq.inflight := s.seq.inflight.erase f })).cmdSignal (2 * slab + x) f.at_ t

/-- R204: a pass completes. -/
def passComplete (slab x cyc : Nat) (d : Dev) : Dev := d.complete slab x 0 cyc

def execPassComplete (slab x cyc : Nat) (s : State) : Host.Outcome State Fault Refusal := s.live (passComplete slab x cyc)

/-- The conditions under which a Streak command issues (R194, R195, R505). -/
def Dev.streakMay (d : Dev) (slab x t : Nat) (k : StreakOp) : Bool :=
  let s := (d.getSlab slab).seq
  let n := if (d.getSlab slab).regs.pair x then 2 * k.m else k.m
  let mask := streakArrays k.n
  (match s.streakSel with | some z => z.1 == x | none => false)
  && decide (s.streakFree ≤ t) && !s.blocked x 0 mask k.accRow n t && !s.blocked x 2 mask k.accRow n t
  && decide (0 ≤ ((d.creditTo slab t).getSlab slab).pow.streakCredit)

/-- The sequencer after a Streak command issues at t (R191, R194, R222). -/
def SlabSeq.issueStreak (s : SlabSeq) (x t : Nat) (k : StreakOp) (at_ : Attach) (pair : Bool) : SlabSeq :=
  let s := s.lock ⟨x, 1, streakArrays k.n, k.accRow, k.m, pair, t, k.segs, k.n, streakG k.wfmt⟩
  { s with
    streakSel := none, lastStreak := x, streakFree := t + k.dur
    storeReads := (s.storeReads.filter (fun r => decide (t < r.2))) ++ (if k.rowq then [] else [(t, t + k.dur)])
    inflight := s.inflight ++ [⟨x, 1, t, t + k.dur + 39, none, at_⟩]
    readers := s.readers.map (fun (r : BankRead) =>
      if r.fin.isNone ∧ r.key = sKey k.abank then { r with fin := some (t + k.dur) } else r)
    effs := s.effs ++ [(t, .streakRec x k t 0)] }

/-- A Streak command issues (R194): its first record is read in the same cycle. -/
def Dev.streakIssue (d : Dev) (slab x t : Nat) (k : StreakOp) (at_ : Attach) : Dev :=
  let d := (d.creditTo slab t).modSlab slab (fun s => { s with
    seq := s.seq.issueStreak x t k at_ (s.regs.pair x)
    regs := { s.regs with streakLastCtx := x, streakLastSrc := b2n k.rowq, streakCommands := s.regs.streakCommands + 1,
                          streakCycles := s.regs.streakCycles + k.dur } })
  (d.slabEffects slab t).dispatchSlab (2 * slab + x) t

/-- R194: STREAK issues. -/
def streak (slab x cyc : Nat) (d : Dev) : Dev :=
  d.atHead slab x cyc (fun t c h d =>
    match h.op with
    | .streak k =>
      let d := d.selectStreak slab t
      let k := k.resolve c
      d.gate (c.canDispatch h t && d.streakMay slab x t k) (fun d => d.streakIssue slab x t k h.at_)
    | _ => d)

def execStreak (slab x cyc : Nat) (s : State) : Host.Outcome State Fault Refusal := s.live (streak slab x cyc)

/-- R196: the Streak unit becomes free and selects. -/
def streakUnitFree (slab cyc : Nat) (d : Dev) : Dev :=
  match d.slabAt slab cyc with
  | none => d
  | some t => (d.slabRun slab t).selectStreak slab t

def execStreakUnitFree (slab cyc : Nat) (s : State) : Host.Outcome State Fault Refusal := s.live (streakUnitFree slab cyc)

/-- R204: a Streak command completes. -/
def streakComplete (slab x cyc : Nat) (d : Dev) : Dev := d.complete slab x 1 cyc

def execStreakComplete (slab x cyc : Nat) (s : State) : Host.Outcome State Fault Refusal := s.live (streakComplete slab x cyc)

/-- The drain at the head of a context can issue at a cycle (R106, R195, R213, R222). -/
def Dev.drainCan (d : Dev) (slab x t : Nat) : Bool :=
  let c := d.getSCtx (2 * slab + x)
  let s := (d.getSlab slab).seq
  match c.head with
  | some h =>
    match h.op with
    | .drain o =>
      let o := o.resolve c
      let pair := (d.getSlab slab).regs.pair x
      let first := o.accRow
      let n := if pair then 2 * o.rows else o.rows
      c.canDispatch h t && !c.codeErr.contains c.pc && decide (s.drainFree ≤ t)
      && !s.blocked x 0 15 first n t && !s.blocked x 1 o.arrays first n t
      && (o.dst != 2 || s.readersDone [sKey o.bank] t t)
    | _ => false
  | none => false

/-- A drain issues and reads its first row (R179, R213). -/
def Dev.drainIssue (d : Dev) (slab x t : Nat) (o : DrainOp) (at_ : Attach) : Dev :=
  let d := d.modSlab slab (fun s =>
    let q := s.seq.lock ⟨x, 2, o.arrays, o.accRow, o.rows, s.regs.pair x, t, 0, 0, 0⟩
    let fly : InFlight := ⟨x, 2, t, t + o.rows - 1 + 12, if o.dst = 2 then some (sKey o.bank) else none, at_⟩
    { s with seq := { q with lastDrain := x, drainFree := t + o.rows, inflight := q.inflight ++ [fly]
                             effs := q.effs ++ [(t, .drainRow x o 0)] } })
  (d.slabEffects slab t).dispatchSlab (2 * slab + x) t

/-- R213: DRAIN issues; where both contexts could, the one that did not issue the last drain goes first. -/
def drain (slab x cyc : Nat) (d : Dev) : Dev :=
  d.atHead slab x cyc (fun t c h d =>
    match h.op with
    | .drain o =>
      let turn := (d.getSlab slab).seq.lastDrain != x || !d.drainCan slab (1 - x) t
      d.gate (d.drainCan slab x t && turn) (fun d => d.drainIssue slab x t (o.resolve c) h.at_)
    | _ => d)

def execDrain (slab x cyc : Nat) (s : State) : Host.Outcome State Fault Refusal := s.live (drain slab x cyc)

/-- R204: a drain completes at the end of its last row's cycle; what it wrote is there in the next. -/
def drainComplete (slab x cyc : Nat) (d : Dev) : Dev := d.complete slab x 2 cyc

def execDrainComplete (slab x cyc : Nat) (s : State) : Host.Outcome State Fault Refusal := s.live (drainComplete slab x cyc)

/-- Descriptors that a context has dispatched and no channel has taken (R224, R236). -/
def SlabSeq.queued (s : SlabSeq) (x : Nat) : Nat := (s.dmaQ.filter (fun j => j.x == x)).length

/-- The effective descriptor of a DMA command (R215, R216, R226). -/
def Desc.resolve (e : Desc) (c : SCtx) (src dst ssrc : Nat) : Desc :=
  { e with srcAddr := c.eff e.srcAddr src, dstAddr := c.eff e.dstAddr dst, srcSaddr := c.eff e.srcSaddr ssrc }

/-- R203: DMA dispatches its descriptor into the context's queue of 16. -/
def dma (slab x cyc : Nat) (d : Dev) : Dev :=
  d.atHead slab x cyc (fun t c h d =>
    match h.op with
    | .dma i src dst ssrc =>
      if c.codeErr.contains (descErrKey i) then d.fetchError (2 * slab + x) c.pc
      else
        match (c.descs[i]?).bind decodeDesc with
        | none => d
        | some e =>
          d.gate (c.canDispatch h t && decide ((d.getSlab slab).seq.queued x < 16)) (fun d =>
            let j : DmaJob := ⟨x, e.resolve c src dst ssrc, h.at_, t, none, none, [], []⟩
            (d.modSlab slab (fun s => { s with seq.dmaQ := s.seq.dmaQ ++ [j] })).dispatchSlab (2 * slab + x) t)
    | _ => d)

def execDma (slab x cyc : Nat) (s : State) : Host.Outcome State Fault Refusal := s.live (dma slab x cyc)

/-- Dispatch a command that does nothing beyond its wait and an effect on its context, with a signal in the next cycle (R203, R204). -/
def Dev.plainCommand (d : Dev) (slab x cyc : Nat) (ok : SlabOp → Bool) (f : SlabOp → SCtx → SCtx) : Dev :=
  d.atHead slab x cyc (fun t c h d =>
    d.gate (ok h.op && c.canDispatch h t) (fun d =>
      ((d.dispatchSlab (2 * slab + x) t).modSCtx (2 * slab + x) (f h.op)).cmdSignal (2 * slab + x) h.at_ t))

/-- Dispatch a command that does nothing beyond its wait, with a signal in the next cycle (R203, R204). -/
def Dev.idleCommand (d : Dev) (slab x cyc : Nat) (o : SlabOp) : Dev :=
  d.atHead slab x cyc (fun t c h d =>
    d.gate (h.op == o && c.canDispatch h t) (fun d => (d.dispatchSlab (2 * slab + x) t).cmdSignal (2 * slab + x) h.at_ t))

/-- R203: SYNC. -/
def sync (slab x cyc : Nat) (d : Dev) : Dev := d.idleCommand slab x cyc .sync

def execSync (slab x cyc : Nat) (s : State) : Host.Outcome State Fault Refusal := s.live (sync slab x cyc)

/-- R334: BARRIER arrives at its channel once; it dispatches when the round is released. -/
def barrier (slab x cyc : Nat) (d : Dev) : Dev :=
  d.atHead slab x cyc (fun t c h d =>
    match h.op with
    | .barrier ch rebase =>
      d.gate (c.canDispatch h t && !c.arrived) (fun d =>
        (d.modSCtx (2 * slab + x) (fun c => { c with arrived := true })).arrive (tileOfSlab slab) x ch rebase t)
    | _ => d)

def execBarrier (slab x cyc : Nat) (s : State) : Host.Outcome State Fault Refusal := s.live (barrier slab x cyc)

/-- R216: BASE sets a register and its stride. -/
def base (slab x cyc : Nat) (d : Dev) : Dev :=
  d.plainCommand slab x cyc (fun o => match o with | .base _ _ _ => true | _ => false) (fun o c =>
    match o with
    | .base r v st => { c with baseVal := tabSet 0 r v c.baseVal, baseStride := tabSet 0 r st c.baseStride }
    | _ => c)

def execBase (slab x cyc : Nat) (s : State) : Host.Outcome State Fault Refusal := s.live (base slab x cyc)

/-- R216, R217: LOOP opens a body. -/
def loop (slab x cyc : Nat) (d : Dev) : Dev :=
  d.plainCommand slab x cyc (fun o => match o with | .loop _ _ _ => true | _ => false) (fun o c =>
    match o with
    | .loop n body mask => { c with loops := ⟨c.pc, c.pc + body - 1, n, mask⟩ :: c.loops }
    | _ => c)

def execLoop (slab x cyc : Nat) (s : State) : Host.Outcome State Fault Refusal := s.live (loop slab x cyc)

/-- R203: NOP takes one cycle. -/
def nop (slab x cyc : Nat) (d : Dev) : Dev := d.idleCommand slab x cyc .nop

def execNop (slab x cyc : Nat) (s : State) : Host.Outcome State Fault Refusal := s.live (nop slab x cyc)

/-- R204: END dispatches: the context dispatches nothing further. -/
def slabEnd (slab x cyc : Nat) (d : Dev) : Dev :=
  d.atHead slab x cyc (fun t c h d =>
    d.gate ((match h.op with | .finish => true | _ => false) && c.canDispatch h t) (fun d =>
      (d.modSCtx (2 * slab + x) (fun c => { c with ended := true, lastDispatch := some t })).cmdSignal (2 * slab + x) h.at_ t))

def execSlabEnd (slab x cyc : Nat) (s : State) : Host.Outcome State Fault Refusal := s.live (slabEnd slab x cyc)

/-- Everything that a context dispatched has completed (R204). -/
def Slab.allDone (s : Slab) (x : Nat) : Bool :=
  (s.seq.dmaQ ++ s.seq.dmaRun).all (fun j => j.x != x) && s.seq.inflight.all (fun f => f.x != x)

/-- A context has raised a signal that is not resolved in a cycle (R332): a signal of its own tile is resolved from the cycle of its operation. -/
def Dev.signalsOpen (d : Dev) (tile id t : Nat) : Bool :=
  d.cairn.signals.any (fun s => s.tile == tile && s.id == id)
  || d.cairn.ops.any (fun o => o.tile == tile && o.id == id && o.port == 1 && decide (t < o.time))

/-- Every bound context of a partition has finished its program. -/
def Dev.allFinished (d : Dev) (n : Nat) : Bool :=
  let p := d.getPart n
  p.slabCtxs.all (fun k => let c := d.getSCtx k; !c.bound || c.endDone)
  && p.pebCtxs.all (fun k => let c := d.getPCtx k; !c.bound || c.ended)

/-- What the completed commands of a slab still leave in the cycles behind them (R179, R191). -/
def Dev.slabRest (d : Dev) (slab : Nat) : Dev := d.slabRun slab ((d.getSlab slab).seq.effs.foldl (fun t e => max t e.1) 0)

/-- The job of a partition ends with its last context (R332, R453): it drains while signals are unresolved. -/
def Dev.endIfDone (d : Dev) (n : Nat) : Dev :=
  if (d.getPart n).running ∧ d.allFinished n = true then
    (Dev.each (d.getPart n).units Dev.slabRest d).endJob n (if d.unresolved n then 3 else 4) 0
  else d

/-- R204: a context's task is finished. -/
def slabTaskFinish (slab x cyc : Nat) (d : Dev) : Dev :=
  match d.slabAt slab cyc with
  | none => d
  | some t =>
    let d := (d.slabRun slab t).cairnFlush (halfOfUnit slab) t
    let c := d.getSCtx (2 * slab + x)
    d.gate (c.bound && c.ended && !c.endDone && !c.stopped && (d.getSlab slab).allDone x
        && !d.signalsOpen (tileOfSlab slab) x t) (fun d =>
      (d.modSCtx (2 * slab + x) (fun c => { c with endDone := true })).endIfDone (d.holderNo (halfOfUnit slab)))

def execSlabTaskFinish (slab x cyc : Nat) (s : State) : Host.Outcome State Fault Refusal := s.live (slabTaskFinish slab x cyc)

/-- The next descriptor of a channel in dispatch order (R224): of two dispatched in one cycle, that of the context not served last. -/
def SlabSeq.nextDesc (s : SlabSeq) (mesh : Bool) : Option DmaJob :=
  let mine := s.dmaQ.filter (fun j => (j.desc.src == 1) == mesh)
  let last := if mesh then s.lastMesh else s.lastMem
  match mine with
  | [] => none
  | j :: _ => some ((mine.find? (fun q => q.dispatched == j.dispatched && q.x != last)).getD j)

/-- A channel may take a descriptor at a cycle (R222, R227). -/
def SlabSeq.mayStart (s : SlabSeq) (mesh : Bool) (t : Nat) (j : DmaJob) : Bool :=
  decide (j.dispatched < t)
  && (if mesh then decide (s.meshFree ≤ t) && !s.dmaRun.any (fun q => q.desc.src == 1)
      else decide (s.memFree ≤ t) && !s.dmaRun.any (fun q => q.desc.src != 1 && q.readEnd.isNone))
  && s.readersDone j.desc.bankKeys j.dispatched t

/-- R224, R227: a channel takes its next descriptor and begins to read; a DPA source sends its READs. -/
def dmaDescStart (slab channel cyc : Nat) (d : Dev) : Dev :=
  match d.slabAt slab cyc with
  | none => d
  | some t =>
    let d := d.slabRun slab t
    let mesh := channel == 1
    let s := (d.getSlab slab).seq
    match s.nextDesc mesh with
    | none => d
    | some j =>
      d.gate (s.mayStart mesh t j) (fun d =>
        let run : DmaJob := { j with started := some t, got := if j.desc.src = 2 then List.replicate j.desc.total PByte.zero else [] }
        let d := d.modSlab slab (fun s => { s with seq := { s.seq with
          dmaQ := s.seq.dmaQ.erase j, dmaRun := s.seq.dmaRun ++ [run]
          lastMem := if mesh then s.seq.lastMem else j.x, lastMesh := if mesh then j.x else s.seq.lastMesh } })
        if j.desc.src = 2 then
          d.sendReads slab cyc (fun q => q.desc.src == 2 && q.readEnd.isNone && q.started == some t) j.desc
        else d)

def execDmaDescStart (slab channel cyc : Nat) (s : State) : Host.Outcome State Fault Refusal := s.live (dmaDescStart slab channel cyc)

/-- The bytes of a COPY with SRC = DPA reach their target at its completion (R227). -/
def Dev.copyDpa (d : Dev) (slab t : Nat) (j : DmaJob) : Dev :=
  match j.desc.dst with
  | 0 => d.writeMem (storeDpa slab j.desc.dstAddr) j.got (d.slabWriter slab)
  | 1 => d.pushOut slab (d.cycleValue (halfOfUnit slab) t) j.got
  | 3 => d.modSlab slab (fun s => { s with mem := s.mem.sbankBytes j.desc.bank j.desc.dstAddr j.got })
  | _ => d

/-- A running descriptor of a channel has completed by a cycle (R227). -/
def DmaJob.finished (j : DmaJob) (mesh : Bool) (t : Nat) : Bool := (j.desc.src == 1) == mesh && j.done.any (fun c => decide (c ≤ t))

/-- R227, R204, R329: a descriptor completes: its bank is filled and its signal applies in the cycle after, unless it rode on the last WRITE. -/
def dmaDescComplete (slab channel cyc : Nat) (d : Dev) : Dev :=
  match d.slabAt slab cyc with
  | none => d
  | some t =>
    let d := d.slabRun slab t
    let mesh := channel == 1
    match (d.getSlab slab).seq.dmaRun.find? (fun j => j.finished mesh t) with
    | none => d
    | some j =>
      let rode := j.desc.kind == 3 && j.desc.dst == 2 && (d.ridesTo slab j).isSome
      let d := d.modSlab slab (fun s => { s with
        mem := j.desc.fill j.got s.mem, seq.dmaRun := s.seq.dmaRun.erase j, seq.meshFree := if mesh then t else s.seq.meshFree })
      let d := if j.desc.kind = 3 ∧ j.desc.src = 2 then d.copyDpa slab t j else d
      if rode then d else d.cmdSignal (2 * slab + j.x) j.at_ t

def execDmaDescComplete (slab channel cyc : Nat) (s : State) : Host.Outcome State Fault Refusal := s.live (dmaDescComplete slab channel cyc)

end Sys2Proof.Machine
end

