-- ==== Sys2Proof/Machine/PebbleSync.lean ====
section
/-! DEFINITION. Waits, signals, barriers, fences and streams of a pebble, and the end of its tasks (spec/09 R241, R243, R266, R270, R271;
spec/11 R322, R327, R329, R334). -/

namespace Sys2Proof.Machine

/-- Context ID of a pebble context in its tile's cairns (R317). -/
def pebId (peb x : Nat) : Nat := 4 * (peb % 8) + x

/-- A wait of a pebble (R241, R322): it registers in the cycle of its issue and parks until it is satisfied. -/
def sWait (op peb x cyc : Nat) (d : Dev) : Dev :=
  d.issueS peb x cyc 4 op (fun t _ s d =>
    (d.modPCtx (4 * peb + x) (fun c => { c with state := 2, park := 1 })).registerWait (tileOfCluster (peb / 8)) (pebId peb x)
      (fld s.imm32 0 10) (fld s.imm32 10 16) (op == 1) t)

def execWaitC (pebble x cyc : Nat) (s : State) : Host.Outcome State Fault Refusal := s.live (sWait 0 pebble x cyc)

def execWaitO (pebble x cyc : Nat) (s : State) : Host.Outcome State Fault Refusal := s.live (sWait 1 pebble x cyc)

/-- R327: SIGNAL enters its cairn two cycles after issue. -/
def sSignal (peb x cyc : Nat) (d : Dev) : Dev :=
  d.issueS peb x cyc 4 2 (fun t _ s d =>
    d.raiseSignal (tileOfCluster (peb / 8)) (pebId peb x) (fld s.imm32 0 10) (fld s.imm32 10 8) (t + 2))

def execSSignal (pebble x cyc : Nat) (s : State) : Host.Outcome State Fault Refusal := s.live (sSignal pebble x cyc)

/-- R334: BARRIER arrives and parks until the round is released. -/
def sBarrier (peb x cyc : Nat) (d : Dev) : Dev :=
  d.issueS peb x cyc 4 3 (fun t _ s d =>
    (d.modPCtx (4 * peb + x) (fun c => { c with state := 2, park := 2 })).arrive (tileOfCluster (peb / 8)) (pebId peb x)
      (fld s.imm32 0 4) (s.imm32.testBit 4) t)

def execSBarrier (pebble x cyc : Nat) (s : State) : Host.Outcome State Fault Refusal := s.live (sBarrier pebble x cyc)

/-- The stores of a context are visible and its streams complete (R241, R243, R266). -/
def Dev.pebQuiet (d : Dev) (peb x t : Nat) : Bool :=
  let c := d.getPCtx (4 * peb + x)
  decide (c.storesUntil ≤ t) && c.streams == 0
  && !(d.getCluster (peb / 8)).pend.any (fun a => a.ctx == 4 * peb + x && !a.load)

/-- R241, R266: FENCE parks while stores or streams of the context are outstanding. -/
def fence (peb x cyc : Nat) (d : Dev) : Dev :=
  d.issueS peb x cyc 4 4 (fun t _ _ d =>
    if d.pebQuiet peb x t then d else d.modPCtx (4 * peb + x) (fun c => { c with state := 2, park := 3 }))

def execFence (pebble x cyc : Nat) (s : State) : Host.Outcome State Fault Refusal := s.live (fence pebble x cyc)

/-- A pebble's own work at a cycle of the current beat, with its cluster run up to it. -/
def Dev.pebAt (d : Dev) (peb cyc : Nat) (f : Nat → Dev → Dev) : Dev :=
  let half := halfOfUnit (peb / 8)
  let t := d.now half cyc
  if d.working half cyc ∧ (d.getCluster (peb / 8)).cur ≤ t then f t ((d.clusterRun (peb / 8) t).cairnFlush half t) else d

/-- R241: a FENCE's condition is met; the next instruction issues two cycles later at the earliest. -/
def fenceSatisfied (peb x cyc : Nat) (d : Dev) : Dev :=
  d.pebAt peb cyc (fun t d =>
    let c := d.getPCtx (4 * peb + x)
    d.gate (c.state == 2 && c.park == 3 && d.pebQuiet peb x t) (fun d =>
      d.modPCtx (4 * peb + x) (fun c => { c with state := 1, park := 0, wake := t + 2 })))

def execFenceSatisfied (pebble x cyc : Nat) (s : State) : Host.Outcome State Fault Refusal := s.live (fenceSatisfied pebble x cyc)

/-- R243: END issues; the context issues nothing further. -/
def sEnd (peb x cyc : Nat) (d : Dev) : Dev :=
  d.issueS peb x cyc 4 5 (fun _ _ _ d => d.modPCtx (4 * peb + x) (fun c => { c with endIssued := true }))

def execSEnd (pebble x cyc : Nat) (s : State) : Host.Outcome State Fault Refusal := s.live (sEnd pebble x cyc)

/-- R266: NOP takes an issue slot. -/
def sNop (peb x cyc : Nat) (d : Dev) : Dev := d.issueS peb x cyc 4 6 (fun _ _ _ d => d)

def execSNop (pebble x cyc : Nat) (s : State) : Host.Outcome State Fault Refusal := s.live (sNop pebble x cyc)

/-- Every result of a context is usable (R243). -/
def PCtx.settled (c : PCtx) (t : Nat) : Bool :=
  c.sReady.all (fun r => decide (r.2 ≤ t)) && c.vReady.all (fun r => decide (r.2 ≤ t)) && c.mReady.all (fun r => decide (r.2 ≤ t))

/-- R243, R332: a context finishes and enters NO_TASK. -/
def pebbleTaskFinish (peb x cyc : Nat) (d : Dev) : Dev :=
  d.pebAt peb cyc (fun t d =>
    let c := d.getPCtx (4 * peb + x)
    d.gate (c.bound && c.state == 1 && c.endIssued && !c.ended && c.settled t && d.pebQuiet peb x t
        && !d.signalsOpen (tileOfCluster (peb / 8)) (pebId peb x) t) (fun d =>
      (d.modPCtx (4 * peb + x) (fun c => { c with state := 0, ended := true })).endIfDone (d.holderNo (halfOfUnit (peb / 8)))))

def execPebbleTaskFinish (pebble x cyc : Nat) (s : State) : Host.Outcome State Fault Refusal := s.live (pebbleTaskFinish pebble x cyc)

/-! ## Streams -/

/-- R266, R270: STREAM dispatches a descriptor with its effective addresses; an uncorrectable descriptor stops the context (R275). -/
def stream (peb x cyc : Nat) (d : Dev) : Dev :=
  d.issueS peb x cyc 5 0 (fun t c s d =>
    let cl := d.getCluster (peb / 8)
    let i := s.imm32 % 256
    if cl.descErr.contains i then d.pebFetchError peb x c.pc
    else
      match cl.desc i with
      | none => d
      | some e =>
        let j : StreamJob :=
          ⟨4 * peb + x, e, (e.cmemAddr + (c.sreg s.sa).bits.toNat) % cmemSize, (e.dpa + (c.sreg s.sb).bits.toNat) % 2 ^ 64, t, none, 0, none, []⟩
        let ch := cl.chan e.channel
        (d.modCluster (peb / 8) (fun k => k.setChan e.channel { ch with queue := ch.queue ++ [j] })).modPCtx (4 * peb + x)
          (fun c => { c with streams := c.streams + 1 }))

def execStream (pebble x cyc : Nat) (s : State) : Host.Outcome State Fault Refusal := s.live (stream pebble x cyc)

/-- Packets of a routed stream: DPA, cluster-memory offset and length, row by row (R270, R353). -/
def Dev.streamChunks (d : Dev) (j : StreamJob) : List (Nat × Nat × Nat) :=
  (upTo j.desc.rows).flatMap (fun r =>
    let a := (j.ea + r * j.desc.dpaStride) % 2 ^ 64
    let m := (j.cmem + r * j.desc.cmemStride) % cmemSize
    let n := min j.desc.rowBytes (cmemSize - m)
    d.chunks (n + 1) a m n ++ d.chunks (j.desc.rowBytes - n + 1) (a + n) 0 (j.desc.rowBytes - n))

/-- The signal of a WR stream rides on its last packet if every packet writes the memory of the tile that holds the target cairn (R329). -/
def Dev.streamRides (d : Dev) (cl : Nat) (j : StreamJob) : Option (Nat × Nat) :=
  let e := d.mapEntry (tileOfCluster cl) (j.ctx % 32) j.desc.sigCairn
  if j.desc.sigEn ∧ j.desc.kind = 3 ∧ !mapRemote e then
    let there := (d.streamChunks j).all (fun p => d.unitOfDpa p.1 == some (mapDie e, unitOfCairn (mapTile e)))
    if there then some (mapIndex e, j.desc.sigInc) else none
  else none

/-- Note a tag on the running routed stream. -/
def Cluster.streamTag (c : Cluster) (tag : Nat) : Cluster :=
  { c with chRouted.run := c.chRouted.run.map (fun (j : StreamJob) => { j with tags := j.tags ++ [tag] }) }

/-- Send the requests of a routed stream (R271, R366). -/
def Dev.streamSend (d : Dev) (cl cyc : Nat) (j : StreamJob) : Dev :=
  let src := endpointOf d.fab.selfDevice (cl / 8) (unitCluster (cl % 8))
  let part := d.holderNo (halfOfUnit cl)
  let ps := d.streamChunks j
  let ride := d.streamRides cl j
  let wr := decide (j.desc.kind = 3)
  Dev.each ((upTo ps.length).zip ps) (fun d z =>
    let p := z.2
    let (tag, d) := d.takeTag
    let dest := d.dpaEndpoint p.1
    let sig := if z.1 + 1 = ps.length then ride else none
    let got := if wr then d.cmemRead cl p.2.1 p.2.2 else ([], d)
    let r : Req := ⟨src, dest, tag, if wr then 0 else 1, part, p.1, p.2.2, 0, d.clock.wall, .stream cl, p.2.1⟩
    let hdr := msgHeader p.1 (b2n sig.isSome) 0 p.2.2 tag ((sig.map (·.1)).getD 0) ((sig.map (·.2)).getD 0) 0
    let d := got.2.modCluster cl (fun c => c.streamTag tag)
    d.request r cyc (mkPacket dest src part (if wr then 0 else 1) 0 sig.isSome hdr got.1)) d

/-- A cluster's channel work at a cycle of the current beat. -/
def Dev.clusterAt (d : Dev) (cl cyc : Nat) (f : Nat → Dev → Dev) : Dev :=
  let half := halfOfUnit cl
  let t := d.now half cyc
  if d.working half cyc ∧ (d.getCluster cl).cur ≤ t then f t (d.clusterRun cl t) else d

/-- R271: a channel takes its next descriptor: from the cycle after dispatch and the completion of the previous one. -/
def streamDescStart (cl channel cyc : Nat) (d : Dev) : Dev :=
  d.clusterAt cl cyc (fun t d =>
    let ch := (d.getCluster cl).chan channel
    match ch.run, ch.queue with
    | none, j :: rest =>
      d.gate (decide (j.at_ < t) && decide (ch.free ≤ t)) (fun d =>
        let run : StreamJob := { j with started := some t }
        let d := d.modCluster cl (fun c => c.setChan channel { ch with run := some run, queue := rest })
        if channel = 2 then d.streamSend cl cyc run else d)
    | _, _ => d)

def execStreamDescStart (cluster channel cyc : Nat) (s : State) : Host.Outcome State Fault Refusal :=
  s.live (streamDescStart cluster channel cyc)

/-- R271, R327, R329: a stream descriptor completes; its signal applies in the cycle after, unless it rode on the last WRITE. -/
def streamDescComplete (cl channel cyc : Nat) (d : Dev) : Dev :=
  d.clusterAt cl cyc (fun t d =>
    let ch := (d.getCluster cl).chan channel
    match ch.run with
    | none => d
    | some j =>
      let allMoved := if channel = 2 then j.tags.isEmpty else (match j.done with | some u => decide (u ≤ t) | none => false)
      d.gate allMoved (fun d =>
        let rode := (d.streamRides cl j).isSome
        let d := (d.modCluster cl (fun c => c.setChan channel { ch with run := none, free := t })).modPCtx j.ctx
          (fun c => { c with streams := c.streams - 1 })
        if j.desc.sigEn ∧ ¬rode then d.raiseSignal (tileOfCluster cl) (j.ctx % 32) j.desc.sigCairn j.desc.sigInc (t + 1) else d))

def execStreamDescComplete (cluster channel cyc : Nat) (s : State) : Host.Outcome State Fault Refusal :=
  s.live (streamDescComplete cluster channel cyc)

end Sys2Proof.Machine
end

