-- ==== Sys2Proof/Machine/Mesh.lean ====
section
/-! DEFINITION. The scheduled mesh (spec/03 R75 to R79, R91; spec/10 R290, R301, R302; spec/13 R414). A tile is 32p + 16h + 4 row + column; ports are
0 LOCAL, 1 N, 2 S, 3 RIM, 4 SEAM (R72). A slot entry fires cycle by cycle: one command moves its lanes in one of its cycles. -/

namespace Sys2Proof.Machine

/-- Parts of a tile key. -/
def tDie (t : Nat) : Nat := t / 32
def tHalf (t : Nat) : Nat := t / 16
def tRow (t : Nat) : Nat := t / 4 % 4
def tCol (t : Nat) : Nat := t % 4

/-- Slab, quarry or cluster index 8p + n of a tile, and its unit number (R71, R350). -/
def tUnitKey (t : Nat) : Nat := 8 * tDie t + 4 * (t / 16 % 2) + tRow t
def tUnit (t : Nat) : Nat := t % 32

/-- Fields of a slot entry (R77). -/
def eStart (e : Nat) : Nat := fld e 0 11
def eLength (e : Nat) : Nat := fld e 11 11
def eOut (e : Nat) : Nat := fld e 22 3
def eIn (e : Nat) : Nat := fld e 25 3
def ePeriod (e : Nat) : Nat := fld e 28 4
def ePhase (e : Nat) : Nat := fld e 32 15
def eLanes (e : Nat) : Nat := fld e 48 8
def eHalf (e : Nat) : Nat := fld e 56 1
def eValid (e : Nat) : Bool := e.testBit 63

/-- An entry fires on a job beat (R77). -/
def eFires (e j : Nat) : Bool := eValid e && (j + 2 ^ 16 - ePhase e) % 2 ^ ePeriod e == 0

/-- An entry covers a cycle of the beat. -/
def eCovers (e cyc : Nat) : Bool := decide (eStart e ≤ cyc) && decide (cyc < eStart e + eLength e)

/-- The double-width link joins a hub tile and the quarry tile of its row (R75). -/
def portDouble (tile port : Nat) : Bool := (tCol tile == 0 && port == 4) || (tCol tile == 1 && port == 3)

/-- Width of a port in an entry: LOCAL takes the width of the other port (R78). -/
def eDouble (tile e : Nat) (isIn : Bool) : Bool :=
  let p := if isIn then eIn e else eOut e
  let q := if isIn then eOut e else eIn e
  if p = 0 then portDouble tile q else portDouble tile p

/-- Lane pairs (input, output) that an entry moves (R78). -/
def eLanePairs (tile e : Nat) : List (Nat × Nat) :=
  let ns := (upTo 8).filter (fun n => (eLanes e).testBit n)
  let di := eDouble tile e true
  let do_ := eDouble tile e false
  if di ∧ do_ then ns.flatMap (fun n => [(2 * n, 2 * n), (2 * n + 1, 2 * n + 1)])
  else if di then ns.map (fun n => (n + 8 * eHalf e, n))
  else if do_ then ns.map (fun n => (n, n + 8 * eHalf e))
  else ns.map (fun n => (n, n))

/-- Neighbour of a tile at a mesh port, and the neighbour's port toward it (R71, R72); none at an edge. -/
def meshNeighbour (tile port : Nat) : Option (Nat × Nat) :=
  match port with
  | 1 => if tRow tile = 0 then none else some (tile - 4, 2)
  | 2 => if tRow tile = 3 then none else some (tile + 4, 1)
  | 3 => if tCol tile = 0 then none else some (tile - 1, 4)
  | 4 => if tCol tile = 3 then some (if tile / 16 % 2 = 0 then tile + 16 else tile - 16, 4) else some (tile + 1, 3)
  | _ => none

/-- A port of a tile is a Seam crossing (R72, R87). -/
def seamPort (tile port : Nat) : Bool := tCol tile == 3 && port == 4

/-- An event that a tile raises about itself. -/
def Dev.tileEv (d : Dev) (tile code cause : Nat) : Ev :=
  { code := code, cause := cause, sev := 2, die := tDie tile, partition := d.holderNo (tHalf tile), cls := 1, idx := tUnit tile }

/-- Key of a lane of an output. -/
def laneKey (tile port lane : Nat) : Nat := (tile * 8 + port) * 16 + lane

/-- Send 64 bytes on a lane in a cycle; a lane remembers its last eight sends. -/
def Dev.sendLane (d : Dev) (tile port lane t : Nat) (bs : List PByte) : Dev :=
  let k := laneKey tile port lane
  let old := (tabGet [] k d.mesh.lanes).filter (fun w => w.at_ != t && decide (t < w.at_ + 8))
  { d with mesh.lanes := tabSet [] k (⟨t, bs⟩ :: old) d.mesh.lanes }

/-- What a lane carried in a cycle. -/
def Dev.laneAt (d : Dev) (tile port lane t : Nat) : Option (List PByte) :=
  ((tabGet [] (laneKey tile port lane) d.mesh.lanes).find? (fun w => w.at_ == t)).map (·.bytes)

/-- What a lane carried n cycles before a cycle. -/
def Dev.laneBack (d : Dev) (tile port lane t n : Nat) : Option (List PByte) := if n ≤ t then d.laneAt tile port lane (t - n) else none

/-- Poisoned bytes of one lane in one cycle. -/
def lanePoison : List PByte := poisonBytes 64

/-- EV_POISON_DELIVERED with cause SCHEDULED of a tile, once per beat (R78). -/
def Dev.schedPoison (d : Dev) (tile port : Nat) : Dev := d.raiseOnce { d.tileEv tile evPoison 1 with index := port }

/-! ## The Seam (R91, R92) -/

/-- A row crossing of a die slips in this beat (R91, R92, R94): its event, SLIP_SEEN, the cause and the rows. -/
def Dev.seamSlip (d : Dev) (die cause row : Nat) : Dev :=
  let s := d.getSeam die
  let first := s.slipBeat != some d.clock.wall
  let d := d.modSeam die (fun s => { s with
    slipSeen := true, slipCause := cause, slipRows := if first then 2 ^ row else s.slipRows ||| 2 ^ row
    slips := if first then satAdd 32 s.slips 1 else s.slips, slipBeat := some d.clock.wall })
  d.raiseOnce { code := 0x0202, cause := cause, sev := 2, die := die, partition := d.holderNo (2 * die), cls := 0, idx := 0, valueA := 2 ^ row, key := row }

/-! ## LOCAL and RIM sources -/

/-- Take n bytes of a FIFO; missing ones are poisoned (R214). -/
def fifoTake (q : List PByte) (n : Nat) : List PByte × List PByte × Bool :=
  (q.take n ++ poisonBytes (n - q.length), q.drop n, decide (q.length < n))

/-- Take n bytes of the outbound FIFO of a slab tile (R214). -/
def Dev.slabOut (d : Dev) (tile n : Nat) : List PByte × Dev :=
  let k := tUnitKey tile
  let (bs, rest, under) := fifoTake (d.getSlab k).mem.outFifo n
  let d := d.modSlab k (fun s => { s with mem.outFifo := rest, regs.fifoUnder := s.regs.fifoUnder || under })
  (bs, if under then d.schedPoison tile 0 else d)

/-- Take n bytes of the outbound FIFO of a cluster tile (R272). -/
def Dev.clusterOut (d : Dev) (tile n : Nat) : List PByte × Dev :=
  let k := tUnitKey tile
  let (bs, rest, under) := fifoTake (d.getCluster k).outFifo n
  let d := d.modCluster k (fun c => { c with outFifo := rest, fifoUnder := c.fifoUnder || under })
  (bs, if under then d.schedPoison tile 0 else d)

/-- Take n bytes of a link's inbound scheduled FIFO (R414, R415). -/
def Dev.rimIn (d : Dev) (tile link n : Nat) : List PByte × Dev :=
  let (bs, rest, under) := fifoTake (d.getLink link).sched.inFifo n
  let d := d.modLink link (fun l => { l with sched.inFifo := rest })
  (bs, if under then d.schedPoison tile 3 else d)

/-- DPA of a cursor offset: a quarry tile, or the HBM window of the die (R301). -/
def cursorDpa (tile off : Nat) : Nat :=
  if tCol tile = 1 then dpaQuarry (tDie tile) (4 * (tile / 16 % 2) + tRow tile) off else tDie tile * 2 ^ 46 + off

/-- Cursor of an entry. -/
def Dev.cursor (d : Dev) (tile i : Nat) : Cursor := tabGet {} (1024 * tile + i) d.mesh.cursors

/-- Bytes of one firing of an entry: LENGTH × lanes × 64 (R301). -/
def eBytes (tile e : Nat) : Nat := eLength e * (eLanePairs tile e).length * 64

/-- The position behind a firing (R301). -/
def Cursor.next (c : Cursor) (f : Nat) : Nat := if c.wrap ≤ c.pos + f then 0 else c.pos + f

/-- Claim the bank of 64 bytes at a quarry offset in a cycle (R290): refused where it is already granted. -/
def Dev.quarryBank (d : Dev) (tile off t at_ : Nat) : Bool × Dev :=
  let k := 64 * tile + off / 64 % 64
  if tabGet 0 k d.mesh.banks = t + 1 then
    (false, d.raiseOnce { d.tileEv tile 0x0201 3 with index := off / 64 % 64, valueA := at_ })
  else (true, { d with mesh.banks := tabSet 0 k (t + 1) d.mesh.banks })

/-- The key under which a prefetched delivery of a tile's entry waits (R302). -/
def entryKey (tile i : Nat) : Nat := 1024 * tile + i

/-- A scheduled read of n pieces of 64 bytes from HBM; a channel that retrains delivers poison (R302, R307). -/
def Dev.hbmPieces (d : Dev) (tile : Nat) : Nat → Nat → List PByte × Dev
  | _, 0 => ([], d)
  | a, n + 1 =>
    let r := if d.hbmWaits a then (lanePoison, d.schedPoison tile 0) else d.readMem a 64
    let q := r.2.hbmPieces tile (a + 64) n
    (r.1 ++ q.1, q.2)

/-- 64 bytes that LOCAL of a quarry tile or an HBM hub tile supplies for lane position q in a cycle (R290, R301, R302). -/
def Dev.memoryOut (d : Dev) (tile i e cyc t q lane : Nat) : List PByte × Dev :=
  let c := d.cursor tile i
  let n := (eLanePairs tile e).length
  let off := c.base + c.pos + ((cyc - eStart e) * n + q) * 64
  if tCol tile = 1 then
    let (ok, d) := d.quarryBank tile off t (lane + 2 ^ 16 * cyc)
    if ok then d.readMem (cursorDpa tile off) 64 else (lanePoison, d)
  else
    match (tabGet [] (entryKey tile i) d.mesh.prefetch).find? (fun w => w.at_ == t) with
    | some w => ((w.bytes.drop (64 * q)).take 64, d)
    | none => d.hbmPieces tile (cursorDpa tile off) 1

/-- LOCAL of a tile takes 64 bytes for lane position q in a cycle (R214, R272, R290, R301). -/
def Dev.memoryIn (d : Dev) (tile i e cyc t q lane : Nat) (bs : List PByte) : Dev :=
  let c := d.cursor tile i
  let n := (eLanePairs tile e).length
  let off := c.base + c.pos + ((cyc - eStart e) * n + q) * 64
  let w := d.slabWriter (tUnitKey tile)
  if tCol tile = 1 then
    let (ok, d) := d.quarryBank tile off t (lane + 2 ^ 16 * cyc)
    if ok then d.writeMem (cursorDpa tile off) bs w else d
  else if d.hbmWaits (cursorDpa tile off) then d.logLost (cursorDpa tile off)
  else d.writeMem (cursorDpa tile off) bs w

/-- 64 bytes from the input port of an entry: LOCAL, a link's FIFO, or the neighbour's send two cycles earlier, six at the Seam (R75, R78, R85, R91). -/
def Dev.laneIn (d : Dev) (tile i e cyc t q lane : Nat) : List PByte × Dev :=
  let port := eIn e
  if port = 0 then
    if tCol tile = 2 then d.slabOut tile 64 else if tCol tile = 3 then d.clusterOut tile 64 else d.memoryOut tile i e cyc t q lane
  else if port = 3 ∧ tCol tile = 0 then
    match linkAt (256 * tDie tile + tUnit tile) with
    | some l => d.rimIn tile l 64
    | none => (lanePoison, d.schedPoison tile 3)
  else
    match meshNeighbour tile port with
    | none => (lanePoison, d.schedPoison tile port)
    | some (nb, op) =>
      if seamPort tile port then
        let s := d.getSeam (tDie tile)
        if s.mode ≠ 0 then (lanePoison, d)
        else if s.poisoned.testBit (tRow tile) then (lanePoison, d)
        else
          match d.laneBack nb op lane (d.now (tHalf nb) cyc) 6 with
          | some bs => (bs, d)
          | none => (lanePoison, d.schedPoison tile port)
      else
        match d.laneBack nb op lane t 2 with
        | some bs => (bs, d)
        | none => (lanePoison, d.schedPoison tile port)

/-- Deliver 64 bytes to the output port of an entry (R75, R78, R91, R214, R414). -/
def Dev.laneOut (d : Dev) (tile i e cyc t q lane : Nat) (bs : List PByte) : Dev :=
  let port := eOut e
  if port = 0 then
    if tCol tile = 2 then d.pushIn (tUnitKey tile) (lane + 2 ^ 16 * cyc) bs
    else if tCol tile = 3 then d.clusterIn (tUnitKey tile) (lane + 2 ^ 16 * cyc) bs
    else d.memoryIn tile i e cyc t q lane bs
  else if port = 3 ∧ tCol tile = 0 then
    match linkAt (256 * tDie tile + tUnit tile) with
    | some l =>
      let (q, full) := fifoPut (d.getLink l).sched.outFifo bs
      let d := d.modLink l (fun x => { x with sched.outFifo := q })
      if full then d.fifoFull l (lane + 2 ^ 16 * cyc) else d
    | none => d
  else if seamPort tile port then
    let s := d.getSeam (tDie tile)
    if s.mode ≠ 0 then d.seamSlip (tDie tile) 1 (tRow tile) else d.sendLane tile port lane t bs
  else d.sendLane tile port lane t bs

/-- Claim a lane of an output in a cycle (R79): the entry with the lower IN keeps it; the other's data is dropped with EV_SLOT_COLLISION. -/
def Dev.claimLane (d : Dev) (tile e lane cyc t : Nat) : Bool × Dev :=
  let k := laneKey tile (eOut e) lane
  let old := tabGet 0 k d.mesh.claims
  let mine := 8 * (t + 1) + eIn e
  if old / 8 = t + 1 then
    let d := d.raiseOnce { d.tileEv tile 0x0201 1 with index := eOut e, valueA := lane + 2 ^ 16 * cyc }
    if eIn e < old % 8 then (true, { d with mesh.claims := tabSet 0 k mine d.mesh.claims }) else (false, d)
  else (true, { d with mesh.claims := tabSet 0 k mine d.mesh.claims })

/-- The tile's own unit does its work up to a cycle before an entry moves its bytes. -/
def Dev.runTile (d : Dev) (tile t : Nat) : Dev :=
  let k := tUnitKey tile
  if tCol tile = 3 then d.clusterRun k t else d.slabRun k t

/-- Move every lane of an entry in a cycle (R78, R79). -/
def Dev.moveLanes (d : Dev) (tile i e cyc t : Nat) : Dev :=
  let ps := eLanePairs tile e
  Dev.each ((upTo ps.length).zip ps) (fun d z =>
    let (bs, d) := d.laneIn tile i e cyc t z.1 z.2.1
    let (keep, d) := d.claimLane tile e z.2.2 cyc t
    if keep then d.laneOut tile i e cyc t z.1 z.2.2 bs else d) d

/-- After the last cycle of a firing the cursor moves on (R301), and a prefetched delivery is done with (R302). -/
def Dev.afterCycle (d : Dev) (tile i e cyc t : Nat) : Dev :=
  let k := entryKey tile i
  let d := { d with mesh.prefetch := tabSet [] k ((tabGet [] k d.mesh.prefetch).filter (fun w => decide (t < w.at_))) d.mesh.prefetch }
  if (eIn e = 0 ∨ eOut e = 0) ∧ tCol tile ≤ 1 ∧ cyc + 1 = eStart e + eLength e then
    let c := d.cursor tile i
    { d with mesh.cursors := tabSet {} k { c with pos := c.next (eBytes tile e) } d.mesh.cursors }
  else d

/-- R78: one cycle of a slot entry. -/
def slotEntryFire (tile entry cyc : Nat) (d : Dev) : Dev :=
  let half := tHalf tile
  let t := d.now half cyc
  let e := (tabGet 0 (entryKey tile entry) d.mesh.slots).toNat
  match d.holder half with
  | none => d
  | some n =>
    d.gate (d.working half cyc && eFires e (d.getPart n).job.jobBeat && eCovers e cyc) (fun d =>
      ((d.runTile tile t).moveLanes tile entry e cyc t).afterCycle tile entry e cyc t)

def execSlotEntryFire (tile entry cyc : Nat) (s : State) : Host.Outcome State Fault Refusal := s.live (slotEntryFire tile entry cyc)

/-- Cycles by which the HBM controller issues a scheduled read ahead: 160 × f (R302). -/
def hbmLead (freq : Nat) : Nat := 128 + 8 * freq

/-- R302: a scheduled read of an HBM hub tile issues `hbmLead` cycles before the cycle that delivers it; before job beat 0 it issues in the beat that ends
at its edge. -/
def hbmScheduledRead (tile entry cyc : Nat) (d : Dev) : Dev :=
  let half := tHalf tile
  let h := d.getHalf half
  let e := (tabGet 0 (entryKey tile entry) d.mesh.slots).toNat
  let at_ := cyc + hbmLead h.freq
  let nextBeat := decide (beatCycles h.freq ≤ at_)
  let cyc' := if nextBeat then at_ - beatCycles h.freq else at_
  match d.holder half with
  | none => d
  | some n =>
    let job := (d.getPart n).job
    let early := job.waitStart && decide (job.startBeat ≤ d.beat.number + 1) && nextBeat
    let beat := if job.waitStart then 0 else if nextBeat then job.jobBeat + 1 else job.jobBeat
    let runs := (d.getPart n).running && decide (cyc < beatCycles h.freq) && (early || d.working half cyc)
    d.gate (runs && tCol tile == 0 && eIn e == 0 && eFires e beat && eCovers e cyc') (fun d =>
      let c := d.cursor tile entry
      let open_ := nextBeat && !job.waitStart && eFires e job.jobBeat && decide (cyc < eStart e + eLength e)
      let pos := if open_ then c.next (eBytes tile e) else c.pos
      let m := (eLanePairs tile e).length
      let r := d.hbmPieces tile (cursorDpa tile (c.base + pos + (cyc' - eStart e) * m * 64)) m
      let k := entryKey tile entry
      let d := r.2
      { d with mesh.prefetch := tabSet [] k (tabGet [] k d.mesh.prefetch ++ [⟨d.now half at_, r.1⟩]) d.mesh.prefetch })

def execHbmScheduledRead (tile entry cyc : Nat) (s : State) : Host.Outcome State Fault Refusal := s.live (hbmScheduledRead tile entry cyc)

end Sys2Proof.Machine
end

