-- ==== Sys2Proof/Machine/ImageUnits.lean ====
section
/-! DEFINITION. The checks of SLOT_TABLE, LINK_ALLOTMENT, SEEDS, OPPOINTS and CAIRN_MAP sections at IMAGE_LOAD (spec/03 R77, R80; spec/10 R301, R302;
spec/13 R411 to R413; spec/08 R232, R233; spec/11 R318 to R320, R340). -/

namespace Sys2Proof.Machine

/-! ## Slot tables -/

/-- A hub tile with an HBM controller on its LOCAL port: HB0, HB1, HB4, HB5 and HB6 (R301). -/
def hbmHub (tile : Nat) : Bool := tCol tile == 0 && (decide (tRow tile < 2) || (tRow tile == 2 && tile / 16 % 2 == 1))

/-- Stack of the die on a hub tile's LOCAL port (R301). -/
def hubStack (tile : Nat) : Nat := tRow tile + 2 * (tile / 16 % 2)

/-- A tile whose LOCAL entries have cursors (R301). -/
def cursorTile (tile : Nat) : Bool := tCol tile == 1 || hbmHub tile

/-- A hub tile with a link on RIM: HB2 and HB6 have none (R73). -/
def rimLink (tile : Nat) : Bool := tCol tile == 0 && tRow tile != 2

/-- Entries and cursors of a SLOT_TABLE body (R231, R301). -/
def nSlots (b : List Byte) : Nat := min 8192 b.length / 8
def slotAt (b : List Byte) (i : Nat) : Nat := leAt b (8 * i) 8
def cursorAt (b : List Byte) (i : Nat) : Nat × Nat := (leAt b (8192 + 16 * i) 8, leAt b (8200 + 16 * i) 4)

/-- A port of an entry cannot be used at this tile (R80, R301). -/
def portBad (tile port : Nat) (bothHalves : Bool) : Bool :=
  if 4 < port then true
  else if port = 0 then tCol tile == 0 && !hbmHub tile
  else if seamPort tile port then !bothHalves
  else (meshNeighbour tile port).isNone && !(port == 3 && rimLink tile)

/-- An entry joins the double-width link to a single-width link (R78). -/
def joinsWidths (tile e : Nat) : Bool := eDouble tile e true != eDouble tile e false

/-- Flaws of an entry on its own (R77, R80). -/
def entryFlaws (tile e cpb : Nat) (bothHalves : Bool) : List Flaw :=
  rangeIf (decide (cpb ≤ eStart e) || decide (cpb < eStart e + eLength e)) 0 ++ rangeIf (eLength e == 0) 11
  ++ badIf (portBad tile (eOut e) bothHalves) 22 ++ badIf (portBad tile (eIn e) bothHalves) 25
  ++ badIf (eHalf e == 1 && decide (eOut e < 5) && decide (eIn e < 5) && !joinsWidths tile e) 22
  ++ rangeIf (decide (2 ^ ePeriod e ≤ ePhase e)) 28
  ++ badIf (tCol tile == 3 && (eOut e == 4 || eIn e == 4) && decide (1 < eLanes e)) 48
  ++ reservedIf e (2 ^ 47 + 63 * 2 ^ 57) 64

/-- Regions of a partition that wholly hold a range of a die's HBM window (R301, R302). -/
def Dev.regionsHolding (d : Dev) (n die lo len : Nat) : List Region :=
  (((upTo 16).map (fun r => d.getRegion (16 * die + r))).filter (fun r =>
    r.valid && r.partition == n && decide (r.first ≤ lo) && decide (lo + len ≤ r.first + r.bytes)))

/-- Every byte of a range of a die's HBM window lies in a region of the partition (R301). -/
def Dev.coveredBy (d : Dev) (n die : Nat) : Nat → Nat → Nat → Bool
  | 0, _, len => len == 0
  | fuel + 1, lo, len =>
    if len = 0 then true
    else match d.regionAt die lo with
      | none => false
      | some r =>
        let g := d.getRegion (16 * die + r)
        g.partition == n && d.coveredBy n die fuel (g.first + g.bytes) (len - (g.first + g.bytes - lo))

/-- Flaws of an entry's cursor (R301, R302). -/
def Dev.cursorFlaws (d : Dev) (n tile : Nat) (b : List Byte) (i e : Nat) : List Flaw :=
  let (base, wrap) := cursorAt b i
  let f := eBytes tile e
  let at_ := 8 * (8192 + 16 * i)
  if tCol tile = 1 then
    badIf (decide (quarryTileBytes < base + wrap)) at_ ++ badIf (wrap == 0 || (f != 0 && wrap % f != 0)) (at_ + 64)
  else
    badIf (!d.coveredBy n (tDie tile) 17 base wrap || base % 256 != 0) at_
    ++ badIf (wrap == 0 || (f != 0 && wrap % f != 0) || wrap % 256 != 0 || f % 256 != 0) (at_ + 64)

/-- The units of one slot: the entry, then its cursor (R80, R301). An entry with VALID = 0 must be all zero. -/
def Dev.slotUnits (d : Dev) (n tile cpb : Nat) (both : Bool) (b : List Byte) (i : Nat) : List (Option Flaw) :=
  let e := slotAt b i
  if eValid e then
    let local_ := cursorTile tile && (eIn e == 0 || eOut e == 0)
    [(unitFlaw (entryFlaws tile e cpb both)).map (Flaw.shift (64 * i)),
     unitFlaw (shortIf (local_ && decide (b.length < 8208 + 16 * i))),
     if local_ then unitFlaw (d.cursorFlaws n tile b i e) else none]
  else [unitFlaw (badIf (e != 0) (64 * i))]

/-- R80, R231, R301: the first pass over a SLOT_TABLE. -/
def Dev.slotsFirst (d : Dev) (n tile cpb : Nat) (both : Bool) (b : List Byte) : Option Flaw :=
  let top := if cursorTile tile then 24576 else 8192
  let m := min b.length top
  firstUnit
    ([unitFlaw (shortIf ((decide (m ≤ 8192) && m % 8 != 0) || (decide (8192 < m) && (m - 8192) % 16 != 0)))]
    ++ (upTo (nSlots b)).flatMap (d.slotUnits n tile cpb both b)
    ++ (upTo ((m - 8192) / 16)).map (fun i => unitFlaw (zeroBytes b (8204 + 16 * i) (8208 + 16 * i)))
    ++ [unitFlaw (zeroBytes b top b.length)])

/-- Two entries can claim one lane of one output in one cycle (R80). -/
def slotsClash (tile a b : Nat) : Bool :=
  let p := 2 ^ min (ePeriod a) (ePeriod b)
  eValid a && eValid b && eOut a == eOut b
  && decide (eStart a < eStart b + eLength b) && decide (eStart b < eStart a + eLength a)
  && ePhase a % p == ePhase b % p
  && (eLanePairs tile a).any (fun x => (eLanePairs tile b).any (fun y => x.2 == y.2))

/-- LOCAL bytes of a hub tile in a cycle counted from the start of a job beat; cycles past the beat belong to the next (R302). -/
def localBytesAt (tile : Nat) (es : List Nat) (cpb j c : Nat) : Nat :=
  let (j, c) := if cpb ≤ c then (j + 1, c - cpb) else (j, c)
  es.foldl (fun n e => if eFires e j && eCovers e c then n + 64 * (eLanePairs tile e).length else n) 0

/-- An entry takes part in 16 consecutive cycles that move too many LOCAL bytes (R302). -/
def overRate (tile : Nat) (es : List Nat) (cpb limit e : Nat) : Bool :=
  let beats := 2 ^ (es.foldl (fun m x => max m (ePeriod x)) 0)
  (upTo beats).any (fun j => eFires e j && (upTo (eLength e + 15)).any (fun i =>
    let c := eStart e + i
    decide (15 ≤ c) && decide (limit < (upTo 16).foldl (fun n k => n + localBytesAt tile es cpb j (c - 15 + k)) 0)))

/-- R302: conflicts of an entry at an HBM hub tile. -/
def Dev.hbmClash (d : Dev) (n tile freq : Nat) (b : List Byte) (i : Nat) : Bool :=
  let e := slotAt b i
  let cpb := beatCycles freq
  let es := ((upTo (nSlots b)).map (slotAt b)).filter (fun x => eValid x && (eIn x == 0 || eOut x == 0))
  if !(eValid e && (eIn e == 0 || eOut e == 0)) then false
  else
    let (base, wrap) := cursorAt b i
    let own := (d.regionsHolding n (tDie tile) base wrap).filter (fun r => r.stackList == [hubStack tile])
    let limit := match own.head? with
      | some r => 16 * (if r.mode = 1 then 40960 / (16 + freq) else 32768 / (16 + freq))
      | none => 0
    (eIn e == 0 && decide (eStart e < 192 + 12 * freq) && decide (128 + 8 * freq < eStart e + eLength e))
    || (eOut e == 0 && decide (eStart e < 64 + 4 * freq)) || own.isEmpty || overRate tile es cpb limit e

/-- R80, R302: the second pass over a SLOT_TABLE. -/
def Dev.slotsSecond (d : Dev) (n tile freq : Nat) (b : List Byte) : Option Flaw :=
  let es := (upTo (nSlots b)).map (slotAt b)
  unitFlaw ((upTo es.length).flatMap (fun i =>
    clashIf ((es.take i).any (fun a => slotsClash tile a (es.getD i 0)) || (hbmHub tile && d.hbmClash n tile freq b i)) (64 * i)))

/-! ## Link allotments -/

/-- Entries of a LINK_ALLOTMENT (R411). -/
def allotEntries (b : List Byte) : List Nat := (upTo (min 256 (leAt b 4 2))).map (fun i => leAt b (64 + 8 * i) 8)

/-- Highest slot that any entry claims. -/
def highestSlot (es : List Nat) : Nat := es.foldl (fun m e => max m (aFirst e + aCount e - 1)) 0

/-- The allotment of a body (R411). -/
def allotOf (port : Nat) (b : List Byte) : Allot :=
  ⟨port, leAt b 0 2, (leAt b 2 1).testBit 0, allotEntries b, leAt b 6 2, leAt b 8 2⟩

/-- Flaws of an allotment entry (R412, R413). -/
def allotEntryFlaws (lanes e : Nat) : List Flaw :=
  badIf (decide (aFirst e < 8)) 0 ++ rangeIf (decide (40 * lanes < aFirst e + aCount e)) 0
  ++ rangeIf (aCount e == 0 || decide (1272 < aCount e)) 11 ++ rangeIf (decide (2 ^ aPeriod e ≤ aPhase e)) 22
  ++ reservedIf e ((2 ^ 22 - 1) * 2 ^ 42) 64

/-- R411 to R413: the first pass over a LINK_ALLOTMENT of a port of so many lanes. -/
def allotFirst (port lanes : Nat) (b : List Byte) : Option Flaw :=
  let n := leAt b 4 2
  let proof := decide (leAt b 0 2 ≤ (if port < 16 then 479 else 959))
  firstUnit
    ([unitFlaw (shortIf (decide (b.length < 64))),
      unitFlaw (badIf (decide (1 < leAt b 2 1)) 17 ++ badIf ((leAt b 2 1).testBit 0 != proof) 0 ++ zeroBytes b 3 4 ++ rangeIf (decide (256 < n)) 32
        ++ badIf (decide (port < 16) && leAt b 6 2 != 0) 48 ++ rangeIf (decide (10880 < leAt b 6 2)) 48
        ++ rangeIf (decide (10880 < leAt b 8 2)) 64 ++ zeroBytes b 10 64),
      unitFlaw (shortIf (decide (b.length < 64 + 8 * n)))]
    ++ (upTo n).map (fun i => (unitFlaw (allotEntryFlaws lanes (leAt b (64 + 8 * i) 8))).map (Flaw.shift (512 + 64 * i)))
    ++ [unitFlaw (zeroBytes b (64 + 8 * n) b.length)])

/-- Two entries of one direction claim a slot on one job beat (R413). -/
def allotClash (a b : Nat) : Bool :=
  let p := 2 ^ min (aPeriod a) (aPeriod b)
  aDir a == aDir b && decide (aFirst a < aFirst b + aCount b) && decide (aFirst b < aFirst a + aCount a) && aPhase a % p == aPhase b % p

/-- Link ends of a port (R411): both ends of a D2D link lie in the package. -/
def portEnds (port : Nat) : List Nat := if port < 16 then [port] else [port, port + 4]

/-- R413, R486: the second pass over a LINK_ALLOTMENT. -/
def Dev.allotSecond (d : Dev) (n port : Nat) (b : List Byte) : Option Flaw :=
  let es := allotEntries b
  [unitFlaw (badIf (leAt b 0 2 != highestSlot es) 0),
   unitFlaw (clashIf ((portEnds port).any (fun e => (d.getLink e).sched.allot.isSome && (d.getLink e).sched.owner != n)) 0
     ++ (upTo es.length).flatMap (fun i => clashIf ((es.take i).any (fun a => allotClash a (es.getD i 0))) (512 + 64 * i)))].findSome? id

/-! ## Seeds and operating points -/

/-- The context that a seed entry names (R232): 2 × slab key + x, or 2 ^ 20 + 4 × (8 × cluster key + pebble) + x. -/
def seedKey (w : Nat) : Nat :=
  let k := 8 * fld w 0 2 + fld w 3 3
  if fld w 2 1 = 0 then 2 * k + fld w 9 2 else 2 ^ 20 + 4 * (8 * k + fld w 6 3) + fld w 9 2

/-- Seed words of a SEEDS body, and the seed of a context: zero where none is given (R232). -/
def seedWords (b : List Byte) : List Nat := (upTo (b.length / 8)).map (fun i => leAt b (8 * i) 8)
def seedOf (b : List Byte) (key : Nat) : Nat :=
  match (seedWords b).find? (fun w => seedKey w == key) with
  | some w => fld w 32 32
  | none => 0

/-- Flaws of a seed entry (R232): reserved bits, and an entry that names no context. -/
def seedFlaws (halves w : Nat) : List Flaw :=
  badIf (!halves.testBit (halfOfUnit (8 * fld w 0 2 + fld w 3 3))) 0
  ++ badIf (fld w 2 1 == 0 && (fld w 6 3 != 0)) 6 ++ badIf (fld w 2 1 == 0 && decide (1 < fld w 9 2)) 9
  ++ reservedIf w (0xFFFFF800 % 2 ^ 32) 64

/-- R232: SEEDS. -/
def seedsFirst (halves : Nat) (b : List Byte) : Option Flaw :=
  firstUnit (unitFlaw (shortIf (b.length % 8 != 0))
    :: (upTo (b.length / 8)).map (fun i => (unitFlaw (seedFlaws halves (leAt b (8 * i) 8))).map (Flaw.shift (64 * i))))

/-- R232: two entries name one context. -/
def seedsSecond (b : List Byte) : Option Flaw :=
  let ks := (seedWords b).map seedKey
  unitFlaw ((upTo ks.length).flatMap (fun i => badIf ((ks.take i).contains (ks.getD i 0)) (64 * i)))

/-- Entries of an OPPOINTS body (R233). -/
def oppEntries (b : List Byte) : List OppEntry :=
  (upTo (leAt b 0 2)).map (fun i => let w := leAt b (8 + 8 * i) 8; ⟨fld w 0 48, fld w 48 4, fld w 52 5⟩)

/-- R233: OPPOINTS. -/
def oppFirst (freq : Nat) (b : List Byte) : Option Flaw :=
  let n := leAt b 0 2
  let es := oppEntries b
  let period := leAt b 4 4
  let entry := fun (i : Nat) =>
    let e := es.getD i ⟨0, 0, 0⟩
    let before := if i = 0 then none else es[i - 1]?
    badIf ((before.any (fun p => decide (e.beat ≤ p.beat))) || (i == 0 && (e.beat != 0 || e.freq != freq))
      || (period != 0 && decide (period ≤ e.beat))) 0
    ++ badIf (decide (20 < e.freq)) 52 ++ reservedIf (leAt b (8 + 8 * i) 8) (127 * 2 ^ 57) 64
  firstUnit
    ([unitFlaw (shortIf (decide (b.length < 8))), unitFlaw (badIf (n == 0) 0 ++ zeroBytes b 2 4), unitFlaw (shortIf (decide (b.length < 8 + 8 * n)))]
    ++ (upTo n).map (fun i => (unitFlaw (entry i)).map (Flaw.shift (64 + 64 * i)))
    ++ [unitFlaw (zeroBytes b (8 + 8 * n) b.length)])

/-! ## Cairn maps -/

/-- Flaws of a map entry (R318, R320): `tile` is the context's own. -/
def mapEntryFlaws (e tile halves device : Nat) : List Flaw :=
  if mapValid e then
    let t := 16 * mapDie e + mapTile e
    badIf ((mapOwn e && (mapRemote e || t != tile)) || (mapRebase e && (!mapOwn e || mapEpoch e == 0))
      || (mapRemote e && mapDevice e == device) || (!mapRemote e && !halves.testBit (halfOfTile t))) 0
    ++ badIf (!mapRemote e && mapDevice e != 0) 3 ++ badIf (!mapRebase e && mapEpoch e != 0) 2 ++ badIf (e.testBit 63) 63
  else badIf (e != 0) 0

/-- R319, R320: the first pass over a CAIRN_MAP; `channels` are those assigned to the partition on the die. -/
def mapFirst (b : List Byte) (tile halves device channels : Nat) : Option Flaw :=
  let us := leAt b 0 4
  let n := leAt b 6 2
  firstUnit
    ([unitFlaw (shortIf (decide (b.length < 64))),
      unitFlaw (rangeIf (us != 0 && (decide (us < 10) || decide (10000000 < us))) 0
        ++ badIf (leAt b 4 2 &&& (0xFFFF ^^^ channels) != 0) 32 ++ rangeIf (decide (1024 < n)) 48 ++ zeroBytes b 24 64),
      unitFlaw (shortIf (decide (b.length < 64 + 8 * n)))]
    ++ (upTo n).map (fun v => (unitFlaw (mapEntryFlaws (leAt b (64 + 8 * v) 8) tile halves device)).map (Flaw.shift (512 + 64 * v)))
    ++ [unitFlaw (zeroBytes b (64 + 8 * n) b.length)])

/-- Cairn tile and context ID of a CAIRN_MAP section (R317). -/
def Sect.mapTile (s : Sect) : Nat := if s.pebMap then tileOfCluster s.key else tileOfSlab s.key
def Sect.mapId (s : Sect) : Nat := if s.pebMap then 4 * fld s.target 5 3 + fld s.target 8 2 else s.ctx

/-- Cairns that a map owns, by 1024 × tile + index, with their virtual IDs. -/
def CMap.owned (m : CMap) : List (Nat × Nat) :=
  ((upTo m.entries.length).map (fun v => (v, m.entries.getD v 0))).filterMap (fun x =>
    if mapValid x.2 ∧ mapOwn x.2 then some (1024 * (16 * mapDie x.2 + mapTile x.2) + mapIndex x.2, x.1) else none)

/-- RELEASE_BEATS flaws of a map against the maps of the other members of its channels (R340): a value that differs from an earlier one, or 0 where
the members span dies. -/
def beatsFlaws (m : CMap) (die : Nat) (earlier : List CMap) (all : List (Nat × CMap)) : List Flaw :=
  (upTo 16).flatMap (fun c =>
    if m.barrierMask.testBit c then
      badIf (earlier.any (fun q => q.barrierMask.testBit c && q.releaseBeats.getD c 0 != m.releaseBeats.getD c 0)
        || (m.releaseBeats.getD c 0 == 0 && all.any (fun q => q.1 != die && q.2.barrierMask.testBit c))) (64 + 8 * c)
    else [])

/-- The second pass over a CAIRN_MAP: RELEASE_BEATS in a lockstep image (R340), then ownership (R320). -/
def Dev.mapSecond (d : Dev) (n : Nat) (s : Sect) (ss : List Sect) (lockstep : Bool) : Option Flaw :=
  let maps := (ss.filter (fun q => q.type == sMap)).map (fun q => (q.idx, q.mapTile / 16, mapOf q.body n))
  let m := mapOf s.body n
  let own := m.owned
  let taken := fun (c : Nat) =>
    maps.any (fun q => decide (q.1 < s.idx) && q.2.2.owned.any (fun o => o.1 == c))
    || (match d.cairnOwner (c / 1024) (c % 1024) with | some o => o != n | none => false)
  [unitFlaw (if lockstep then
      beatsFlaws m (s.mapTile / 16) ((maps.filter (fun q => decide (q.1 < s.idx))).map (·.2.2)) (maps.map (fun q => (q.2.1, q.2.2)))
    else []),
   unitFlaw ((upTo own.length).flatMap (fun i =>
     let o := own.getD i (0, 0)
     clashIf (taken o.1) (512 + 64 * o.2)))].findSome? id

end Sys2Proof.Machine
end

