-- ==== Sys2Proof/Machine/ImageLoad.lean ====
section
/-! DEFINITION. IMAGE_LOAD (spec/08 R230 to R234): the order of the checks, and what a successful load writes. -/

namespace Sys2Proof.Machine

/-- The section of a type with a target. -/
def findSect (ss : List Sect) (type : Nat) (p : Sect → Bool) : Option Sect := ss.find? (fun s => s.type == type && p s)

/-- SEEDS of an image, and its seed of a context (R232). -/
def imageSeed (ss : List Sect) (key : Nat) : Nat :=
  match findSect ss sSeeds (fun _ => true) with
  | some s => seedOf s.body key
  | none => 0

/-- The map that an image gives a slab context or a pebble context; without a section no entry is valid (R319). -/
def imageMap (ss : List Sect) (n tile id : Nat) : CMap :=
  match findSect ss sMap (fun s => s.mapTile == tile && s.mapId == id) with
  | some s => mapOf s.body n
  | none => { owner := some n }

/-- ACC_SPLIT and PAIR bits that a slab will have (R133, R184): those of its section, or those it has. -/
def Dev.imageConfig (d : Dev) (ss : List Sect) (slab : Nat) : Nat × Bool × Bool :=
  match findSect ss sConfig (fun s => s.key == slab) with
  | some s => (fld (leAt s.body 0 1) 0 4, (leAt s.body 1 1).testBit 0, (leAt s.body 1 1).testBit 1)
  | none => let r := (d.getSlab slab).regs; (r.accSplit, r.pair0, r.pair1)

/-- Half of a slot table's tile, and whether the partition holds both halves of its die. -/
def bothHalves (halves die : Nat) : Bool := halves.testBit (2 * die) && halves.testBit (2 * die + 1)

/-- R234 step 7, first pass, for one section. -/
def Dev.sectFirst (d : Dev) (n freq : Nat) (lockstep : Bool) (s : Sect) : Option Flaw :=
  let p := d.getPart n
  if s.type = sSlab then slabCtxFirst s.body (d.caps.arraysOf s.die s.unit) (d.caps.slabOn s.die s.unit) lockstep
  else if s.type = sConfig then slabConfigFirst s.body
  else if s.type = sTables then actTablesFirst s.body
  else if s.type = sSlots then d.slotsFirst n s.tile (beatCycles freq) (bothHalves p.halves s.die) s.body
  else if s.type = sAllot then allotFirst s.target (d.ownMaxWidth s.target) s.body
  else if s.type = sPebble then pebbleFirst s.body (d.caps.namesOf s.key) lockstep
  else if s.type = sSeeds then seedsFirst p.halves s.body
  else if s.type = sOpp then oppFirst freq s.body
  else if s.type = sMap then mapFirst s.body s.mapTile p.halves d.fab.selfDevice (fld p.channels (16 * (s.mapTile / 16)) 16)
  else none

/-- What the second pass needs for a slab context. -/
def Dev.slabView (d : Dev) (ss : List Sect) (n : Nat) (lockstep : Bool) (s : Sect) : SlabView :=
  let c := d.imageConfig ss s.key
  { split := c.1, pair := if s.ctx = 0 then c.2.1 else c.2.2
    tables := match findSect ss sTables (fun q => q.slabCtx == s.slabCtx) with | some q => fld (leAt q.body 0 1) 0 4 | none => 0
    map := imageMap ss n (tileOfSlab s.key) s.ctx, seed := imageSeed ss s.slabCtx, lockstep := lockstep }

/-- R223: outside lockstep the two contexts of a slab name no common bank; the later section is named. -/
def banksClash (ss : List Sect) (lockstep : Bool) (s : Sect) : Option Flaw :=
  if lockstep then none
  else match findSect ss sSlab (fun q => q.key == s.key && q.ctx != s.ctx && decide (q.idx < s.idx)) with
    | some q => unitFlaw (clashIf ((banksNamed q.body).any (fun b => (banksNamed s.body).contains b)) 0)
    | none => none

/-- R234 step 7, second pass, for one section. -/
def Dev.sectSecond (d : Dev) (n freq : Nat) (lockstep : Bool) (ss : List Sect) (s : Sect) : Option Flaw :=
  if s.type = sSlab then
    match slabCtxSecond s.body s.slabCtx (d.slabView ss n lockstep s) with
    | some f => some f
    | none => banksClash ss lockstep s
  else if s.type = sSlots then d.slotsSecond n s.tile freq s.body
  else if s.type = sAllot then d.allotSecond n s.target s.body
  else if s.type = sPebble then
    pebbleSecond s.body (tileOfCluster s.key) lockstep (fun q x => imageMap ss n (tileOfCluster s.key) (4 * q + x))
      (fun q x => imageSeed ss (2 ^ 20 + 4 * (8 * s.key + q) + x))
  else if s.type = sSeeds then seedsSecond s.body
  else if s.type = sMap then d.mapSecond n s ss lockstep
  else none

/-- Bytes from a DPA on that lie in one unit of a partition: its regions and the memories of its halves (R234 step 8). -/
def Dev.ownedFrom (d : Dev) (n a : Nat) : Nat :=
  let holds := fun (die u : Nat) => (d.getPart n).halves.testBit (2 * die + u / 4)
  match d.locate a with
  | .store die s off => if holds die s then slabStoreBytes - off else 0
  | .quarry die q off => if holds die q then quarryTileBytes - off else 0
  | .cluster die k off => if holds die k then 0x800000 - off else 0
  | .hbm die r off =>
    let g := d.getRegion (16 * die + r)
    if g.partition = n then g.bytes - off else 0
  | _ => 0

/-- A range lies in the windows of a partition. -/
def Dev.ownsRange (d : Dev) (n : Nat) : Nat → Nat → Nat → Bool
  | 0, _, len => len == 0
  | fuel + 1, a, len =>
    if len = 0 then true
    else
      let k := d.ownedFrom n a
      k != 0 && d.ownsRange n fuel (a + k) (len - k)

/-- R234 steps 2 to 8: why an image for a partition is rejected, or none. -/
def Dev.imageFail (d : Dev) (n : Nat) (img : List Byte) : Option ImgFail :=
  let halves := (d.getPart n).halves
  let ss := sections img
  let lockstep := (leAt img 8 1).testBit 0
  let freq := leAt img 9 1
  let pass := fun (f : Sect → Option Flaw) => ss.findSome? (fun s => (f s).map s.fail)
  [fun (_ : Unit) => headerFail img pkgScl pkgFormats halves,
   fun _ => tableFail img,
   fun _ => targetFail ss halves d.caps,
   fun _ => pass (d.sectFirst n freq lockstep),
   fun _ => pass (d.sectSecond n freq lockstep ss),
   fun _ => (ss.find? (fun s => s.type == sData && !d.ownsRange n 64 s.aux s.len)).map (fun s => s.entryFail stBad 24 8)].findSome?
    (fun f => f ())

/-! ## What a load writes -/

/-- A notice that the last job still owes waits on its ring (R454). -/
def Dev.keepNotice (d : Dev) (n : Nat) : Dev :=
  let p := d.getPart n
  match p.job.notify with
  | some r =>
    if p.job.state = 4 ∨ p.job.state = 5 then
      (d.modRing r (fun q => { q with notices := q.notices ++ [⟨n, p.result0, p.result1⟩] })).modPart n (fun p =>
        { p with job := { p.job with notify := none } })
    else d
  | none => d

/-- Unbind every context of a partition (R125): its code and its map are gone, its LFSR state stays readable. -/
def Dev.unbindAll (d : Dev) (n : Nat) : Dev :=
  let p := d.getPart n
  let d := Dev.each p.slabCtxs (fun d k => d.modSCtx k (fun c => { lfsr := c.lfsr })) d
  Dev.each p.pebCtxs (fun d k => d.modPCtx k (fun c =>
    { lfsr := c.lfsr, satCount := c.satCount, nanCount := c.nanCount, tritInvalid := c.tritInvalid, s := c.s, v := c.v, m := c.m })) d

/-- Drop the maps of contexts that an image does not bind. -/
def Dev.dropMaps (d : Dev) (n : Nat) (bound : List Nat) : Dev :=
  Dev.each (d.cairn.maps.filter (fun m => m.2.owner == some n && !bound.contains m.1)) (fun d m =>
    (d.dropWaits (m.1 / 32) (m.1 % 32)).modCMap m.1 (fun _ => {})) d

/-- Bind a slab context (R125, R202, R155, R177). -/
def Dev.bindSlab (d : Dev) (ss : List Sect) (n : Nat) (s : Sect) : Dev :=
  let k := s.slabCtx
  let seed := BitVec.ofNat 32 (imageSeed ss k)
  let tables := match findSect ss sTables (fun q => q.slabCtx == k) with
    | some q => ((upTo 4).filter (fun t => (leAt q.body 0 1).testBit t)).map (fun t => (t, some (actTableAt q.body t)))
    | none => []
  (d.modSCtx k (fun _ => { bound := true, cmds := bodyCmds s.body, descs := bodyDescs s.body, seed := seed, lfsr := seed, tables := tables })).bindMap
    (tileOfSlab s.key) s.ctx (imageMap ss n (tileOfSlab s.key) s.ctx)

/-- Bind the contexts of one pebble and write its instruction memory (R238, R278). -/
def Dev.bindPebble (d : Dev) (ss : List Sect) (n cluster : Nat) (p : PebBlock) : Dev :=
  let peb := 8 * cluster + p.q
  let imem := (upTo p.words.length).foldl (fun (t : List (Nat × Word64)) i => tabSet 0 i (BitVec.ofNat 64 (p.words.getD i 0)) t) []
  let d := d.modPebble peb (fun q => { q with imem := imem, imemErr := [], codeWords := p.words.length, needImage := false })
  Dev.each ((upTo 4).filter (fun x => p.contexts.testBit x)) (fun d x =>
    let seed := BitVec.ofNat 32 (imageSeed ss (2 ^ 20 + 4 * peb + x))
    let tile := tileOfCluster cluster
    (d.modPCtx (4 * peb + x) (fun c => { c with bound := true, entry := p.entries.getD x 0 / 8, seed := seed, lfsr := seed })).bindMap
      tile (4 * p.q + x) (imageMap ss n tile (4 * p.q + x))) d

/-- Write a cluster's descriptor table and its pebbles (R270, R278). -/
def Dev.loadCluster (d : Dev) (ss : List Sect) (n : Nat) (s : Sect) : Dev :=
  let d := d.modCluster s.key (fun c => { c with descs := (upTo (pebDescs s.body)).map (fun i => (i, pebDesc s.body i)), descErr := [] })
  Dev.each (pebBlocks s.body) (fun d p => d.bindPebble ss n s.key p) d

/-- Write a tile's slot table and cursors (R80, R301). -/
def Dev.loadSlots (d : Dev) (s : Sect) : Dev :=
  Dev.each (upTo (nSlots s.body)) (fun d i =>
    let e := slotAt s.body i
    if eValid e then
      let k := entryKey s.tile i
      let cur := cursorAt s.body i
      let c : Cursor := if cursorTile s.tile ∧ (eIn e = 0 ∨ eOut e = 0) then ⟨cur.1, cur.2, 0⟩ else {}
      { d with mesh.slots := tabSet 0 k (BitVec.ofNat 64 e) d.mesh.slots, mesh.cursors := tabSet {} k c d.mesh.cursors }
    else d) d

/-- The slot tables of a partition's tiles are emptied. -/
def Dev.clearSlots (d : Dev) (halves : Nat) : Dev :=
  let keep := fun (k : Nat) => !halves.testBit (tHalf (k / 1024))
  { d with mesh.slots := d.mesh.slots.filter (fun x => keep x.1), mesh.cursors := d.mesh.cursors.filter (fun x => keep x.1),
           mesh.prefetch := d.mesh.prefetch.filter (fun x => keep x.1) }

/-- The allotments of a partition are withdrawn. -/
def Dev.clearAllots (d : Dev) (n : Nat) : Dev :=
  Dev.each (upTo 24) (fun d e => d.modLink e (fun l =>
    if l.sched.allot.isSome ∧ l.sched.owner = n then { l with sched := { l.sched with allot := none, owner := 0 } } else l)) d

/-- Write the allotment of a port at its link ends (R411). -/
def Dev.loadAllot (d : Dev) (n : Nat) (s : Sect) : Dev :=
  Dev.each (portEnds s.target) (fun d e => d.modLink e (fun l => { l with
    sched.allot := some (allotOf s.target s.body), sched.owner := n })) d

/-- An image uses the Seam: a slot entry crosses it (R87). -/
def slotsCrossSeam (s : Sect) : Bool :=
  (upTo (nSlots s.body)).any (fun i =>
    let e := slotAt s.body i
    eValid e && (seamPort s.tile (eIn e) || seamPort s.tile (eOut e)))

/-- What the partition keeps of an image. -/
def imageOf (img : List Byte) (ss : List Sect) : Image :=
  let opp := findSect ss sOpp (fun _ => true)
  { check := leAt img 28 4, lockstep := (leAt img 8 1).testBit 0, freq := leAt img 9 1, halves := leAt img 10 1, scl := leAt img 6 2
    formats := leAt img 24 4, buildId := slice img 32 32
    oppoints := match opp with | some s => oppEntries s.body | none => []
    oppPeriod := match opp with | some s => leAt s.body 4 4 | none => 0
    allots := (ss.filter (fun s => s.type == sAllot)).map (fun s => allotOf s.target s.body)
    usesSeam := ss.any (fun s => s.type == sSlots && slotsCrossSeam s) }

/-- Write one section of an image. -/
def Dev.loadSect (d : Dev) (ss : List Sect) (n : Nat) (s : Sect) : Dev :=
  if s.type = sSlab then d.bindSlab ss n s
  else if s.type = sConfig then
    let c := d.imageConfig ss s.key
    d.modSlab s.key (fun x => { x with regs.accSplit := c.1, regs.pair0 := c.2.1, regs.pair1 := c.2.2 })
  else if s.type = sSlots then d.loadSlots s
  else if s.type = sAllot then d.loadAllot n s
  else if s.type = sPebble then d.loadCluster ss n s
  else if s.type = sData then d.writeMem s.aux (s.body.map (fun b => ⟨b, false⟩)) (.own n)
  else d

/-- Context keys (32 × tile + id) that an image binds. -/
def boundCtxs (ss : List Sect) : List Nat :=
  ss.flatMap (fun s =>
    if s.type = sSlab then [ctxKey (tileOfSlab s.key) s.ctx]
    else if s.type = sPebble then
      (pebBlocks s.body).flatMap (fun p => ((upTo 4).filter (fun x => p.contexts.testBit x)).map (fun x =>
        ctxKey (tileOfCluster s.key) (4 * p.q + x)))
    else [])

/-- A load that passed every check (R234): the tasks of the image before are unbound, this one's are bound, and the partition holds the image. -/
def Dev.loadImage (d : Dev) (n : Nat) (img : List Byte) : Dev :=
  let ss := sections img
  let d := (d.keepNotice n).unbindAll n
  let d := (d.dropMaps n (boundCtxs ss)).clearAllots n
  let d := d.clearSlots (d.getPart n).halves
  let d := Dev.each ss (fun d s => d.loadSect ss n s) d
  let d := Dev.each (d.getPart n).pebs (fun d k => d.modPebble k (fun p => { p with needImage := false })) d
  d.modPart n (fun p => { p with image := some (imageOf img ss), job := { state := 1 } })

/-- RESULT1 of a rejected image (R451). -/
def ImgFail.result1 (f : ImgFail) : Nat := f.section_ + 2 ^ 32 * f.order

end Sys2Proof.Machine
end

