-- ==== Sys2Proof/Machine/Power.lean ====
section
/-! DEFINITION. Power, voltage, guarantees and temperature (spec/16 R489 to R522). -/

namespace Sys2Proof.Machine

/-- Rails in the order of R489: VDD_CORE 0 to 7 by half, VDD_SRAM 8 to 11, then HUB, SER, SERA, HBMC, HBMQ, VPP four each, AON 36, IO 37. -/
def railDie (r : Nat) : Nat := (r - 8) % 4

/-- EV_POWER_CAP (R569) with a hold level h: VALUE_A P10 in W; VALUE_B CAP_EFF, h and a duration in ms. -/
def Dev.powerEvAt (d : Dev) (h cause flags cls idx ms : Nat) : Dev :=
  d.raise { code := 0x0703, cause := cause, flags := flags, sev := 1, cls := cls, idx := idx, valueA := d.pow.p10 / 1000
            valueB := d.pow.capEff % 65536 + 65536 * h + 2 ^ 32 * (ms % 2 ^ 32) }

/-- EV_POWER_CAP at the hold level that stands. -/
def Dev.powerEv (d : Dev) (cause flags cls idx ms : Nat) : Dev := d.powerEvAt d.pow.hold cause flags cls idx ms

/-- Milliseconds since a wall beat. -/
def Dev.msSince (d : Dev) (since : Nat) : Nat := beatNs * (d.clock.wall - since) / 1000000

/-! ## Estimates and energy -/

/-- Add energy in nJ to the account of a partition, or to UNASSIGNED (R516). -/
def Dev.addEnergy (d : Dev) (p : Option Nat) (nj : Nat) : Dev :=
  match p with
  | some n => { d with pow.energy := tabSet 0 n (tabGet 0 n d.pow.energy + nj) d.pow.energy }
  | none => { d with pow.unassigned := d.pow.unassigned + nj }

/-- Energy of one rail in 1 µs goes to its partitions (R516). `act` is the activity of each partition on the rail. -/
def Dev.shareRail (d : Dev) (rail nj : Nat) (act : Nat → Nat) : Dev :=
  if rail < 8 then d.addEnergy (d.holder rail) nj
  else if rail < 12 then
    (d.addEnergy (d.holder (2 * railDie rail)) (nj / 2)).addEnergy (d.holder (2 * railDie rail + 1)) (nj - nj / 2)
  else if rail < 36 then
    let total := (upTo 8).foldl (fun s n => s + act n) 0
    if total = 0 then d.addEnergy none nj
    else
      let d' := Dev.each (upTo 8) (fun d n => if act n = 0 then d else d.addEnergy (some n) (nj * act n / total)) d
      d'.addEnergy none (nj - (upTo 8).foldl (fun s n => s + nj * act n / total) 0)
  else d.addEnergy none nj

/-- Keep the newest ten of a list. -/
def lastTen (l : List Nat) : List Nat := l.drop (l.length - 10)

/-- R501, R516: the estimate of 1 µs: `raw` is each rail's activity-weighted power in mW before its coefficient (nJ in 1 µs), `gravel` each slab's share of
gravel, `activity` the activity of partition n on rail r under 8r + n, `sensed` what the rail sensors read. -/
def powerEstimateTick (raw gravel : List Nat) (activity : List (Nat × Nat)) (sensed : List RailSense) (d : Dev) : Dev :=
  let cal := fun (d : Dev) r => raw.getD r 0 * (d.getRail r).coeff / 1000
  let total := (upTo 38).foldl (fun s r => s + cal d r) 0
  let d' := Dev.each (upTo 38) (fun d r =>
    let nj := cal d r
    let d := if nj = 0 then d else (d.modRail r (fun x => { x with estSum := x.estSum + nj })).shareRail r nj (fun n => tabGet 0 (8 * r + n) activity)
    if r < 8 then
      { d with pow.halfEst := tabSet [] r (lastTen (tabGet [] r d.pow.halfEst ++ [nj * 1000 / (d.getHalfPow r).setpoint])) d.pow.halfEst }
    else d) d
  let d' := Dev.each (upTo 32) (fun d s =>
    let g := gravel.getD s 0
    if g = 0 then d
    else match d.holder (halfOfUnit s) with
      | some n => { d with pow.gravel := tabSet 0 n (tabGet 0 n d.pow.gravel + g) d.pow.gravel }
      | none => d) d'
  let d' := Dev.each sensed (fun d x => d.modRail x.rail (fun r => { r with voltage := x.voltage, current := x.current, power := x.power })) d'
  { d' with pow.est := lastTen (d'.pow.est ++ [total]) }

def execPowerEstimateTick (raw gravel : List Nat) (activity : List (Nat × Nat)) (sensed : List RailSense) (s : State) :
    Host.Outcome State Fault Refusal :=
  s.live (powerEstimateTick raw gravel activity sensed)

/-- R501: each rail's coefficient is scaled by sensed over estimated energy, clamped to 0.8 to 1.25. -/
def coeffRecal (energies : List Nat) (d : Dev) : Dev :=
  Dev.each (upTo 38) (fun d r =>
    d.modRail r (fun x =>
      if x.estSum = 0 then x
      else { x with coeff := x.coeff * max 800 (min 1250 (energies.getD r 0 * 1000 / x.estSum)) / 1000, estSum := 0 })) d

def execCoeffRecal (energies : List Nat) (s : State) : Host.Outcome State Fault Refusal := s.live (coeffRecal energies)

/-! ## Voltage -/

/-- The setpoint of a half in mV (R494). -/
def Dev.setpointOf (d : Dev) (h : Nat) : Nat :=
  let p := d.getHalfPow h
  let v : Int := (Config.vfCurve h (d.getHalf h).freq : Int) + p.trim + p.offset
  (max 650 (min 850 v)).toNat

/-- Recompute a setpoint and command its regulator (R490, R494). -/
def Dev.newSetpoint (d : Dev) (h : Nat) : Dev :=
  if (d.getHalfPow h).regulatorBad then d
  else (d.modHalfPow h (fun p => { p with setpoint := d.setpointOf h, tries := 0 })).emit (.setpoint h (d.setpointOf h))

/-- TRIM moves within −40 mV to +60 mV (R495). -/
def Dev.moveTrim (d : Dev) (h : Nat) (mv : Int) : Dev :=
  let d := d.modHalfPow h (fun p => { p with trim := max (-40) (min 60 (p.trim + mv)) })
  { d with boot.cache := { d.boot.cache with trims := tabSet 0 h (d.getHalfPow h).trim d.boot.cache.trims } }.newSetpoint h

/-- R495, R497: the worst margin of a half is read every 100 ms. -/
def marginReading (half margin : Nat) (d : Dev) : Dev :=
  let low := decide (margin < Config.marginLow half)
  let d :=
    if (d.getHalfPow half).frozen then d
    else
      if low then (d.modHalfPow half (fun p => { p with highCount := 0 })).moveTrim half 5
      else if Config.marginHigh half < margin then
        if 63 ≤ (d.getHalfPow half).highCount then (d.modHalfPow half (fun p => { p with highCount := 0 })).moveTrim half (-5)
        else d.modHalfPow half (fun p => { p with highCount := p.highCount + 1 })
      else d.modHalfPow half (fun p => { p with highCount := 0 })
  if low ∧ d.setpointOf half = 850 then d.powerEv 5 0 5 half 0 else d

def execMarginReading (half margin : Nat) (s : State) : Host.Outcome State Fault Refusal := s.live (marginReading half margin)

/-- R496: a monitor falls below EMERG: TRIM rises by 10 mV with the next command, and the event is counted. -/
def marginEmergency (half : Nat) (d : Dev) : Dev :=
  let d := d.modHalfPow half (fun p => { p with emergencies := p.emergencies + 1 })
  if (d.getHalfPow half).frozen then d else d.moveTrim half 10

def execMarginEmergency (half : Nat) (s : State) : Host.Outcome State Fault Refusal := s.live (marginEmergency half)

/-- R490: a regulator does not acknowledge within 1 ms: the command is repeated twice; the third failure raises REGULATOR and leaves the setpoint. -/
def avsSetpointTimeout (half : Nat) (d : Dev) : Dev :=
  let p := d.getHalfPow half
  if p.regulatorBad then d
  else if p.tries < 2 then
    (d.modHalfPow half (fun p => { p with tries := p.tries + 1 })).emit (.setpoint half p.setpoint)
  else (d.modHalfPow half (fun p => { p with regulatorBad := true, tries := 0 })).powerEv 4 0 5 half 0

def execAvsSetpointTimeout (half : Nat) (s : State) : Host.Outcome State Fault Refusal := s.live (avsSetpointTimeout half)

/-! ## The power cap -/

/-- A value set by POWER_POLICY_SET takes effect (R502): SELECT, A1, A2. -/
def Dev.applyPolicy (d : Dev) (x : Nat × Nat × Nat) : Dev :=
  let (sel, a1, a2) := x
  if sel = 0 then { d with pow.capW := a1 % 65536 }
  else if sel = 1 then { d with pow.order := (fld a1 0 2, fld a1 2 2, fld a1 4 2) }
  else if sel = 2 then { d with idle.enabled := a1.testBit 0 }
  else if sel = 3 then
    let d := Dev.each (upTo 32) (fun d s => d.modSlab s (fun x => { x with regs.gravelEn := a1.testBit s })) d
    { d with pow.slope := fld a2 0 9, pow.floor := fld a2 16 4 }
  else d

/-- Pending guarantees take effect (R509): rank and value, or removal. -/
def Dev.applyGuarantees (d : Dev) : Dev :=
  Dev.each (upTo 32) (fun d k =>
    match (d.getGuar k).pend with
    | none => d
    | some (rank, v1, v2) =>
      d.modGuar k (fun _ => if rank = 0 then {} else { rank := rank, v1 := v1, v2 := v2, energyAt := tabGet 0 (k / 4) d.pow.energy })) d

/-- Level number of a domain in a partition's levels, in sixteenths below full, and its floor (R504). -/
def Levels.get (l : Levels) (domain : Nat) : Nat := if domain = 0 then l.compute else if domain = 1 then l.memory else l.links
def Levels.set (l : Levels) (domain v : Nat) : Levels :=
  if domain = 0 then { l with compute := v } else if domain = 1 then { l with memory := v } else { l with links := v }
def depthMax (domain : Nat) : Nat := if domain = 0 then 15 else 12

/-- Levels that apply from the next beat edge. -/
def Dev.levelsOf (d : Dev) (n : Nat) : Levels := tabGet {} n d.pow.levelsNext
def Dev.setLevels (d : Dev) (n : Nat) (l : Levels) : Dev := { d with pow.levelsNext := tabSet {} n l d.pow.levelsNext }

/-- The domains in throttling order (R502). -/
def Dev.shareOrder (d : Dev) : List Nat := [d.pow.order.1, d.pow.order.2.1, d.pow.order.2.2]

/-- Energy of a partition's current interval in J (R509, R512). -/
def Dev.intervalJ (d : Dev) (n : Nat) : Nat := (tabGet 0 n d.pow.energy - (d.getGuar (4 * n + 3)).energyAt) / 1000000000

/-- Rank of a guarantee that a step breaks, or 0. -/
def brokenRank (g : Guarantee) (breaks : Bool) : Nat := if breaks then g.rank else 0

/-- Rank of a throttling step of a partition's domain to a depth (R510). -/
def Dev.stepRank (d : Dev) (n domain depth : Nat) : Nat :=
  let e := brokenRank (d.getGuar (4 * n + 3)) (decide (d.intervalJ n < (d.getGuar (4 * n + 3)).v1))
  let b := d.getGuar (4 * n + 1)
  let floor := if domain = 1 then b.v1 else b.v2
  max e (brokenRank b (domain != 0 && decide (16 - depth < floor)))

/-- Rank of raising the hold level to h (R510). -/
def Dev.holdRank (d : Dev) (h : Nat) : Nat :=
  (upTo 8).foldl (fun r n =>
    if (d.getPart n).lockRun then
      max r (brokenRank (d.getGuar (4 * n)) (decide (16 - h < (d.getGuar (4 * n)).v1)))
    else r) 0

/-- The step that a partition outside lockstep offers: its domain and rank. -/
def Dev.offer (d : Dev) (n : Nat) : Option (Nat × Nat) :=
  ((d.shareOrder.find? (fun m => decide ((d.levelsOf n).get m < depthMax m)))).map (fun m =>
    (m, d.stepRank n m ((d.levelsOf n).get m + 1)))

/-- Some partition runs in lockstep. -/
def Dev.anyLock (d : Dev) : Bool := (upTo 8).any (fun n => (d.getPart n).lockRun)

/-- Take the throttling steps of least rank among the partitions allowed (R506, R510). -/
def Dev.throttle (d : Dev) (allowed : Nat → Bool) : Dev :=
  let soft := (upTo 8).filterMap (fun n =>
    if allowed n ∧ (d.getPart n).live ∧ !(d.getPart n).lockRun then (d.offer n).map (fun x => (n, x.1, x.2)) else none)
  let lock := d.pow.hold < 12 ∧ (upTo 8).any (fun n => allowed n && (d.getPart n).lockRun)
  let hr := d.holdRank (d.pow.hold + 1)
  let least := soft.foldl (fun (m : Option Nat) x => match m with
    | none => some x.2.2
    | some r => some (min r x.2.2)) (if lock then some hr else none)
  match least with
  | none => d
  | some r =>
    let d' := Dev.each (soft.filter (fun x => x.2.2 == r)) (fun d x =>
      let l := d.levelsOf x.1
      let d := d.setLevels x.1 (l.set x.2.1 (l.get x.2.1 + 1))
      if d.intervalJ x.1 < (d.getGuar (4 * x.1 + 3)).v1 then d.modGuar (4 * x.1 + 3) (fun g => if g.rank = 0 then g else { g with throttled := true }) else d) d
    if lock ∧ hr = r then { d' with pow.hold := d.pow.hold + 1 } else d'

/-- Rank of a throttled level of a partition: the guarantee it breaks as it stands. -/
def Dev.standing (d : Dev) (n : Nat) : Option (Nat × Nat) :=
  ((d.shareOrder.reverse.find? (fun m => decide (0 < (d.levelsOf n).get m)))).map (fun m => (m, d.stepRank n m ((d.levelsOf n).get m)))

/-- Release one level (R503 step 4): the throttled level of highest rank, and within a partition the reverse of SHARE_ORDER. -/
def Dev.release (d : Dev) : Dev :=
  let soft := (upTo 8).filterMap (fun n => (d.standing n).map (fun x => (n, x.1, x.2)))
  let best := soft.foldl (fun (b : Option (Nat × Nat × Nat)) x => match b with
    | none => some x
    | some y => if y.2.2 < x.2.2 then some x else b) none
  let hr := d.holdRank d.pow.hold
  let dropHold := fun (d : Dev) =>
    let d := { d with pow.hold := d.pow.hold - 1 }
    if d.pow.hold = 0 then d.askHolds 0 0 else d
  match best with
  | none => if 0 < d.pow.hold then dropHold d else d
  | some x =>
    if 0 < d.pow.hold ∧ x.2.2 < hr then dropHold d
    else
      let l := d.levelsOf x.1
      d.setLevels x.1 (l.set x.2.1 (l.get x.2.1 - 1))

/-- No level is throttled. -/
def Dev.unthrottled (d : Dev) : Bool := d.pow.levelsNext.isEmpty && d.pow.hold == 0

/-- A half is over on its own (R503): the mean of its last ten current estimates exceeds 285 A. -/
def Dev.halfOver (d : Dev) (h : Nat) : Bool :=
  let l := tabGet [] h d.pow.halfEst
  decide (285000 * l.length < l.foldl (· + ·) 0)

/-- Some request of a partition is to HBM (R511). -/
def Dev.targetsHbm (d : Dev) (n : Nat) : Bool :=
  d.fab.requests.any (fun r => r.part == n && match d.locate r.addr with
    | .hbm _ _ _ => true
    | _ => false)

/-- The step that a latency guarantee asks of one partition of lower rank on its dies (R511). -/
def Dev.latencyStep (d : Dev) (n : Nat) : Dev :=
  let g := d.getGuar (4 * n + 2)
  if g.rank = 0 ∨ g.overCount * 2 ≤ g.v2 then d
  else
    let domain := if d.targetsHbm n then 1 else 2
    let cand := (upTo 8).find? (fun m =>
      m != n && (d.getPart m).live && !(d.getPart m).lockRun && decide ((d.levelsOf m).get domain < depthMax domain)
      && (d.getPart m).dies.any (fun q => (d.getPart n).dies.contains q)
      && decide (d.stepRank m domain ((d.levelsOf m).get domain + 1) < g.rank))
    match cand with
    | none => d
    | some m => (d.setLevels m ((d.levelsOf m).set domain ((d.levelsOf m).get domain + 1))).modGuar (4 * m + 1) (fun x =>
        if x.rank = 0 then x else { x with cause := 3 })

/-- Every partition outside lockstep stands at its floors (R507). -/
def Dev.atFloors (d : Dev) : Bool :=
  (upTo 8).all (fun n => !(d.getPart n).live || (d.getPart n).lockRun || (upTo 3).all (fun m => (d.levelsOf n).get m == depthMax m))

/-- Mean of the last ten estimates in mW (R503). -/
def Dev.meanPower (d : Dev) : Nat := d.pow.est.foldl (· + ·) 0 / max 1 d.pow.est.length

/-- CAP_EFF in W (R503). -/
def Dev.capNow (d : Dev) : Nat := min d.pow.capW (d.therm.cap.getD d.pow.capW)

/-- Values that wait for the control step take effect, and P10 and CAP_EFF are formed (R502, R503, R509). -/
def Dev.controlValues (d : Dev) : Dev :=
  let d := Dev.each d.pow.pend Dev.applyPolicy d
  let d := { d with pow.pend := [] }
  let d := d.applyGuarantees
  { d with pow.p10 := d.meanPower, pow.capEff := d.capNow }

/-- The device is over its cap (R503). -/
def Dev.isOver (d : Dev) : Bool := decide (d.pow.capEff * 1000 < d.pow.p10)

/-- Halves that are over on their own (R503). -/
def Dev.overHalves (d : Dev) : List Nat := (upTo 8).filter d.halfOver

/-- Throttling of one step (R503 steps 3, R511). -/
def Dev.controlThrottle (d : Dev) : Dev :=
  let halves := d.overHalves
  let d := if d.isOver then d.throttle (fun _ => true) else d
  let d := Dev.each halves (fun d h => d.throttle (fun n => d.holder h == some n)) d
  Dev.each (upTo 8) Dev.latencyStep d

/-- Release after ten consecutive steps below 0.97 × CAP_EFF (R503 step 4). -/
def Dev.controlRelease (d : Dev) : Dev :=
  let low := decide (d.pow.p10 * 100 < 97 * d.pow.capEff * 1000) && d.overHalves.isEmpty
  let n := if low then d.pow.under + 1 else 0
  let d := { d with pow.under := n % 10 }
  if n = 10 then d.release else d

/-- The condition of R507 holds at this step: h at 12, floors reached, and P10 more than 5 % over. -/
def Dev.holdsFail (d : Dev) : Bool := decide (d.pow.capEff * 1050 < d.pow.p10) && d.pow.hold == 12 && d.atFloors

/-- What a step records for R507 and R508. -/
def Dev.controlNote (d : Dev) : Dev :=
  let since := if d.holdsFail then some (d.pow.hold12Since.getD d.clock.wall) else none
  { d with pow.hold12Since := since, pow.deepest := max d.pow.deepest d.pow.hold }

/-- EV_POWER_CAP at the first step that throttles, and, with the deepest hold level reached, when the last level is released (R508). -/
def Dev.controlEvents (d : Dev) (was above : Bool) : Dev :=
  if was ∧ !d.unthrottled then
    let cause := if !above then 2 else if d.therm.cap.any (fun c => decide (c < d.pow.capW)) then 3 else 1
    let rail := d.overHalves.head?.getD 0
    let d := { d with pow.throttledSince := some d.clock.wall, pow.throttleCause := cause, pow.repeats := 0 }
    d.powerEv cause 0 (if cause = 2 then 5 else 0) (if cause = 2 then rail else 0) 0
  else if !was ∧ d.unthrottled then
    let ms := d.msSince (d.pow.throttledSince.getD d.clock.wall)
    let d := d.powerEvAt d.pow.deepest d.pow.throttleCause 2 0 0 ms
    { d with pow.throttledSince := none, pow.deepest := 0, pow.repeats := 0 }
  else d

/-- R503: the control step: P10 and CAP_EFF, then a throttling step, or a release after ten steps below 0.97 × CAP_EFF. -/
def controlStep (d : Dev) : Dev :=
  let d := d.controlValues
  let d' := d.controlThrottle.controlRelease.controlNote
  d'.controlEvents d.unthrottled d.isOver

def execControlStep (s : State) : Host.Outcome State Fault Refusal := s.live controlStep

/-- R506: every 100 µs while h > 0 the device asks for holds. -/
def holdRequestTimer (d : Dev) : Dev :=
  d.gate (decide (0 < d.pow.hold)) (fun d =>
    let s := 16 / d.pow.hold - 1
    d.askHolds (cdiv 148 (s + 1)) s)

def execHoldRequestTimer (s : State) : Host.Outcome State Fault Refusal := s.live holdRequestTimer

/-- R508: a throttle that lasts repeats its event once per second. -/
def throttleRepeat (d : Dev) : Dev :=
  match d.pow.throttledSince with
  | none => d
  | some t =>
    d.gate (d.due t (1000000000 * (d.pow.repeats + 1))) (fun d =>
      { d.powerEv d.pow.throttleCause 4 0 0 (d.msSince t) with pow.repeats := d.pow.repeats + 1 })

def execThrottleRepeat (s : State) : Host.Outcome State Fault Refusal := s.live throttleRepeat

/-- R507: holds at the cap have failed for 100 ms: HOLD_LIMIT, and every lockstep partition stops at the next beat edge. -/
def holdLimitExpiry (d : Dev) : Dev :=
  match d.pow.hold12Since with
  | none => d
  | some t => d.gate (d.due t 100000000) (fun d => ({ d.powerEv 6 0 0 0 (d.msSince t) with pow.hold12Since := none }).stopLockstep 3)

def execHoldLimitExpiry (s : State) : Host.Outcome State Fault Refusal := s.live holdLimitExpiry

/-! ## Guarantees -/

/-- Cause of a breach (R512): a temperature cap, the power cap, or holds that this device did not request. -/
def Dev.breachCause (d : Dev) (kind : Nat) (g : Guarantee) : Nat :=
  if kind = 0 ∧ d.pow.hold = 0 then 4
  else if g.cause = 3 then 3
  else if d.therm.cap.any (fun c => decide (c < d.pow.capW)) then 2 else 1

/-- Shortfall of a guarantee at the end of its window, or none if it is kept (R512). -/
def Dev.shortfall (d : Dev) (n kind : Nat) (g : Guarantee) : Option Nat :=
  if kind = 0 then
    if 16 * g.jobBeats < g.v1 * 4096 then some (g.v1 - 16 * g.jobBeats / 4096) else none
  else if kind = 1 then
    let l := tabGet {} n d.pow.levels
    let m := g.v1 - (16 - l.memory)
    let k := g.v2 - (16 - l.links)
    if 0 < m ∨ 0 < k then some (max m k) else none
  else if kind = 2 then (if g.v2 < g.overCount then some (g.overCount - g.v2) else none)
  else if g.throttled ∧ d.intervalJ n < g.v1 then some (g.v1 - d.intervalJ n) else none

/-- EV_GUARANTEE_BREACH (R569). -/
def Dev.breachEv (d : Dev) (n kind flags : Nat) (g : Guarantee) : Dev :=
  d.raise { code := 0x0502, cause := g.cause, flags := flags, sev := 1, partition := n, index := kind + 256 * g.rank
            valueA := g.shortfall, valueB := if g.breach then d.msSince g.since else 0 }

/-- R511, R512: a window of 100 ms, or of 4,096 beats for PROGRESS, ends and its guarantee is judged: a breach begins, lasts or ends. -/
def guaranteeWindowEnd (partition kind : Nat) (d : Dev) : Dev :=
  let k := 4 * partition + kind
  let g := d.getGuar k
  d.gate (decide (kind < 4) && decide (0 < g.rank) && (kind != 0 || decide (4096 ≤ g.beats))) (fun d =>
    let fresh := fun (g : Guarantee) =>
      let last := kind != 3 || decide (g.v2 ≤ g.windows + 1)
      { g with beats := 0, jobBeats := 0, answered := 0, overCount := 0
               windows := if last then 0 else g.windows + 1
               throttled := if last then false else g.throttled
               energyAt := if last then tabGet 0 partition d.pow.energy else g.energyAt }
    match d.shortfall partition kind g with
    | some x =>
      let g' := { g with cause := d.breachCause kind g, shortfall := max g.shortfall x }
      if g.breach then
        let d := if d.due g.since (1000000000 * (g.repeated + 1)) then
            (d.breachEv partition kind 4 g').modGuar k (fun _ => fresh { g' with repeated := g.repeated + 1 })
          else d.modGuar k (fun _ => fresh g')
        d
      else
        let d := d.breachEv partition kind 0 g'
        d.modGuar k (fun _ => fresh { g' with breach := true, since := d.clock.wall, repeated := 0 })
    | none =>
      if g.breach then
        (d.breachEv partition kind 2 g).modGuar k (fun _ => fresh { g with breach := false, shortfall := 0, repeated := 0, cause := 0 })
      else d.modGuar k fresh)

def execGuaranteeWindowEnd (partition kind : Nat) (s : State) : Host.Outcome State Fault Refusal :=
  s.live (guaranteeWindowEnd partition kind)

/-! ## Temperature -/

/-- EV_THERMAL_WARN (R569): VALUE_A Tj, VALUE_B the thermal cap in W. Sensor units are 12p + i. -/
def Dev.thermalEv (d : Dev) (cause cls die idx : Nat) : Dev :=
  d.raise { code := 0x0701, cause := cause, sev := 1, die := die, cls := cls, idx := idx
            valueA := unsgn 64 d.therm.tj, valueB := d.therm.cap.getD 0 }

/-- Excluded sensors of a die. -/
def Dev.excludedOn (d : Dev) (die : Nat) : Nat := (d.therm.excluded.filter (fun u => u / 12 == die)).length

/-- The largest of some numbers, 0 for none. -/
def maxInt : List Int → Int
  | [] => 0
  | x :: xs => xs.foldl max x

/-- The highest of the readings of a die's enabled sensors; 100 °C once more than two are excluded (R519). -/
def Dev.dieTemp (d : Dev) (die : Nat) : Int :=
  if 2 < d.excludedOn die then 10000
  else maxInt (((upTo 12).filter (fun i => !d.therm.excluded.contains (12 * die + i))).map (fun i => tabGet 0 (12 * die + i) d.therm.temp))

/-- Tj and the stacks are hot, or cool (R520). -/
def Dev.hot (d : Dev) : Bool := decide (10000 ≤ d.therm.tj) || decide (9500 ≤ d.therm.tstack)
def Dev.cool (d : Dev) : Bool := decide (d.therm.tj < 9800) && decide (d.therm.tstack < 9300)

/-- The thermal cap begins (R520): P10 − 48 W, reported once until it is removed. -/
def Dev.capBegins (d : Dev) (cls die idx : Nat) : Dev :=
  if d.hot ∧ d.therm.cap.isNone then
    let d := { d with therm.cap := some (max 800 (d.pow.p10 / 1000 - 48)) }
    if d.therm.warned then d else { d.thermalEv 2 cls die idx with therm.warned := true }
  else d

/-- How many of a sensor's thresholds a reading has reached (R575). -/
def dieLevel (t : Int) : Nat := b2n (decide (10000 ≤ t)) + b2n (decide (10500 ≤ t)) + b2n (decide (12000 ≤ t))
def stackLevel (t : Int) : Nat := b2n (decide (9500 ≤ t)) + b2n (decide (10000 ≤ t)) + b2n (decide (10500 ≤ t))

/-- A sensor crosses a threshold: ALERT_N asserts, and the event receiver gets a PlatformEventMessage (R574, R576). Sensors in the order of R575: 0 to 47
the die sensors, 48 Tj, 49 to 68 the stacks, 202 the time above 105 °C. -/
def Dev.crossed (d : Dev) (sensor old new : Nat) : Dev :=
  if old = new then d
  else
    let d := { d with pins.alertN := false }
    match d.mgmt.eventReceiver with
    | some r => d.emit (.reply (r / 256) (Config.replyBody 1 0x20A (natLe 1 (r % 256) ++ natLe 2 sensor ++ natLe 1 new)))
    | none => d

/-- R518, R519: every die sensor is sampled and Tj formed; a sensor that fails its self-check is excluded. -/
def tempSample (readings : List Reading) (d : Dev) : Dev :=
  let d := Dev.each readings (fun d r =>
    if r.failed then
      if d.therm.excluded.contains r.unit then d
      else { d with therm.excluded := insertNat r.unit d.therm.excluded }.thermalEv 1 4 (r.unit / 12) (r.unit % 12)
    else
      ({ d with therm.temp := tabSet 0 r.unit r.temp d.therm.temp }).crossed r.unit (dieLevel (tabGet 0 r.unit d.therm.temp)) (dieLevel r.temp)) d
  let old := d.therm.tj
  let d := { d with therm.tj := maxInt ((upTo 4).map d.dieTemp) }
  let top := ((upTo 48).find? (fun u => !d.therm.excluded.contains u && tabGet 0 u d.therm.temp == d.therm.tj)).getD 0
  (d.crossed 48 (dieLevel old) (dieLevel d.therm.tj)).capBegins 4 (top / 12) (top % 12)

def execTempSample (readings : List Reading) (s : State) : Host.Outcome State Fault Refusal := s.live (tempSample readings)

/-- R518: every HBM stack's temperature is read. -/
def stackTempRead (readings : List Reading) (d : Dev) : Dev :=
  let d := Dev.each (readings.filter (fun r => !r.failed)) (fun d r =>
    ({ d with therm.stack := tabSet 0 r.unit r.temp d.therm.stack }).crossed (49 + r.unit) (stackLevel (tabGet 0 r.unit d.therm.stack)) (stackLevel r.temp)) d
  let d := { d with therm.tstack := maxInt ((upTo 20).map (fun u => tabGet 0 u d.therm.stack)) }
  let top := ((upTo 20).find? (fun u => tabGet 0 u d.therm.stack == d.therm.tstack)).getD 0
  d.capBegins 3 (top / 5) top

def execStackTempRead (readings : List Reading) (s : State) : Host.Outcome State Fault Refusal := s.live (stackTempRead readings)

/-- R520: the cap falls by 48 W while hot, down to 800 W; once cool it rises by 48 W, and is removed when it reaches CAP_W. -/
def thermalCapTick (d : Dev) : Dev :=
  match d.therm.cap with
  | none => d
  | some c =>
    if d.hot then { d with therm.cap := some (max 800 (c - 48)) }
    else if d.cool then
      if d.pow.capW ≤ c + 48 then { d with therm.cap := none, therm.warned := false }
      else { d with therm.cap := some (c + 48) }
    else d

def execThermalCapTick (s : State) : Host.Outcome State Fault Refusal := s.live thermalCapTick

/-- R521: each second above 105 °C is counted and reported. -/
def overLimitTick (d : Dev) : Dev :=
  d.gate (decide (10500 < d.therm.tj)) (fun d =>
    let top := ((upTo 48).find? (fun u => !d.therm.excluded.contains u && tabGet 0 u d.therm.temp == d.therm.tj)).getD 0
    let d := d.crossed 202 (min 1 d.therm.overLimit) 1
    { d.thermalEv 3 4 (top / 12) (top % 12) with therm.overLimit := d.therm.overLimit + 1 })

def execOverLimitTick (s : State) : Host.Outcome State Fault Refusal := s.live overLimitTick

/-- Every SerDes transmitter stops (R522, R526, R527): no port is ACTIVE. -/
def Dev.linksStop (d : Dev) : Dev :=
  let off := fun (l : Link) => { l with regs.state := 0, regs.width := 0, train := { cached := l.train.cached }, routed := {} }
  { d with links := d.links.map (fun x => (x.1, off x.2)) }

/-- Every job is lost with its image (R522, R526, R527). -/
def Dev.loseJobs (d : Dev) : Dev :=
  let lost := fun (p : Part) => { p with job := {}, image := none }
  { d with parts := d.parts.map (fun p => (p.1, lost p.2)) }

/-- R522: a sensor reaches 120 °C, or a stack 105 °C: THERM_TRIP_N falls, clocks and transmitters stop, and every job is lost. -/
def thermalTrip (stack : Bool) (unit : Nat) (temp : Int) (d : Dev) : Dev :=
  d.gate (!d.therm.tripped && (if stack then decide (10500 ≤ temp) else decide (12000 ≤ temp))) (fun d =>
    let d := d.linksStop.loseJobs
    let d := { d with therm := { d.therm with
      tripped := true, tripCause := (if stack then 2 else 1), tripUnit := unit, tripTemp := temp, tripLogged := false } }
    { d with pins.thermTripN := false, boot.phase := .tripped, bed.ready := false }.emit (.pin 1 false))

/-- Phases in which the comparators can trip (R522, R527): the device has power and RESET_N does not hold it. -/
def Phase.canTrip : Phase → Bool
  | .heldReset => false
  | .noPower => false
  | .stage _ => true
  | .ready => true
  | .bootFailed => true
  | .recovery => true
  | .selfReset => true
  | .tripped => true
  | .powerFail => true

def execThermalTrip (stack : Bool) (unit : Nat) (temp : Int) (s : State) : Host.Outcome State Fault Refusal :=
  s.run (fun d => d.gate d.boot.phase.canTrip (thermalTrip stack unit temp))

/-- R522: within 50 ms the always-on domain writes EV_THERMAL_TRIP to the event log in flash. -/
def thermalTripLog (d : Dev) : Dev :=
  d.gate (d.therm.tripped && !d.therm.tripLogged && d.boot.phase != .noPower) (fun d =>
    let die := if d.therm.tripCause = 2 then d.therm.tripUnit / 5 else d.therm.tripUnit / 12
    let d := d.raise { code := 0x0702, cause := d.therm.tripCause, sev := 3, die := die, cls := if d.therm.tripCause = 2 then 3 else 4
                       idx := if d.therm.tripCause = 2 then d.therm.tripUnit else d.therm.tripUnit % 12, valueA := d.therm.tripTemp.toNat }
    { d with therm.tripLogged := true, flash.eventFlushed := d.evt.seq, evt.held := 0 })

def execThermalTripLog (s : State) : Host.Outcome State Fault Refusal := s.run thermalTripLog

/-! ## Two-copy records -/

/-- An update of a record with a two-copy commit (R550): the invalid copy, or the one of lower generation, takes generation G + 1. -/
def TwoCopy.commit (t : TwoCopy) : TwoCopy :=
  let g := max (if t.validA then t.genA else 0) (if t.validB then t.genB else 0) + 1
  if !t.validA ∨ (t.validB ∧ t.genA < t.genB) then { t with genA := g % 2 ^ 32, validA := true }
  else { t with genB := g % 2 ^ 32, validB := true }

/-- What the energy commit stores: partition energy under 0 to 7, gravel energy under 8 to 15, UNASSIGNED under 16 and the seconds above 105 °C under 17
(R517, R579). -/
def Dev.energyNow (d : Dev) : List (Nat × Nat) :=
  let t := (upTo 8).foldl (fun t n => tabSet 0 (8 + n) (tabGet 0 n d.pow.gravel) (tabSet 0 n (tabGet 0 n d.pow.energy) t)) []
  tabSet 0 17 d.therm.overLimit (tabSet 0 16 d.pow.unassigned t)

/-- R517: the energy counters are committed to flash. -/
def energyCommit (d : Dev) : Dev :=
  d.gate (!d.flash.writesOff) (fun d => { d with flash.energyRec := d.flash.energyRec.commit, pow.energyFlash := d.energyNow })

def execEnergyCommit (s : State) : Host.Outcome State Fault Refusal := s.live energyCommit

end Sys2Proof.Machine
end

