-- ==== Sys2Proof/Machine/Regs.lean ====
section
/-! DEFINITION. The register map of a die (R436): what each register reads, in 32-bit words, by its offset from 0x3000_0000_0000, and
what a write of its write-1-to-clear fields does (R9 to R13, R429). -/

namespace Sys2Proof.Machine

/-- A register from its fields: lowest bit, width and value (R6). Bits that no field names read 0 (R13). -/
def bf (l : List (Nat × Nat × Nat)) : Nat := l.foldl (fun a f => a + f.2.2 % 2 ^ f.2.1 * 2 ^ f.1) 0

/-- The 32-bit word of a 64-bit register at an offset. -/
def wordOf (v off : Nat) : Nat := fld v (32 * (off / 4 % 2)) 32

/-- The two's-complement code of a temperature (R579). -/
def tempCode (t : Int) : Nat := unsgn 16 t

/-- VitalId, DeviceStatus and BedrockStatus (R432). -/
def vitalId : Nat := 0x0356345741
def Dev.deviceStatus (d : Dev) : Nat :=
  bf [(0, 1, b2n d.bed.ready), (1, 1, b2n d.bed.owned), (2, 1, b2n d.sec.installer.isOpen), (3, 1, b2n d.sec.maker.isOpen),
      (4, 1, b2n d.bed.deepIdle)]
def Dev.bedrockStatus (d : Dev) : Nat :=
  let b := d.bed
  bf [(0, 2, b.primary), (2, 1, b2n b.standbyOk), (3, 1, b2n b.paused), (4, 3, b.pauseCause), (7, 1, b2n b.failoverSeen),
      (8, 8, b.failovers), (16, 1, b.activeBank)]

/-- Capability words (R433). -/
def capRevision : Nat :=
  bf [(0, 8, Config.dieRev 0), (8, 8, Config.dieRev 1), (16, 8, Config.dieRev 2), (24, 8, Config.dieRev 3), (32, 8, pkgLpv), (40, 16, pkgScl)]
/-- The widest legal width of the lanes of a port that work, as LinkConfig.MAX_WIDTH codes it: how far down the list of legal widths. -/
def Dev.capWidth (d : Dev) (n : Nat) : Nat :=
  let sound := portLanes n - countLanes (d.getLink n).regs.laneFault (portLanes n)
  match widthWithin n sound with
  | some w => (legalWidths n).idxOf w
  | none => 3
def Dev.capLinkMap (d : Dev) : Nat :=
  bf ((0, 4, d.caps.d2ds) :: (upTo 4).map (fun l => (4 + 2 * l, 2, d.capWidth (16 + l))))
def Dev.capVeinMap (d : Dev) : Nat :=
  bf ((0, 16, d.caps.veins) :: (upTo 16).map (fun n => (16 + 2 * n, 2, d.capWidth n)))
def Dev.capSlabMap (d : Dev) (p : Nat) : Nat :=
  bf ((upTo 8).map (fun s => (s, 1, b2n (d.caps.slabOn p s))) ++ (upTo 8).map (fun s => (8 + 4 * s, 4, d.caps.arraysOf p s)))
def Dev.capPebbleMap (d : Dev) (p : Nat) : Nat := bf ((upTo 8).map (fun k => (4 * k, 4, d.caps.namesOf (8 * p + k))))
def Dev.capHbmMap (d : Dev) (s : Nat) : Nat :=
  let r := (d.getStack s).pcRetired
  bf [(0, 1, b2n (d.caps.stackOn s)), (1, 1, b2n Config.stacksAre64), (2, 7, countLanes r 64), (64, 64, r)]

/-- Beat registers (R66 to R70). -/
def Dev.beatConfigReg (d : Dev) : Nat :=
  bf [(0, 2, d.beat.role), (2, 1, d.beat.source), (3, 4, d.beat.holdCap), (16, 16, d.beat.domain)]
/-- BeatStatus (R68): HOP while locked, the parent while the device has one or has lost it. -/
def Dev.beatStatusReg (d : Dev) : Nat :=
  let b := d.beat
  let has := decide (2 ≤ b.state) && decide (b.state ≤ 4)
  bf [(0, 3, b.state), (3, 5, if b.state = 3 then b.hop else 0), (8, 4, if has then b.parentPort else 0), (12, 1, b2n (has && b.parentD2d)), (13, 1, b2n b.beatInOk), (14, 3, b.lossCause),
      (17, 1, b2n b.lossSeen), (18, 12, b.master)]
def Dev.beatLatencyReg (d : Dev) (n : Nat) : Nat :=
  bf [(0, 16, tabGet 0 n d.beat.latency), (16, 1, b2n (d.portEligible n))]

/-- Mirror registers (R562). -/
def Dev.mirrorStatusReg (d : Dev) : Nat :=
  let m := d.mirror.regs
  bf [(0, 2, m.mode), (2, 3, m.state), (5, 1, m.side), (6, 1, b2n m.slow), (7, 1, b2n m.mismatchSeen), (8, 3, m.partition), (32, 32, m.commits)]
def Dev.mirrorSyncReg (d : Dev) : Nat := bf [(0, 32, d.mirror.regs.dirty.length), (32, 8, min d.mirror.regs.passes 255)]

/-- RouteSelf (R380). -/
def Dev.routeSelfReg (d : Dev) : Nat := bf [(0, 12, d.fab.selfDevice), (12, 1, b2n d.fab.selfValid)]

/-- One 32-bit word of the vital page (R431, R562). -/
def Dev.vitalWord (d : Dev) (o : Nat) : Nat :=
  if o < 0x008 then wordOf vitalId o
  else if o = 0x008 then d.deviceStatus
  else if o = 0x00C then d.bedrockStatus
  else if o < 0x018 then wordOf d.bed.heartbeat o
  else if o < 0x020 then wordOf (d.caps.generation % 2 ^ 32) o
  else if o < 0x028 then wordOf capRevision o
  else if o < 0x030 then wordOf pkgFeatures o
  else if o = 0x030 then pkgFormats
  else if o = 0x034 then d.capLinkMap
  else if o < 0x040 then wordOf d.capVeinMap o
  else if o < 0x060 then wordOf (d.capSlabMap ((o - 0x040) / 8)) o
  else if o < 0x070 then d.capPebbleMap ((o - 0x060) / 4)
  else if o < 0x080 then 0
  else if o < 0x1C0 then fld (d.capHbmMap ((o - 0x080) / 16)) (32 * (o / 4 % 4)) 32
  else if o < 0x200 then 0
  else if o = 0x200 then d.beatConfigReg
  else if o = 0x204 then d.beatStatusReg
  else if o = 0x208 then bf [(0, 16, d.beat.maskVein), (16, 4, d.beat.maskD2d)]
  else if o < 0x210 then 0
  else if o < 0x218 then wordOf d.beat.number o
  else if o < 0x220 then wordOf (d.beat.holdCount % 2 ^ 48) o
  else if o = 0x220 then d.routeSelfReg
  else if o < 0x228 then 0
  else if o < 0x230 then wordOf Config.deviceUid o
  else if o < 0x238 then wordOf d.mirrorStatusReg o
  else if o < 0x240 then wordOf d.mirrorSyncReg o
  else if o < 0x248 then wordOf d.mirror.regs.jobBeat o
  else 0

/-- The vital page as bytes (R431, R451). -/
def Dev.vitalPage (d : Dev) : List Byte := (upTo 1024).flatMap (fun i => natLe 4 (d.vitalWord (4 * i)))

/-- Seam and scrub registers of a die (R94, R95, R312, R313). -/
def Dev.seamStatusReg (d : Dev) (p : Nat) : Nat :=
  let s := d.getSeam p
  bf [(0, 2, s.mode), (2, 5, (d.getHalf (2 * p)).freq), (7, 5, (d.getHalf (2 * p + 1)).freq), (12, 1, b2n s.slipSeen), (13, 2, s.slipCause),
      (15, 4, s.slipRows)]
def Dev.seamSlipReg (d : Dev) (p : Nat) : Nat := bf [(0, 32, min (d.getSeam p).slips 0xFFFFFFFF), (32, 16, (d.getSeam p).changes)]
def Dev.scrubConfigReg (d : Dev) (p : Nat) : Nat :=
  let s := d.getScrub p
  bf [(0, 8, s.sramHours), (8, 10, s.hbmHours), (18, 1, b2n s.autoRetire), (19, 1, b2n s.autoSppr)]
def Dev.scrubStatusReg (d : Dev) (p : Nat) : Nat :=
  let s := d.getScrub p
  bf [(0, 16, s.sramPasses), (16, 16, s.hbmPasses), (32, 7, s.progress), (39, 1, b2n s.late)]

/-- Millijoules of an energy in nJ (R516, R579). -/
def milliJoules (nj : Nat) : Nat := nj / 1000000

/-- Telemetry registers (R579). -/
def Dev.telemRail (d : Dev) (r : Nat) : Nat := let x := d.getRail r; bf [(0, 16, x.voltage), (16, 16, x.current), (32, 16, x.power)]
def Dev.telemTemp (d : Dev) (p i : Nat) : Nat :=
  bf [(0, 16, tempCode (tabGet 0 (12 * p + i) d.therm.temp)), (16, 1, b2n (d.therm.excluded.contains (12 * p + i)))]
def Dev.telemStack (d : Dev) (m : Nat) : Nat := bf [(0, 16, tempCode (tabGet 0 m d.therm.stack)), (16, 1, b2n (d.caps.stackOn m))]
def Dev.telemPower (d : Dev) : Nat :=
  bf [(0, 16, d.pow.p10 / 1000), (16, 16, d.pow.capEff), (32, 16, d.therm.cap.getD 0), (48, 4, d.pow.hold), (52, 1, b2n (!d.unthrottled))]
def Dev.telemThermal (d : Dev) : Nat := bf [(0, 16, tempCode d.therm.tj), (16, 16, tempCode d.therm.tstack), (32, 32, min d.therm.overLimit 0xFFFFFFFF)]
def Dev.telemWord (d : Dev) (o : Nat) : Nat :=
  if o < 0x1000 then 0
  else if o < 0x1130 then wordOf (d.telemRail ((o - 0x1000) / 8)) o
  else if o < 0x1200 then 0
  else if o < 0x1300 then (if (o - 0x1200) / 4 % 16 < 12 then d.telemTemp ((o - 0x1200) / 0x40) ((o - 0x1200) / 4 % 16) else 0)
  else if o < 0x1350 then d.telemStack ((o - 0x1300) / 4)
  else if o < 0x1380 then 0
  else if o < 0x1388 then wordOf d.telemPower o
  else if o < 0x1390 then wordOf d.telemThermal o
  else if o < 0x1400 then 0
  else if o < 0x1440 then wordOf (milliJoules (tabGet 0 ((o - 0x1400) / 8) d.pow.energy)) o
  else if o < 0x1480 then wordOf (milliJoules (tabGet 0 ((o - 0x1440) / 8) d.pow.gravel)) o
  else if o < 0x1488 then wordOf (milliJoules d.pow.unassigned) o
  else 0

/-- The Device block of a die (R436, R579). -/
def Dev.deviceWord (d : Dev) (p o : Nat) : Nat :=
  if o < 0x400 then d.vitalWord o
  else if o = 0x400 then d.seamStatusReg p
  else if o < 0x408 then 0
  else if o < 0x410 then wordOf (d.seamSlipReg p) o
  else if o = 0x410 then d.scrubConfigReg p
  else if o < 0x418 then 0
  else if o < 0x420 then wordOf (d.scrubStatusReg p) o
  else if o < 0x428 then wordOf (min (tabGet 0 p d.fab.laps) 0xFFFFFFFF) o
  else d.telemWord o

/-- A slab context waits for operands or cairns: its head waits on a cairn or a barrier, or names a bank that is still being written (R132). -/
def Dev.slabWaits (d : Dev) (s x : Nat) : Bool :=
  let c := d.getSCtx (2 * s + x)
  let q := (d.getSlab s).seq
  (c.waitReg && c.waitSat.isNone) || c.arrived
    || (match c.head.map SlabCmd.op with
        | some (.pass _) => (q.dmaQ ++ q.dmaRun).any (fun j => j.x == x && (j.desc.kind == 0 || j.desc.kind == 1))
        | some (.streak _) => (q.dmaQ ++ q.dmaRun).any (fun j => j.x == x && j.desc.kind == 2)
        | _ => false)
def Dev.slabCtxState (d : Dev) (s x : Nat) : Nat :=
  let c := d.getSCtx (2 * s + x)
  if c.stopped then 3 else if !c.bound || !c.started || c.endDone then 0 else if d.slabWaits s x then 2 else 1

/-- Registers of a slab (R132 to R134, R160, R184, R185, R200, R201, R235, R236). -/
def Dev.slabStatusReg (d : Dev) (s : Nat) : Nat :=
  let g := (d.getSlab s).regs
  bf [(0, 2, d.slabCtxState s 0), (2, 2, d.slabCtxState s 1), (4, 1, g.lastCtx), (5, 4, d.caps.arraysOf (s / 8) (s % 8)),
      (9, 1, b2n g.gravelOn), (10, 2, g.stopCause), (12, 1, b2n g.poisonSeen)]
def Dev.slabDmaReg (d : Dev) (s : Nat) : Nat :=
  let b := d.getSlab s
  let queued := fun x => (b.seq.dmaQ.filter (fun j => j.x == x)).length
  let busy := fun mesh => b.seq.dmaRun.any (fun j => (j.desc.src == 1) == mesh)
  bf [(0, 5, queued 0), (5, 5, queued 1), (10, 1, b2n (busy false)), (11, 1, b2n (busy true)), (12, 1, b2n b.regs.fifoUnder),
      (13, 1, b2n b.regs.fifoOver), (14, 15, min b.mem.inFifo.length 16384)]
def Dev.slabPositionReg (d : Dev) (s : Nat) : Nat :=
  let c := fun x => d.getSCtx (2 * s + x)
  bf [(0, 12, (c 0).pc), (12, 3, (c 0).loops.length), (15, 1, b2n (c 0).endDone), (32, 12, (c 1).pc), (44, 3, (c 1).loops.length),
      (47, 1, b2n (c 1).endDone)]
def Dev.slabWord (d : Dev) (s o : Nat) : Nat :=
  let b := d.getSlab s
  let g := b.regs
  if o = 0x00 then d.slabStatusReg s
  else if o = 0x04 then bf [(0, 4, g.accSplit), (4, 1, b2n g.gravelEn)]
  else if o = 0x08 then bf [(0, 1, b2n g.pair0), (1, 1, b2n g.pair1)]
  else if o = 0x0C then bf [(0, 1, b2n g.ovfSeen), (1, 1, b2n g.nanSeen), (2, 1, b2n g.eccSeen), (3, 1, b2n g.topkBad)]
  else if o = 0x10 then bf [(0, 1, b2n (b.seq.inflight.any (fun f => f.kind == 1))), (1, 1, g.streakLastCtx), (2, 1, g.streakLastSrc),
                            (3, 1, b2n g.streakPoison)]
  else if o = 0x14 then d.slabDmaReg s
  else if o < 0x20 then 0
  else if o < 0x28 then wordOf (g.passes % 2 ^ 48) o
  else if o < 0x30 then wordOf (g.streamCycles % 2 ^ 48) o
  else if o < 0x38 then wordOf (g.bubbleCycles % 2 ^ 48) o
  else if o = 0x38 then (d.getSCtx (2 * s)).lfsr.toNat
  else if o = 0x3C then (d.getSCtx (2 * s + 1)).lfsr.toNat
  else if o < 0x48 then wordOf (g.streakCommands % 2 ^ 48) o
  else if o < 0x50 then wordOf (g.streakCycles % 2 ^ 48) o
  else if o < 0x58 then wordOf (d.slabPositionReg s) o
  else 0

/-- Registers of a cluster and its pebbles (R280 to R284). -/
def Dev.clusterStatusReg (d : Dev) (k : Nat) : Nat :=
  let c := d.getCluster k
  bf [(0, 4, d.caps.namesOf k), (4, 1, b2n (tabGet none k d.caps.spare).isNone), (5, 5, c.chIn.queue.length), (10, 5, c.chOut.queue.length),
      (15, 5, c.chRouted.queue.length), (20, 1, b2n c.fifoUnder), (21, 1, b2n c.fifoOver)]
def Dev.pebbleStatusReg (d : Dev) (b : Nat) : Nat :=
  let g := d.getPebble b
  bf ((upTo 4).map (fun x => (2 * x, 2, (d.getPCtx (4 * b + x)).state))
    ++ [(8, 2, g.lastCtx), (10, 2, g.stopCause), (12, 1, b2n g.poisonSeen), (13, 1, b2n (decide (tabGet none (b / 8) d.caps.spare = some (b % 8))))])
def Dev.pebblePcReg (d : Dev) (b : Nat) : Nat :=
  bf ((upTo 4).flatMap (fun x => [(16 * x, 13, (d.getPCtx (4 * b + x)).pc), (16 * x + 13, 1, b2n (d.getPCtx (4 * b + x)).ended)]))
def Dev.pebbleWord (d : Dev) (b o : Nat) : Nat :=
  let cnt := fun x => let c := d.getPCtx (4 * b + x)
    bf [(0, 24, min c.satCount 0xFFFFFF), (24, 24, min c.nanCount 0xFFFFFF), (48, 16, min c.tritInvalid 0xFFFF)]
  if o = 0 then d.pebbleStatusReg b
  else if o < 0x08 then 0
  else if o < 0x10 then wordOf (d.pebblePcReg b) o
  else if o < 0x20 then (d.getPCtx (4 * b + (o - 0x10) / 4)).lfsr.toNat
  else wordOf (cnt ((o - 0x20) / 8)) o
def Dev.clusterWord (d : Dev) (k o : Nat) : Nat :=
  if o = 0 then d.clusterStatusReg k
  else if o < 0x100 then 0
  else if o < 0x300 then d.pebbleWord (8 * k + (o - 0x100) / 0x40) (o % 0x40)
  else 0

/-- Barrier registers (R348, R349). -/
def Dev.barrierStatusReg (d : Dev) (p c : Nat) : Nat :=
  let b := d.getChan (16 * p + c)
  let rounds := (b.arrivals.map (·.round)).foldl (fun l r => insertNat r l) []
  bf [(0, 16, b.round), (16, 2, min rounds.length 2), (18, 1, b2n b.dead), (19, 1, b2n b.timeoutSeen), (20, 1, b2n b.lateSeen),
      (21, 1, b2n b.assigned), (22, 3, b.partition)]
def Dev.barrierTreeReg (d : Dev) (c : Nat) : Nat :=
  let t := d.getTree c
  bf [(0, 1, b2n t.enabled), (1, 1, b2n t.root), (2, 4, t.parentPort), (6, 16, t.children)]
def Dev.barrierWord (d : Dev) (p o : Nat) : Nat :=
  if o < 0x40 then d.barrierStatusReg p (o / 4) else if o < 0x80 then d.barrierTreeReg ((o - 0x40) / 4) else 0

/-- Registers of a link (R70, R378, R419 to R423). -/
def Dev.linkStatusReg (d : Dev) (n : Nat) : Nat :=
  let g := (d.getLink n).regs
  bf [(0, 3, g.state), (3, 6, g.width), (9, 1, b2n g.fallback), (10, 2, g.attempt), (12, 3, g.lastCause), (15, 1, b2n g.schedOk),
      (16, 1, b2n g.mateOk), (17, 1, b2n g.degradedSeen), (18, 1, b2n g.downgradeSeen), (19, 1, b2n g.mismatchSeen)]
def Dev.linkPeerReg (d : Dev) (n : Nat) : Nat :=
  let r := (d.getLink n).peer
  bf [(0, 8, r.lpv), (8, 8, r.dieRev), (16, 16, r.scl), (32, 12, r.device), (44, 1, b2n r.deviceValid), (45, 5, r.port)]
def Dev.linkWord (d : Dev) (n o : Nat) : Nat :=
  let l := d.getLink n
  let g := l.regs
  if o = 0x00 then (if n < 16 then bf [(0, 1, b2n g.enable), (1, 2, g.maxWidth), (3, 1, b2n g.mate), (4, 1, b2n g.autoRetry)] else 0)
  else if o = 0x04 then d.linkStatusReg n
  else if o = 0x08 then d.beatLatencyReg n
  else if o < 0x10 then 0
  else if o = 0x10 then g.offered
  else if o = 0x14 then g.used
  else if o < 0x20 then wordOf (d.linkPeerReg n) o
  else if o < 0x28 then wordOf l.peer.features o
  else if o < 0x30 then wordOf l.peer.uid o
  else if o < 0x38 then wordOf (bf [(0, 32, min g.fecCorrected 0xFFFFFFFF), (32, 16, min g.crcFail 0xFFFF), (48, 16, min g.replays 0xFFFF)]) o
  else 0

/-- Memory registers of a die (R309 to R311). -/
def Dev.regionReg (d : Dev) (p n : Nat) : Nat :=
  let r := d.getRegion (16 * p + n)
  bf [(0, 1, b2n r.valid), (1, 1, r.mode), (2, 5, r.stackBits), (7, 3, r.partition), (16, 9, r.base), (32, 6, r.firstBand), (40, 7, r.bands)]
def Dev.stackStatusReg (d : Dev) (m : Nat) : Nat :=
  let s := d.getStack m
  bf [(0, 2, if d.caps.stackOn m then s.state else 3), (2, 1, b2n s.migrating), (3, 1, b2n s.reserveUsed), (4, 6, s.retiredPc), (10, 5, s.retrainCh),
      (15, 8, min s.sppr 255), (23, 1, b2n s.lostWrites)]
def Dev.memoryWord (d : Dev) (p o : Nat) : Nat :=
  if o < 0x80 then wordOf (d.regionReg p (o / 8)) o
  else if o < 0x100 then 0
  else if o < 0x114 then d.stackStatusReg (5 * p + (o - 0x100) / 4)
  else if o < 0x200 then 0
  else if o < 0x228 then wordOf (d.getStack (5 * p + (o - 0x200) / 8)).pcRetired o
  else 0

/-- Routing registers (R356, R357, R372, R381, R435). -/
def Dev.partFabricReg (d : Dev) (n : Nat) : Nat := let f := d.getPartFab n; bf [(0, 1, b2n f.priority), (8, 24, f.timeoutUs)]
def Dev.apertureReg (d : Dev) (w : Nat) : Nat := let a := d.getWindow w; bf [(0, 1, b2n a.valid), (1, 1, b2n a.write), (24, 24, a.base)]
def Dev.routingWord (d : Dev) (p o : Nat) : Nat :=
  if o < 0x4000 then d.routeDevice (o / 4)
  else if o < 0x5000 then d.routeLocal p ((o - 0x4000) / 4)
  else if o < 0x5020 then d.partFabricReg ((o - 0x5000) / 4)
  else if o < 0x5100 then 0
  else if o < 0x5200 then wordOf (d.apertureReg ((o - 0x5100) / 8)) o
  else if o < 0x6000 then 0
  else if o < 0x8000 then
    let w := (o - 0x6000) % 0x40 / 8
    if w < 5 then wordOf (d.reduceWord (8 * p + (o - 0x6000) / 0x400) ((o - 0x6000) % 0x400 / 0x40) w) o else 0
  else 0

/-- Registers of a router (R376, R377). -/
def Dev.routerWord (d : Dev) (r o : Nat) : Nat :=
  let c := d.getPortCnt ((r * 8 + o / 0x100) * 4 + o % 0x100 / 0x20)
  if o < 0x700 ∧ o % 0x100 < 0x80 then
    let k := o % 0x20
    if k < 0x08 then wordOf (c.flits % 2 ^ 48) o
    else if k < 0x10 then wordOf (c.stall % 2 ^ 48) o
    else if k < 0x18 then wordOf (bf [(0, 6, c.depth), (8, 6, c.maxDepth)]) o
    else 0
  else if o = 0xF00 ∨ o = 0xF04 then
    let x := d.getDrop r
    wordOf (bf [(0, 16, min x.noRoute 0xFFFF), (16, 16, min x.format 0xFFFF), (32, 16, min x.late 0xFFFF), (48, 16, min x.linkDown 0xFFFF)]) o
  else 0

/-- Registers of an Assay unit (R585); the feed register reads 0. -/
def Dev.assayWord (d : Dev) (u o : Nat) : Nat :=
  let a := d.getAssay u
  if o = 0x00 then bf [(0, 2, a.state), (2, 1, b2n a.mismatchSeen), (3, 1, b2n a.poisonSeen), (8, 24, a.intervals)]
  else if o < 0x08 then 0
  else if o < 0x10 then wordOf a.value o
  else if o < 0x18 then wordOf a.reg o
  else 0

/-- The arrivals of a channel whose contexts are parked (R334, R335): a dead channel's recorded ones have stopped (R341). -/
def BarrierCh.waiting (c : BarrierCh) : List Arrival :=
  if c.dead then c.parked else c.arrivals.filter (fun a => !a.gone) ++ c.parked

/-- The barrier channel a context is parked on. -/
def Dev.parkedChan (d : Dev) (tile id : Nat) : Option Nat :=
  (upTo 16).find? (fun c => (d.getChan (16 * (tile / 16) + c)).waiting.any (fun a => a.tile == tile && a.id == id))

/-- CairnWaiter (R347): a registered wait, or the barrier the context is parked on. -/
def Dev.cairnWaiterReg (d : Dev) (tile id : Nat) : Nat :=
  match d.cairn.waiters.find? (fun w => w.tile == tile && w.id == id) with
  | some w => bf [(0, 1, 1), (1, 1, b2n w.observe), (7, 10, w.vid), (17, 14, 1024 * (tile % 16) + w.index), (32, 16, w.n),
                  (48, 16, min (w.elapsed / 256) 0xFFFF)]
  | none =>
    match d.parkedChan tile id with
    | some c =>
      let b := d.getChan (16 * (tile / 16) + c)
      let e := (b.waiting.filter (fun a => a.tile == tile && a.id == id)).map (fun a => tabGet 0 a.round b.timer)
      bf [(0, 1, 1), (2, 1, 1), (3, 4, c), (48, 16, min (e.headD 0 / 256) 0xFFFF)]
    | none => 0

/-- Cairn registers of a tile (R345 to R347). -/
def Dev.cairnWord (d : Dev) (tile o : Nat) : Nat :=
  if o < 0x1000 then bf [(0, 31, d.cairnValue tile (o / 4)), (31, 1, b2n (d.cairnOwner tile (o / 4)).isSome)]
  else if o = 0x1000 then
    let t := d.getCairnTile tile
    bf [(0, 1, b2n t.rangeSeen), (1, 1, b2n t.timeoutSeen), (2, 1, b2n t.signalLost), (3, 1, b2n t.setSeen), (16, 16, min t.orphans 0xFFFF)]
  else if 0x1100 ≤ o ∧ o < 0x1200 then wordOf (d.cairnWaiterReg tile ((o - 0x1100) / 8)) o
  else 0

/-- The 32-bit word of the MMIO window of a die at a 4-aligned offset (R436). -/
def Dev.mmioWord (d : Dev) (p off : Nat) : Nat :=
  let blk := off / 0x100000
  let o := off % 0x100000
  if blk = 0 then d.deviceWord p o
  else if blk = 1 then (if o / 0x1000 < 8 then d.slabWord (8 * p + o / 0x1000) (o % 0x1000) else 0)
  else if blk = 2 then (if o / 0x1000 < 8 then d.clusterWord (8 * p + o / 0x1000) (o % 0x1000) else 0)
  else if blk = 3 then d.barrierWord p o
  else if blk = 4 then (if o / 0x100 < 20 then d.linkWord (o / 0x100) (o % 0x100) else 0)
  else if blk = 5 then d.memoryWord p o
  else if blk = 6 then d.routingWord p o
  else if blk = 7 then (if o / 0x1000 < 32 then d.routerWord (256 * p + o / 0x1000) (o % 0x1000) else 0)
  else if blk = 8 then (if o / 0x40 < 8 then d.assayWord (8 * p + o / 0x40) (o % 0x40) else 0)
  else if 0x10 ≤ blk ∧ (off - 0x1000000) / 0x4000 < 16 then d.cairnWord (16 * p + (off - 0x1000000) / 0x4000) (off % 0x4000)
  else 0

/-- 4 or 8 bytes of the MMIO window (R69, R428). -/
def Dev.mmioRead (d : Dev) (p off size : Nat) : Nat :=
  if size = 8 then d.mmioWord p off + 2 ^ 32 * d.mmioWord p (off + 4) else d.mmioWord p off

/-- Who writes a register (R11, R429). -/
inductive Party where
  | operator
  | installer
  | maker
deriving DecidableEq, Repr

/-- Parties that the Writer columns list for the status bits: "O, I" and "I, M". -/
def Party.oi (w : Party) : Bool := w != .maker
def Party.im (w : Party) : Bool := w != .operator

/-- Clear a status bit where the party may and the written value has a 1 at its place (R9). -/
def w1c (may : Bool) (v bit : Nat) (cur : Bool) : Bool := cur && !(may && v.testBit bit)

/-- Write-1-to-clear fields of the Device block (R68, R94, R313, R432, R562). -/
def Dev.clearDevice (d : Dev) (p o v : Nat) (w : Party) : Dev :=
  if o = 0x00C then { d with bed.failoverSeen := w1c (w == .installer) v 7 d.bed.failoverSeen }
  else if o = 0x204 then { d with beat.lossSeen := w1c w.oi v 17 d.beat.lossSeen }
  else if o = 0x230 then { d with mirror.regs.mismatchSeen := w1c (w == .installer) v 7 d.mirror.regs.mismatchSeen }
  else if o = 0x400 then d.modSeam p (fun s => { s with slipSeen := w1c w.oi v 12 s.slipSeen })
  else if o = 0x41C then d.modScrub p (fun s => { s with late := w1c w.oi v 7 s.late })
  else d

/-- Write-1-to-clear fields of a slab (R132, R185, R200, R236). -/
def SlabRegs.clear (g : SlabRegs) (o v : Nat) (may : Bool) : SlabRegs :=
  if o = 0x00 then { g with poisonSeen := w1c may v 12 g.poisonSeen }
  else if o = 0x0C then { g with ovfSeen := w1c may v 0 g.ovfSeen, nanSeen := w1c may v 1 g.nanSeen, eccSeen := w1c may v 2 g.eccSeen,
                                 topkBad := w1c may v 3 g.topkBad }
  else if o = 0x10 then { g with streakPoison := w1c may v 3 g.streakPoison }
  else if o = 0x14 then { g with fifoUnder := w1c may v 12 g.fifoUnder, fifoOver := w1c may v 13 g.fifoOver }
  else g

/-- Write-1-to-clear fields of a cluster and its pebbles (R280, R284). -/
def Dev.clearCluster (d : Dev) (k o v : Nat) (may : Bool) : Dev :=
  if o = 0 then d.modCluster k (fun c => { c with fifoUnder := w1c may v 20 c.fifoUnder, fifoOver := w1c may v 21 c.fifoOver })
  else if 0x100 ≤ o ∧ o < 0x300 ∧ o % 0x40 = 0 then
    d.modPebble (8 * k + (o - 0x100) / 0x40) (fun g => { g with poisonSeen := w1c may v 12 g.poisonSeen })
  else d

/-- Write-1-to-clear fields of LinkStatus (R420). -/
def LinkRegs.clear (g : LinkRegs) (v : Nat) (may : Bool) : LinkRegs :=
  { g with degradedSeen := w1c may v 17 g.degradedSeen, downgradeSeen := w1c may v 18 g.downgradeSeen, mismatchSeen := w1c may v 19 g.mismatchSeen }

/-- RoutedDepth.MAXIMUM (R376): each 1 written clears its bit, and the field then takes the greater of its value and CURRENT. -/
def PortCount.clear (c : PortCount) (v : Nat) : PortCount :=
  let kept := (upTo 6).foldl (fun m i => if c.maxDepth.testBit i && !v.testBit (8 + i) then m + 2 ^ i else m) 0
  { c with maxDepth := max kept c.depth }

/-- Write-1-to-clear fields of a router, an HBM stack, a cairn tile and an Assay unit (R310, R346, R376, R585). -/
def Dev.clearRouter (d : Dev) (r o v : Nat) (may : Bool) : Dev :=
  if may ∧ o < 0x700 ∧ o % 0x100 < 0x80 ∧ o % 0x20 = 0x10 then
    d.modPortCnt ((r * 8 + o / 0x100) * 4 + o % 0x100 / 0x20) (fun c => c.clear v)
  else d
def CairnTile.clear (t : CairnTile) (v : Nat) (may : Bool) : CairnTile :=
  { t with rangeSeen := w1c may v 0 t.rangeSeen, timeoutSeen := w1c may v 1 t.timeoutSeen, signalLost := w1c may v 2 t.signalLost,
           setSeen := w1c may v 3 t.setSeen }
def Assay.clear (a : Assay) (v : Nat) (may : Bool) : Assay :=
  { a with mismatchSeen := w1c may v 2 a.mismatchSeen, poisonSeen := w1c may v 3 a.poisonSeen }

/-- A 32-bit register write in the MMIO window of a die (R9 to R11, R13): the write-1-to-clear fields the party may write; every other field keeps its
value. AssayFeed, which acts on what is written, has commands of its own. -/
def Dev.mmioWrite32 (d : Dev) (p off v : Nat) (w : Party) : Dev :=
  let blk := off / 0x100000
  let o := off % 0x100000
  if blk = 0 then d.clearDevice p o v w
  else if blk = 1 then (if o / 0x1000 < 8 then d.modSlab (8 * p + o / 0x1000) (fun s => { s with regs := s.regs.clear (o % 0x1000) v w.oi }) else d)
  else if blk = 2 then (if o / 0x1000 < 8 then d.clearCluster (8 * p + o / 0x1000) (o % 0x1000) v w.oi else d)
  else if blk = 3 then
    (if o < 0x40 then d.modChan (16 * p + o / 4) (fun c =>
       { c with timeoutSeen := w1c w.oi v 19 c.timeoutSeen, lateSeen := w1c w.oi v 20 c.lateSeen }) else d)
  else if blk = 4 then
    (if o / 0x100 < 20 ∧ o % 0x100 = 4 then d.modLink (o / 0x100) (fun l => { l with regs := l.regs.clear v w.oi }) else d)
  else if blk = 5 then
    (if 0x100 ≤ o ∧ o < 0x114 then d.modStack (5 * p + (o - 0x100) / 4) (fun s => { s with lostWrites := w1c w.oi v 23 s.lostWrites }) else d)
  else if blk = 7 then (if o / 0x1000 < 32 then d.clearRouter (256 * p + o / 0x1000) (o % 0x1000) v w.oi else d)
  else if blk = 8 then (if o / 0x40 < 8 ∧ o % 0x40 = 0 then d.modAssay (8 * p + o / 0x40) (fun a => a.clear v w.im) else d)
  else if 0x10 ≤ blk ∧ (off - 0x1000000) / 0x4000 < 16 ∧ off % 0x4000 = 0x1000 then
    d.modCairnTile (16 * p + (off - 0x1000000) / 0x4000) (fun t => t.clear v w.oi)
  else d

/-- A register write of 4 or 8 bytes in the MMIO window. -/
def Dev.mmioWrite (d : Dev) (p off size v : Nat) (w : Party) : Dev :=
  if size = 8 then (d.mmioWrite32 p off (fld v 0 32) w).mmioWrite32 p (off + 4) (fld v 32 32) w else d.mmioWrite32 p off (fld v 0 32) w

/-- Halves whose units an MMIO offset of a die belongs to, and whether the Device block holds it (R484): none where it is neither. -/
def mmioHalf (p off : Nat) : Option Nat :=
  let blk := off / 0x100000
  let o := off % 0x100000
  if blk = 1 ∨ blk = 2 then (if o / 0x1000 < 8 then some (2 * p + o / 0x4000) else none)
  else if blk = 7 then (if o / 0x1000 < 32 then some (2 * p + o / 0x10000) else none)
  else if 0x10 ≤ blk ∧ (off - 0x1000000) / 0x4000 < 16 then some (2 * p + (off - 0x1000000) / 0x4000 % 8 / 4)
  else none

end Sys2Proof.Machine
end

