-- ==== Sys2Proof/Machine/Mbx.lean ====
section
/-! DEFINITION. How Bedrock serves a mailbox command: the checks of R448 and R449, sessions (R466, R477 to R479), the audit record (R455, R481,
R482), the configuration store (R529) and the completion (R441, R443, R446). Each command gives its own checks and effect. -/

namespace Sys2Proof

open Sys2Proof.Machine

/-- Fields of a descriptor (R445). -/
def MbxCmd.opcode (c : MbxCmd) : Nat := leAt c.desc 0 2
def MbxCmd.irq (c : MbxCmd) : Bool := (leAt c.desc 2 1).testBit 0
def MbxCmd.tag (c : MbxCmd) : Nat := leAt c.desc 4 2
def MbxCmd.part (c : MbxCmd) : Nat := leAt c.desc 6 1
def MbxCmd.bufAddr (c : MbxCmd) : Nat := leAt c.desc 8 8
def MbxCmd.bufLen (c : MbxCmd) : Nat := leAt c.desc 16 4
def MbxCmd.seq (c : MbxCmd) : Nat := leAt c.desc 20 4
def MbxCmd.a0 (c : MbxCmd) : Nat := leAt c.desc 24 8
def MbxCmd.a1 (c : MbxCmd) : Nat := leAt c.desc 32 8
def MbxCmd.a2 (c : MbxCmd) : Nat := leAt c.desc 40 8
def MbxCmd.session (c : MbxCmd) : Nat := leAt c.desc 48 4
def MbxCmd.auth (c : MbxCmd) : List Byte := slice c.desc 52 12

end Sys2Proof

namespace Sys2Proof.Machine

/-- What a completion tells (R446), the data written to the buffer, and whether the command goes on and completes later. -/
structure Reply where
  status : Nat := 0
  detail : Nat := 0
  r0 : Nat := 0
  r1 : Nat := 0
  out : List Byte := []
  waits : Bool := false

/-- An accepted command: OLD and NEW of its audit record (R481), and its effect. -/
structure Plan where
  old : List Byte := []
  new : List Byte := []
  effect : Dev → Dev × Reply

/-- The answer of a command's own checks. -/
inductive Verdict where
  | no (r : Reply)
  | go (p : Plan)

/-- A failing check, with its status and DETAIL (R447). -/
def reject (status detail : Nat) : Verdict := .no { status := status, detail := detail }

/-- DETAIL of a conflict with a job or a state (R447). -/
def detailState : Nat := 0xFFFFFFFF

/-- A command row: its code, the roles that may issue it (bit 0 O, 1 I, 2 M), the bits of A0 to A2 that have a meaning, whether it reads a buffer,
whether it only reads (R449, R455), whether it writes its
audit record only when it ends (R375), the targets it holds while it executes (R449), and its checks and effect (R451). -/
structure MbxSpec where
  opcode : Nat
  roles : Nat
  m0 : Nat := 0
  m1 : Nat := 0
  m2 : Nat := 0
  inBuf : Bool := false
  reads : Bool := false
  auditsLate : Bool := false
  targets : MbxCmd → List Nat := fun _ => []
  run : MbxCmd → Dev → Verdict

/-- Targets of R449 as numbers: a partition, a port, a table, a stack, a rail, a firmware bank, a unit. -/
def tgtPart (n : Nat) : Nat := n
def tgtPort (n : Nat) : Nat := 0x100 + n
def tgtTable (n : Nat) : Nat := 0x200 + n
def tgtStack (n : Nat) : Nat := 0x300 + n
def tgtRail (n : Nat) : Nat := 0x400 + n
def tgtBank (n : Nat) : Nat := 0x500 + n
def tgtUnit (a0 : Nat) : Nat := 0x1000000 + a0 % 2 ^ 24

/-- Bytes of a SHA-384 or HMAC value, the first byte highest. -/
def hashBytes (h : BitVec 384) : List Byte := (natLe 48 h.toNat).reverse

/-- The partition that holds a ring by grant (R464). -/
def Dev.granted (d : Dev) (ring : Nat) : Option Nat := (upTo 8).find? (fun n => (d.getPart n).live && (d.getPart n).rings.testBit ring)

/-- The role bit of a ring. -/
def ringRole (ring : Nat) : Nat := if ring < 64 then 0 else if ring = 64 then 1 else 2

/-- The session of a ring's role (R479). -/
def Dev.ringSession (d : Dev) (ring : Nat) : Session := if ring = 64 then d.sec.installer else d.sec.maker
def Dev.setSession (d : Dev) (ring : Nat) (s : Session) : Dev :=
  if ring = 64 then { d with sec.installer := s } else { d with sec.maker := s }

/-- Ring 65 cannot run without a Maker session: it is DEAD once its executing command has ended (R444). -/
def Dev.ring65 (d : Dev) : Dev :=
  d.modRing 65 (fun r =>
    if d.sec.maker.isOpen then (if r.state = 3 then { r with state := 0 } else r)
    else if r.executing then { r with disabling := true } else { r with state := 3, enable := false, disabling := false })

/-- A session closes (R444, R479): 64 the Installer's, 65 the Maker's. -/
def Dev.closeSession (d : Dev) (ring : Nat) : Dev :=
  let d := d.setSession ring Session.closed
  if ring = 65 then d.ring65 else d

/-- AUTH matches (R477). -/
def authOk (c : MbxCmd) (key : List Byte) (inBuf : Bool) : Bool :=
  let msg := c.desc.take 52 ++ natLe 1 c.ring ++ (if inBuf then hashBytes (Config.sha384 c.buffer) else [])
  c.auth == (hashBytes (Config.hmac384 key msg)).take 12

/-- A descriptor that fails its session check (R478): 16 in a row on one session close it. -/
def Dev.sessionFails (d : Dev) (ring : Nat) : Dev :=
  let s := d.ringSession ring
  if 16 ≤ s.fails + 1 then d.closeSession ring else d.setSession ring { s with fails := s.fails + 1 }

/-- Step 2 of R448 on rings 64 and 65 (R466, R477, R478). -/
def Dev.checkSession (d : Dev) (sp : MbxSpec) (c : MbxCmd) : Option Reply × Dev :=
  let s := d.ringSession c.ring
  if sp.inBuf ∧ c.readFail.isSome then (some { status := stTimeout, detail := c.readFail.getD 0 }, d)
  else if !s.isOpen ∨ s.id ≠ c.session then (some { status := stDenied }, d)
  else if c.seq ≠ s.nextSeq ∨ ¬authOk c s.key sp.inBuf then (some { status := stDenied }, d.sessionFails c.ring)
  else (none, d.setSession c.ring { s with nextSeq := wrapAdd 32 s.nextSeq 1, fails := 0, last := d.clock.wall })

/-- Step 2 of R448: role, partition and session. -/
def Dev.checkRole (d : Dev) (sp : MbxSpec) (c : MbxCmd) : Option Reply × Dev :=
  if c.ring < 64 ∧ d.granted c.ring ≠ some c.part then (some { status := stDenied }, d)
  else if !sp.roles.testBit (ringRole c.ring) then (some { status := stDenied }, d)
  else if c.ring < 64 ∨ sp.opcode = 0x0002 then (none, d)
  else d.checkSession sp c

/-- Byte offset of the reserved run of a parameter word that holds its lowest offending bit. -/
def reservedRun (mask bad : Nat) : Nat :=
  let b := lowBit 64 bad
  ((upTo (b + 1)).find? (fun s => (upTo (b + 1 - s)).all (fun i => !mask.testBit (s + i)))).getD b / 8

/-- Offset of the lowest nonzero reserved field (R13, R445, R448 step 3). -/
def reservedOf (c : MbxCmd) (sp : MbxSpec) : Option Nat :=
  let plain : Bool := decide (c.ring < 64) || sp.opcode == 0x0002
  let word := fun (i v mask : Nat) =>
    let bad := v - (v &&& mask)
    if bad = 0 then [] else [24 + 8 * i + reservedRun mask bad]
  let field := fun (off n : Nat) => if leAt c.desc off n = 0 then [] else [off]
  ((if leAt c.desc 2 1 < 2 then [] else [2]) ++ field 3 1 ++ field 7 1 ++ (if plain then field 20 4 else [])
    ++ word 0 c.a0 sp.m0 ++ word 1 c.a1 sp.m1 ++ word 2 c.a2 sp.m2
    ++ (if plain then field 48 4 ++ field 52 12 else [])).head?

/-- A command fetched from another ring still executes on a target of this one (R449). A JOB_STOP that waits for a drain stands for the drain, which
R554 answers. -/
def Dev.conflictRing (d : Dev) (sp : MbxSpec) (c : MbxCmd) : Option Nat :=
  let mine := sp.targets c
  (d.host.waiting.find? (fun w => w.ring != c.ring && w.targets.any mine.contains
    && !(w.opcode == 0x0022 && (d.getPart w.partition).draining))).map (·.ring)

/-! ## Audit records and the configuration store -/

/-- The bytes of a value, or the first 12 bytes of its hash, and whether it was hashed (R481). -/
def auditValue (bs : List Byte) : List Byte × Bool :=
  if bs.length ≤ 12 then (padTo 12 bs, false) else ((hashBytes (Config.sha384 bs)).take 12, true)

/-- Write an audit record (R455, R481, R482) and raise EV_AUDIT: role 1 Installer, 2 Maker, 3 Bedrock. -/
def Dev.audit (d : Dev) (role session opcode ring target : Nat) (old new : List Byte) : Dev :=
  let o := auditValue old
  let n := auditValue new
  let head := natLe 4 d.sec.auditSeq ++ natLe 7 d.beat.number ++ natLe 1 (role + 4 * b2n o.2 + 8 * b2n n.2) ++ natLe 8 d.wallTime
    ++ natLe 4 session ++ natLe 2 opcode ++ natLe 1 ring ++ natLe 1 0 ++ natLe 4 target ++ o.1 ++ n.1
  let prev := if d.sec.auditLast.isEmpty then List.replicate 64 (0 : Byte) else d.sec.auditLast
  let record := head ++ (hashBytes (Config.sha384 (prev ++ head))).take 8
  let full := decide (65536 ≤ d.flash.auditBytes.length)
  let seq := d.sec.auditSeq
  let d := { d with sec.auditSeq := wrapAdd 32 seq 1, sec.auditLast := record
                    flash.auditBytes := (if full then d.flash.auditBytes.drop 64 else d.flash.auditBytes) ++ [record]
                    flash.auditBase := if full then d.flash.auditBase + 64 else d.flash.auditBase }
  d.raise { code := 0x0803, sev := 0, index := opcode, valueA := seq }

/-- What a partition keeps in the configuration store: its definition, without image and job (R529). -/
def Part.definition (p : Part) : Part := { live := p.live, halves := p.halves, channels := p.channels, rings := p.rings }

/-- The register value of LinkConfig (R419). -/
def LinkRegs.config (g : LinkRegs) : Nat := bf [(0, 1, b2n g.enable), (1, 2, g.maxWidth), (3, 1, b2n g.mate), (4, 1, b2n g.autoRetry)]

/-- The settings of a guarantee, without its measurements. -/
def Guarantee.setting (g : Guarantee) : Guarantee :=
  match g.pend with
  | some (rank, v1, v2) => { rank := rank, v1 := v1, v2 := v2 }
  | none => { rank := g.rank, v1 := g.v1, v2 := g.v2 }

/-- A table with each value replaced, in canonical form. -/
def tabMap {α : Type} [DecidableEq α] (dflt : α) (f : α → α) (t : List (Nat × α)) : List (Nat × α) :=
  t.foldl (fun r x => tabSet dflt x.1 (f x.2) r) []

/-- ScrubConfig of a die as set, pending or in force (R312). -/
def Dev.scrubSetting (d : Dev) (p : Nat) : Nat :=
  match (d.getScrub p).pending with
  | some (a, b, c, e) => bf [(0, 8, a), (8, 10, b), (18, 1, b2n c), (19, 1, b2n e)]
  | none => d.scrubConfigReg p

/-- The configuration that the store takes (R529), with what waits for a control step counted as set (R502). -/
def Dev.configNow (d : Dev) : ConfigStore :=
  let e := Dev.each d.pow.pend Dev.applyPolicy d
  { parts := tabMap {} Part.definition d.parts, regions := d.mem.regions
    beatRole := d.beat.role, beatSource := d.beat.source, beatHoldCap := d.beat.holdCap, beatDomain := d.beat.domain
    beatMaskVein := d.beat.maskVein, beatMaskD2d := d.beat.maskD2d
    links := (upTo 16).map (fun n => (n, (d.getLink n).regs.config))
    selfDevice := d.fab.selfDevice, selfValid := d.fab.selfValid, fabParts := d.fab.parts, device := d.fab.device, locals := d.fab.locals
    reduce := d.fab.reduce, tree := d.barr.tree, windows := d.host.windows
    capW := e.pow.capW, order := e.pow.order, slope := e.pow.slope, floor := e.pow.floor, deepIdle := e.idle.enabled
    gravel := (upTo 32).map (fun s => (s, (e.getSlab s).regs.gravelEn)), scrub := (upTo 4).map (fun p => (p, d.scrubSetting p))
    points := d.pow.points, guar := tabMap {} Guarantee.setting d.powu.guar
    mirror := { mode := d.mirror.regs.mode, side := d.mirror.regs.side, partition := d.mirror.regs.partition, interval := d.mirror.regs.interval,
                peerUid := d.mirror.regs.peerUid, ranges := d.mirror.regs.ranges } }

/-- Write the configuration store with its two-copy commit (R529, R550). -/
def Dev.saveConfig (d : Dev) : Dev := { d with flash.config := some d.configNow, flash.configRec := d.flash.configRec.commit }

/-- Codes of the commands that write the configuration store (R529). -/
def storesConfig (opcode : Nat) : Bool :=
  [0x0010, 0x0011, 0x0030, 0x0031, 0x0032, 0x0033, 0x0040, 0x0041, 0x0042, 0x0080].contains opcode

/-! ## Completions -/

/-- PCIe function and vector of a ring (R434). -/
def ringVector (ring : Nat) : Nat × Nat := if ring = 64 then (0, 0) else if ring = 65 then (0, 1) else (ring / 4 + 1, ring % 4)

/-- The ring can still take an entry (R443): it runs, or it ends its executing command, or it stopped for another reason than a failed write. -/
def Ring.takes (r : Ring) : Bool := r.state == 1 || (r.state == 2 && r.errCause != 4 && r.executing)

/-- Entries of a completion ring, and how many are free (R437, R440). -/
def Ring.cplSize (r : Ring) : Nat := 2 * 2 ^ r.sizeLog2
def Ring.hasRoom (r : Ring) : Bool := decide ((r.cplTail + 2 ^ 16 - r.cplHead) % r.cplSize < r.cplSize - 1)

/-- The 32 bytes of a completion entry (R446). -/
def cplEntry (opcode status flags tag head beat : Nat) (r : Reply) : List Byte :=
  natLe 2 opcode ++ natLe 1 status ++ natLe 1 flags ++ natLe 2 tag ++ natLe 2 head ++ natLe 8 r.r0 ++ natLe 8 r.r1 ++ natLe 4 r.detail
    ++ natLe 4 (beat % 2 ^ 32)

/-- Write an entry at CPL_TAIL, advance it, and send the vector (R434, R441). -/
def Dev.postEntry (d : Dev) (ring opcode flags tag head : Nat) (irq : Bool) (r : Reply) : Dev :=
  let q := d.getRing ring
  let t := (q.cplTail + 1) % q.cplSize
  let bytes := cplEntry opcode r.status (flags + b2n q.phase) tag head d.beat.number r
  let d := (d.modRing ring (fun q => { q with cplTail := t, phase := if t = 0 then !q.phase else q.phase })).emit
    (.hostWrite (q.cplBase + 32 * q.cplTail) bytes)
  if irq then d.emit (.msix q.boundPort (ringVector ring).1 (ringVector ring).2) else d

/-- The executing command of a ring has ended (R443, R444). -/
def Dev.ringDone (d : Dev) (ring : Nat) : Dev :=
  d.modRing ring (fun q =>
    if q.disabling then
      { q with executing := false, disabling := false, discard := false
               state := if q.state = 2 then 2 else if ring = 65 ∧ !d.sec.maker.isOpen then 3 else 0 }
    else { q with executing := false, discard := false })

/-- A command completes (R441, R442, R443): results before the entry, the entry where the ring can take it and does not discard it (R427). -/
def Dev.completeCmd (d : Dev) (ring opcode tag head : Nat) (irq audited cplFails : Bool) (bufAddr : Nat) (r : Reply) : Dev :=
  let q := d.getRing ring
  let d :=
    if q.discard ∨ !q.takes then d
    else
      let d := if r.out.isEmpty then d else d.emit (.hostWrite bufAddr r.out)
      if cplFails then d.modRing ring (fun q => { q with state := 2, errCause := 4 })
      else d.postEntry ring opcode (4 * b2n audited) tag head irq r
  d.ringDone ring

/-- Complete a command as it was fetched. -/
def Dev.finish (d : Dev) (c : MbxCmd) (audited : Bool) (r : Reply) : Dev :=
  d.completeCmd c.ring c.opcode c.tag (d.getRing c.ring).head c.irq audited c.cplFails c.bufAddr r

/-- Complete a command that was waiting for its own event; the configuration store is written first (R529). -/
def Dev.completeLate (d : Dev) (w : Waiting) (r : Reply) : Dev :=
  let d := if w.ring = 64 ∧ storesConfig w.opcode ∧ r.status = stOk then d.saveConfig else d
  ({ d with host.waiting := d.host.waiting.filter (fun x => !(x == w)) }).completeCmd w.ring w.opcode w.tag w.headAfter w.irq w.audited false 0 r

/-- Complete every waiting command that a test picks. -/
def Dev.completeAll (d : Dev) (pick : Waiting → Bool) (r : Waiting → Reply) : Dev :=
  Dev.each (d.host.waiting.filter pick) (fun d w => d.completeLate w (r w)) d

/-! ## One command from check to completion -/

/-- The command goes on: it waits for its own event (R451). -/
def Dev.hold_ (d : Dev) (sp : MbxSpec) (c : MbxCmd) (audited : Bool) : Dev :=
  let w : Waiting := { ring := c.ring, opcode := c.opcode, tag := c.tag, irq := c.irq, audited := audited, headAfter := (d.getRing c.ring).head
                       partition := c.part, a0 := c.a0, a1 := c.a1, a2 := c.a2, targets := sp.targets c, session := c.session, since := d.clock.wall }
  ({ d with host.waiting := d.host.waiting ++ [w] }).modRing c.ring (fun q => { q with executing := true })

/-- The effect of an accepted command, the configuration store and the completion. -/
def Dev.commit (d : Dev) (sp : MbxSpec) (c : MbxCmd) (audited : Bool) (p : Plan) : Dev :=
  let (d, r) := p.effect d
  if r.waits then d.hold_ sp c audited
  else (if c.ring = 64 ∧ storesConfig c.opcode ∧ r.status = stOk then d.saveConfig else d).finish c audited r

/-- An accepted command is audited first, on rings 64 and 65 and unless it only reads (R455). -/
def Dev.accept (d : Dev) (sp : MbxSpec) (c : MbxCmd) (p : Plan) : Dev :=
  if c.ring < 64 ∨ sp.reads then d.commit sp c false p
  else if c.auditFails then d.finish c false { status := stInternal, detail := 2 }
  else if sp.auditsLate then d.commit sp c true p
  else
    let session := if sp.opcode = 0x0002 then 0 else c.session
    let new := if sp.inBuf then c.buffer else p.new
    (d.audit (if c.ring = 64 then 1 else 2) session c.opcode c.ring (c.a0 % 2 ^ 32) p.old new).commit sp c true p

/-- Steps 3 and 4 of R448, R449 and R450. -/
def Dev.checkRest (d : Dev) (sp : MbxSpec) (c : MbxCmd) : Dev :=
  match reservedOf c sp with
  | some off => d.finish c false { status := stBad, detail := off }
  | none =>
    match (if sp.reads then none else d.conflictRing sp c) with
    | some r => d.finish c false { status := stConflict, detail := r }
    | none =>
      if sp.inBuf ∧ c.readFail.isSome then d.finish c false { status := stTimeout, detail := c.readFail.getD 0 }
      else
        match sp.run c d with
        | .no r => d.finish c false r
        | .go p => d.accept sp c p

/-- One command on its ring, which executes it from the checks of R448 to the completion. -/
def Dev.runMbx (d : Dev) (sp : MbxSpec) (c : MbxCmd) : Dev :=
  match (d.modRing c.ring (fun q => { q with executing := true })).checkRole sp c with
  | (some r, d) => d.finish c false r
  | (none, d) => d.checkRest sp c

/-- Bedrock serves rings: the device is Ready, mailbox service is not paused, and no FW_ACTIVATE lets executing commands end (R457, R462, R533, R563). In test
mode ring service has stopped (R588). -/
def Dev.serving (d : Dev) : Bool := d.bed.ready && !d.bed.paused && !d.pins.stopped && d.bed.fwPhase != 1 && !d.test.testMode

/-- Dies whose Bedrock a command needs (R457, R461): those of the partition, unit, port, stack, rail or address that it names. -/
def Dev.needsDies (d : Dev) (c : MbxCmd) : List Nat :=
  let ofHalves := fun (m : Nat) => (upTo 4).filter (fun p => fld m (2 * p) 2 != 0)
  let o := c.opcode
  if o = 0x0010 then ofHalves (fld c.a0 8 8)
  else if o = 0x0011 then ofHalves (d.getPart (fld c.a0 0 3)).halves
  else if o = 0x0020 ∨ o = 0x0021 ∨ o = 0x0022 then ofHalves (d.getPart c.part).halves
  else if o = 0x0031 then [fld c.a0 0 5 / 4]
  else if o = 0x0062 then [let i := fld c.a0 8 5; let k := fld c.a0 0 2; if k = 0 then i / 4 % 4 else if k = 1 then i / 5 else i / 2 % 4]
  else if o = 0x0070 ∨ o = 0x0071 ∨ o = 0x0072 then [fld c.a0 4 2]
  else if o = 0x0090 then [fld c.a0 0 2]
  else if o = 0x0091 then [fld c.a0 5 2]
  else if o = 0x00A1 ∨ o = 0x0050 then [c.a0 / 2 ^ 46 % 4]
  else if o = 0x0033 ∧ fld c.a0 0 2 ≠ 0 then [fld c.a0 2 2]
  else if o = 0x0033 ∨ o = 0x00A2 then upTo 4
  else []

/-- The command waits for a Bedrock that restarts (R461). -/
def Dev.mustPark (d : Dev) (c : MbxCmd) : Bool := (d.needsDies c).any (fun p => d.bed.subdieRestart.any (fun x => x.1 == p))
def Dev.park (d : Dev) (c : MbxCmd) : Dev := { d with host.parked := d.host.parked ++ [c] }.modRing c.ring (fun q => { q with executing := true })

/-- A row of the table for one command: the descriptor carries its code, Bedrock serves, and the ring executes nothing else (R440, log entry 40). -/
def mbxRow (sp : MbxSpec) (select : Option Nat) (c : MbxCmd) (d : Dev) : Dev :=
  let picked : Bool := match select with
    | some s => fld c.a0 0 4 == s
    | none => true
  d.gate (c.opcode == sp.opcode && picked && d.serving && decide (c.ring < 66) && !(d.getRing c.ring).executing) (fun d =>
    if d.mustPark c then d.park c else d.runMbx sp c)

/-- A command that returns data needs a buffer for it (R450). -/
def withBuf (c : MbxCmd) (n : Nat) (v : Verdict) : Verdict := if c.bufLen < n then reject stBad 16 else v

/-- A plan that always succeeds with results. -/
def plan (old new : List Byte) (f : Dev → Dev) (r0 r1 : Nat) : Verdict := .go { old := old, new := new, effect := fun d => (f d, { r0 := r0, r1 := r1 }) }

/-- The target partition of a command (R445): PARTITION must name a partition that exists, else BAD_FIELD at its byte. -/
def Dev.ofPart (d : Dev) (c : MbxCmd) (k : Nat → Verdict) : Verdict := if c.part < 8 ∧ (d.getPart c.part).live then k c.part else reject stBad 6

/-- Estimate in µs of what is left of a partition's drain (R554): the longest remaining timer of its unresolved signals and requests. -/
def Dev.drainEstimate (d : Dev) (n : Nat) : Nat :=
  let sig := (d.cairn.signals.filter (fun s => s.partition == n)).map (fun s => (s.limit - s.elapsed) * 17 / 25)
  let req := (d.fab.requests.filter (fun r => r.part == n)).map (fun r => (d.getPartFab n).timeoutUs - beatNs * (d.clock.wall - r.since) / 1000)
  min ((sig ++ req).foldl max 0) 0xFFFFFFFF

end Sys2Proof.Machine
end

