-- ==== Sys2Proof/Machine/MbxParts.lean ====
section
/-! DEFINITION. Mailbox commands on partitions and images: DEVICE_INFO, PARTITION_CREATE, PARTITION_DESTROY, IMAGE_LOAD (R296, R333, R451). -/

namespace Sys2Proof.Machine

/-- Version of the firmware that the primary Bedrock runs (R451, R470). -/
def Dev.activeVersion (d : Dev) : Nat := tabGet 0 d.bed.primary d.bed.fwVersion

/-- R451: DEVICE_INFO returns the vital page, VitalId and BedrockStatus. -/
def deviceInfoSpec : MbxSpec where
  opcode := 0x0001
  roles := 7
  reads := true
  run := fun c _ => withBuf c 4096 (.go { effect := fun d =>
    (d, { r0 := vitalId, r1 := d.bedrockStatus + 2 ^ 32 * d.activeVersion, out := d.vitalPage }) })
def execDeviceInfo (c : MbxCmd) (s : State) : Host.Outcome State Fault Refusal := s.live (mbxRow deviceInfoSpec none c)

/-! ## PARTITION_CREATE -/

/-- A region entry of the buffer (R451): die, STACKS, FIRST_BAND, BANDS, BASE, MODE. -/
structure RegionEntry where
  die : Nat
  stackBits : Nat
  first : Nat
  bands : Nat
  base : Nat
  mode : Nat

/-- Entry i of the buffer. -/
def regionEntry (buf : List Byte) (i : Nat) : RegionEntry :=
  ⟨leAt buf (16 * i) 1, leAt buf (16 * i + 1) 1, leAt buf (16 * i + 2) 1, leAt buf (16 * i + 3) 1, leAt buf (16 * i + 4) 2, leAt buf (16 * i + 6) 1⟩

/-- Bands that a die offers (R542). -/
def Dev.bandsOf (d : Dev) (die : Nat) : Nat := 64 - fld (tabGet 0 die d.fuses.variant).toNat 89 6

/-- The region that an entry makes for a partition. -/
def RegionEntry.region (e : RegionEntry) (n : Nat) : Region :=
  { valid := true, mode := e.mode, stackBits := e.stackBits, partition := n, base := e.base, firstBand := e.first, bands := e.bands }

/-- What an entry fails, with its status and DETAIL (R296). -/
def Dev.entryFail (d : Dev) (buf : List Byte) (i : Nat) : Option (Nat × Nat) :=
  let e := regionEntry buf i
  let at_ := fun (st off : Nat) => some (st, bufferDetail st (16 * i + off))
  let rest := (upTo 9).find? (fun k => leAt buf (16 * i + 7 + k) 1 != 0)
  if 3 < e.die then at_ stBad 0
  else if e.stackBits = 0 ∨ 31 < e.stackBits then at_ stBad 1
  else if 1 < e.mode then at_ stBad 6
  else if rest.isSome then at_ stBad (7 + rest.getD 0)
  else if 63 < e.first then at_ stRange 2
  else if e.bands = 0 then at_ stRange 3
  else if d.bandsOf e.die < e.first + e.bands then at_ stRange 2
  else if (upTo 5).any (fun m => e.stackBits.testBit m && !d.caps.stackOn (5 * e.die + m)) then some (stIncompatible, 0)
  else none

/-- Regions that exist on a die. -/
def Dev.regionsOn (d : Dev) (die : Nat) : List Region := ((upTo 16).map (fun n => d.getRegion (16 * die + n))).filter (·.valid)

/-- Two regions of a die share a band of a stack, or their windows overlap (R296). -/
def regionsClash (a b : Region) : Bool :=
  ((a.stackBits &&& b.stackBits != 0) && decide (a.firstBand < b.firstBand + b.bands) && decide (b.firstBand < a.firstBand + a.bands))
    || (decide (a.first < b.first + b.bytes) && decide (b.first < a.first + a.bytes))

/-- A region clashes with one of a list. -/
def clashesAny (r : Region) (l : List Region) : Bool := l.any (regionsClash r)

/-- New regions of a die clash with those there, among themselves, or reach past 512 GiB (R296). -/
def Dev.regionClash (d : Dev) (news : List Region) (die : Nat) : Bool :=
  let rec go : List Region → List Region → Bool
    | _, [] => false
    | have_, r :: rs => clashesAny r have_ || decide (2 ^ 39 < r.first + r.bytes) || go (r :: have_) rs
  go (d.regionsOn die) news

/-- The entries of a buffer for one die, as regions. -/
def newRegions (buf : List Byte) (count n die : Nat) : List Region :=
  (((upTo count).map (regionEntry buf)).filter (fun e => e.die == die)).map (fun e => e.region n)

/-- Channel mask of a partition on a die (R451). -/
def chanMask (channels die : Nat) : Nat := fld channels (16 * die) 16

/-- Masks overlap on a die that two partitions share (R333). -/
def Dev.masksClash (d : Dev) (halves channels : Nat) : Bool :=
  let mine : Part := { halves := halves }
  (upTo 8).any (fun m =>
    let p := d.getPart m
    p.live && (upTo 4).any (fun q => mine.dies.contains q && p.dies.contains q && (chanMask channels q &&& chanMask p.channels q) != 0))

/-- A half or a ring is held elsewhere (R451). -/
def Dev.heldElsewhere (d : Dev) (halves rings : Nat) : Bool :=
  (upTo 8).any (fun m => let p := d.getPart m; p.live && ((p.halves &&& halves) != 0 || (p.rings &&& rings) != 0))

/-- What PARTITION_CREATE fails: status and DETAIL. -/
def Dev.createFail (d : Dev) (c : MbxCmd) : Option (Nat × Nat) :=
  let count := fld c.a0 16 8
  let halves := fld c.a0 8 8
  let crowded := (upTo 4).any (fun q => decide (16 < (d.regionsOn q).length + (newRegions c.buffer count 0 q).length))
  if c.bufLen ≠ 16 * count then some (stBad, 16)
  else
    match (upTo count).findSome? (d.entryFail c.buffer) with
    | some f => some f
    | none =>
      if crowded then some (stNoResource, 0)
      else if (upTo 4).any (fun q => d.regionClash (newRegions c.buffer count 0 q) q) then some (stConflict, detailState)
      else if d.masksClash halves c.a1 then some (stConflict, detailState)
      else if d.heldElsewhere halves c.a2 then some (stConflict, detailState)
      else if (upTo 8).all (fun m => (d.getPart m).live) then some (stNoResource, 0)
      else if (d.getPart (fld c.a0 0 3)).live then some (stConflict, detailState)
      else none

/-- A region takes the lowest free number of its die (R309). -/
def Dev.addRegion (d : Dev) (n : Nat) (e : RegionEntry) : Dev :=
  match (upTo 16).find? (fun k => !(d.getRegion (16 * e.die + k)).valid) with
  | some k => d.modRegion (16 * e.die + k) (fun _ => e.region n)
  | none => d

/-- Halves, channels, rings and counters of a new partition (R333, R451, R516). -/
def Dev.createPart (d : Dev) (n halves channels rings : Nat) (filling : Bool) : Dev :=
  let p : Part := { live := true, halves := halves, channels := channels, rings := rings, filling := filling }
  let d := d.modPart n (fun _ => p)
  let d := Dev.each p.halfList (fun d h => d.modHalf h (fun x => { x with partition := some n })) d
  let d := Dev.each p.dies (fun d q => Dev.each ((upTo 16).filter (fun k => (chanMask channels q).testBit k)) (fun d k =>
    d.modChan (16 * q + k) (fun b => { b with assigned := true, partition := n })) d) d
  { d with pow.energy := tabSet 0 n 0 d.pow.energy, pow.gravel := tabSet 0 n 0 d.pow.gravel }

/-- R296: PARTITION_CREATE checks and creates; it completes when the fill of its regions has ended. -/
def partitionCreateSpec : MbxSpec where
  opcode := 0x0010
  roles := 2
  m0 := 0xFFFF07
  m1 := 2 ^ 64 - 1
  m2 := 2 ^ 64 - 1
  inBuf := true
  targets := fun c => [tgtPart (fld c.a0 0 3)]
  run := fun c d =>
    match d.createFail c with
    | some (st, detail) => reject st detail
    | none => .go { effect := fun d =>
        let n := fld c.a0 0 3
        let count := fld c.a0 16 8
        let d := Dev.each ((upTo count).map (regionEntry c.buffer)) (fun d e => d.addRegion n e) d
        (d.createPart n (fld c.a0 8 8) c.a1 c.a2 (decide (0 < count)), { waits := decide (0 < count) }) }
def execPartitionCreate (c : MbxCmd) (s : State) : Host.Outcome State Fault Refusal := s.live (mbxRow partitionCreateSpec none c)

/-- Regions of a partition, as 16p + n. -/
def Dev.regionsOf (d : Dev) (n : Nat) : List Nat := (upTo 64).filter (fun k => (d.getRegion k).valid && (d.getRegion k).partition == n)

/-- R296: the fill of the new regions ends: their words are zero with valid check bits, and PARTITION_CREATE completes. -/
def partitionFillDone (partition : Nat) (d : Dev) : Dev :=
  d.gate (d.getPart partition).filling (fun d =>
    let d := Dev.each (d.regionsOf partition) (fun d k =>
      let r := d.getRegion k
      { d with mem := d.mem.zero (k / 16 * 2 ^ 46 + r.first) r.bytes }) d
    let d := d.modPart partition (fun p => { p with filling := false })
    d.completeAll (fun w => w.opcode == 0x0010 && fld w.a0 0 3 == partition) (fun _ => {}))
def execPartitionFillDone (partition : Nat) (s : State) : Host.Outcome State Fault Refusal := s.live (partitionFillDone partition)

/-! ## PARTITION_DESTROY and IMAGE_LOAD -/

/-- Clear the SRAM of a half: its DPA memories and the memories inside its slabs and clusters (R451). -/
def Dev.clearSram (d : Dev) (half : Nat) : Dev :=
  let d := { d with mem := d.mem.zeroHalf half }
  Dev.each (unitsOfHalf half) (fun d k =>
    let d := (d.modSlab k (fun s => { s with mem := {} })).modCluster k (fun c => { c with descs := [], descErr := [], inFifo := [], outFifo := [] })
    Dev.each (upTo 8) (fun d q => d.modPebble (8 * k + q) (fun b => { b with imem := [], imemErr := [], codeWords := 0 })) d) d

/-- Everything a partition holds is free again (R451, R465). -/
def Dev.freePart (d : Dev) (n : Nat) : Dev :=
  let p := d.getPart n
  let d := ((d.keepNotice n).unbindAll n).dropMaps n []
  let d := (d.clearAllots n).clearSlots p.halves
  let d := Dev.each (d.regionsOf n) (fun d k => d.modRegion k (fun _ => {})) d
  let d := d.resetChannels n
  let d := Dev.each (upTo 64) (fun d k => if (d.getChan k).assigned ∧ (d.getChan k).partition = n then
    d.modChan k (fun b => { b with assigned := false, partition := 0 }) else d) d
  let d := Dev.each p.halfList (fun d h => (d.clearSram h).modHalf h (fun x => { x with partition := none })) d
  d.modPart n (fun _ => {})

/-- R451: PARTITION_DESTROY. -/
def partitionDestroySpec : MbxSpec where
  opcode := 0x0011
  roles := 2
  m0 := 7
  targets := fun c => [tgtPart (fld c.a0 0 3)]
  run := fun c d =>
    let n := fld c.a0 0 3
    let p := d.getPart n
    if !p.live then reject stBad 24
    else if p.running then reject stConflict detailState
    else if p.draining then reject stDraining (d.drainEstimate n)
    else plan [] [] (fun d => d.freePart n) 0 0
def execPartitionDestroy (c : MbxCmd) (s : State) : Host.Outcome State Fault Refusal := s.live (mbxRow partitionDestroySpec none c)

/-- RESULT1 where the header or the partition's state fails, in a step of R234 (R451). -/
def headResult1 (order : Nat) : Nat := 0xFFFFFFFF + 2 ^ 32 * order

/-- R234: IMAGE_LOAD checks an image and binds its contexts. -/
def imageLoadSpec : MbxSpec where
  opcode := 0x0020
  roles := 3
  inBuf := true
  targets := fun c => [tgtPart c.part]
  run := fun c d => d.ofPart c (fun n =>
    let p := d.getPart n
    if p.running then .no { status := stConflict, detail := detailState, r1 := headResult1 1 }
    else if p.draining then .no { status := stDraining, detail := d.drainEstimate n, r1 := headResult1 1 }
    else match d.imageFail n c.buffer with
      | some f => .no { status := f.status, detail := f.detail, r1 := f.result1 }
      | none => plan [] [] (fun d => d.loadImage n c.buffer) 0 0)
def execImageLoad (c : MbxCmd) (s : State) : Host.Outcome State Fault Refusal := s.live (mbxRow imageLoadSpec none c)

end Sys2Proof.Machine
end

