-- ==== Sys2Proof/Machine/MbxJobs.lean ====
section
/-! DEFINITION. Mailbox commands on jobs (R29, R35, R36, R41, R53, R93, R233, R416, R451, R453, R454, R493, R500, R556, R588). -/

namespace Sys2Proof.Machine

/-- Halves of a partition whose frequency is not the one its image starts with. -/
def Dev.halvesToMove (d : Dev) (n freq : Nat) : List Nat := (d.getPart n).halfList.filter (fun h => (d.getHalf h).freq != freq)

/-- Ask the Seam of every die of a partition for a frequency change (R89). -/
def Dev.askFrequency (d : Dev) (n freq : Nat) : Dev :=
  let move := d.halvesToMove n freq
  Dev.each (d.getPart n).dies (fun d p =>
    let want := fun h => if move.contains h then some freq else none
    if want (2 * p) = none ∧ want (2 * p + 1) = none then d
    else d.modSeam p (fun s => { s with queue := s.queue ++ [⟨want (2 * p), want (2 * p + 1)⟩] })) d

/-- Width in lanes that an allotment's port is trained to, and the slots it then has (R40, R41). -/
def Dev.portSlots (d : Dev) (n : Nat) : Nat := 40 * (if (d.getLink n).regs.state = 3 then (d.getLink n).regs.width else 0)

/-- A port of the image is too narrow (R41). -/
def Dev.tooNarrow (d : Dev) (i : Image) : Bool := i.allots.any (fun a => decide (d.portSlots a.port ≤ a.highest))

/-- A port of a lockstep image carries no scheduled traffic, or releases earlier than its flits arrive (R416). -/
def Dev.badRelease (d : Dev) (i : Image) : Bool :=
  i.allots.any (fun a => !(d.getLink a.port).regs.schedOk
    || (portEnds a.port).any (fun e =>
      decide (8 * (if rxDir e = 0 then a.release0 else a.release1) < tabGet 0 (linkReg e) d.beat.latency + 512)))

/-- A point that the image names is absent, or carries another frequency or, in lockstep, another cap than 16 (R233, R500). -/
def Dev.badPoints (d : Dev) (i : Image) : Bool :=
  i.oppoints.any (fun e =>
    match d.pow.points.find? (fun x => x.1 == e.point) with
    | some x => x.2.freq != e.freq || (i.lockstep && x.2.cap != 16)
    | none => true)

/-- A frequency of the image is above the FMAX of a half (R493). -/
def Dev.tooFast (p : Part) (i : Image) : Bool :=
  (i.freq :: i.oppoints.map (·.freq)).any (fun f => p.halfList.any (fun h => decide (Config.fmax h < f)))

/-- First start beat a lockstep job may name (R29, R36). -/
def Dev.earliestStart (d : Dev) : Nat := d.beat.number + (if d.idle.phase = 0 then 16 else 144)

/-- The partition is mirrored in LOCKSTEP and both sides give its JOB_START (R556, R561): the pair stands, or this side has resynced, as the source in
SOLO after a clean pass or as the side that yielded or rejoined. -/
def Dev.pairedJob (d : Dev) (n : Nat) : Bool :=
  let m := d.mirror.regs
  m.mode == 1 && m.partition == n
  && (m.state == 3 || m.state == 6 || (m.state == 2 && m.dirty.isEmpty) || (m.state == 4 && d.mirror.copying && m.dirty.isEmpty))

/-- What JOB_START fails apart from its start beat: status and DETAIL. -/
def Dev.startFail (d : Dev) (n : Nat) : Option (Nat × Nat) :=
  let p := d.getPart n
  if p.running then some (stConflict, detailState)
  else if p.draining then some (stDraining, d.drainEstimate n)
  else
    match p.image with
    | none => some (stNotReady, 0)
    | some i =>
      if p.filling ∨ p.pebs.any (fun b => (d.getPebble b).needImage) = true then some (stNotReady, 0)
      else if d.sec.debugScope.testBit 0 ∨ d.sec.debugScope.testBit 2 then some (stConflict, detailState)
      else if i.lockstep ∧ d.beat.state ≠ bsLocked ∧ d.beat.state ≠ bsMaster then some (stNotReady, 0)
      else if i.lockstep ∧ i.usesSeam ∧ p.dies.any (fun q => (d.getSeam q).mode != 0) = true then some (stNotReady, 0)
      else if d.tooNarrow i ∨ (i.lockstep ∧ d.badRelease i = true) then some (stIncompatible, 0)
      else if d.badPoints i ∨ Dev.tooFast p i then some (stIncompatible, 0)
      else none

/-- The device leaves deep idle (R29): an entry in progress completes first. -/
def Dev.wake (d : Dev) : Dev :=
  if d.idle.phase = 1 then { d with idle.exitAfter := true }
  else if d.idle.phase = 2 then { d with idle.phase := 3, idle.since := d.clock.wall, bed.deepIdle := false }
  else d

/-- A job is accepted (R35, R451, R454): RUNNING, waiting for its start beat and, outside lockstep, for the end of a deep-idle exit. -/
def Dev.acceptJob (d : Dev) (n start : Nat) (notify : Option Nat) : Dev :=
  let d := d.keepNotice n
  match (d.getPart n).image with
  | none => d
  | some i =>
    let job : Job := { state := 2, lockstep := i.lockstep, byHand := (d.getPart n).job.byHand, beat := start, startBeat := start, waitStart := true
                       waitExit := !i.lockstep && d.idle.phase != 0, notify := notify }
    (d.modPart n (fun p => { p with job := job })).askFrequency n i.freq

/-- The job starts on this command: at once, or, in a mirrored LOCKSTEP pair, once the peer's record agrees (R556). -/
def Dev.startJob (d : Dev) (n start : Nat) (notify : Option Nat) : Dev × Reply :=
  let check := match (d.getPart n).image with | some i => i.check | none => 0
  if d.pairedJob n then
    let d := { d with mirror.ownStart := some (check, start) }.emit (.mate 1 [check, start])
    match d.mirror.peerStart with
    | none => (d, { r0 := start, waits := true })
    | some q =>
      let d := { d with mirror.ownStart := none, mirror.peerStart := none }
      if q = (check, start) then ((d.wake.acceptJob n start notify), { r0 := start }) else (d, { status := stIncompatible })
  else
    let d := (d.acceptJob n start notify).wake
    (d, { r0 := start, waits := (d.getPart n).job.waitExit })

/-- R36: JOB_START. -/
def jobStartSpec : MbxSpec where
  opcode := 0x0021
  roles := 3
  m0 := 2 ^ 56 - 1
  m1 := 1
  targets := fun c => [tgtPart c.part]
  run := fun c d => d.ofPart c (fun n =>
    match d.startFail n with
    | some (st, detail) => reject st detail
    | none =>
      let notify := if c.a1.testBit 0 then some c.ring else none
      let lock : Bool := match (d.getPart n).image with | some i => i.lockstep | none => false
      if lock ∧ c.a0 < d.earliestStart then
        if d.idle.phase = 0 then reject stRange 24
        else .go { effect := fun d => ({ d.wake with idle.awakeUntil := d.clock.wall + 4096 }, { status := stRange, detail := 24 }) }
      else .go { effect := fun d => d.startJob n (if lock then c.a0 else d.beat.number) notify })
def execJobStart (c : MbxCmd) (s : State) : Host.Outcome State Fault Refusal := s.live (mbxRow jobStartSpec none c)

/-! ## Job beat 0 -/

/-- A slab context at job beat 0 (R155, R203). -/
def SCtx.begin (c : SCtx) : SCtx :=
  { c with started := true, ended := false, endDone := false, stopped := false, pc := 0, loops := [], baseVal := [], baseStride := []
           lfsr := c.seed, waitReg := false, waitSat := none, arrived := false, lastDispatch := none }

/-- A slab at job beat 0 (R203, R505): queues and FIFOs empty, channels idle, credits 0. -/
def Slab.begin (s : Slab) (t : Nat) : Slab :=
  { s with seq := { cur := t }, mem := { s.mem with outFifo := [], inFifo := [] }
           pow := { s.pow with passCredit := 0, streakCredit := 0, creditAt := t, activity := [], gravelAt := t } }

/-- A pebble context at job beat 0 (R238). -/
def PCtx.begin (c : PCtx) : PCtx := { state := 1, pc := c.entry, entry := c.entry, bound := true, lfsr := c.seed, seed := c.seed }

/-- A cluster at job beat 0. -/
def Cluster.begin (c : Cluster) (t : Nat) : Cluster := { c.stopWork with inFifo := [], outFifo := [], cur := t }

/-- Slabs, clusters and contexts of a half begin at a cycle. -/
def Dev.beginHalf (d : Dev) (h t : Nat) : Dev :=
  Dev.each (unitsOfHalf h) (fun d k =>
    let d := (d.modSlab k (fun s => s.begin t)).modCluster k (fun c => c.begin t)
    let d := Dev.each [2 * k, 2 * k + 1] (fun d x =>
      if (d.getSCtx x).bound then (d.modSCtx x SCtx.begin).registerHead x t else d) d
    Dev.each (upTo 8) (fun d q =>
      let b := 8 * k + q
      let d := d.modPebble b (fun p => { p with sfFree := 0, redFree := 0, nextIssue := t })
      Dev.each (upTo 4) (fun d x => if (d.getPCtx (4 * b + x)).bound then d.modPCtx (4 * b + x) PCtx.begin else d) d) d) d

/-- Cursors, prefetched deliveries and scheduled FIFOs of a partition begin afresh (R301, R414). -/
def Dev.beginMesh (d : Dev) (n : Nat) : Dev :=
  let p := d.getPart n
  let mine := fun (k : Nat) => p.halves.testBit (tHalf (k / 1024))
  let d := { d with mesh.cursors := tabMap {} id (d.mesh.cursors.map (fun x => if mine x.1 then (x.1, { x.2 with pos := 0 }) else x))
                    mesh.prefetch := d.mesh.prefetch.filter (fun x => !mine x.1) }
  Dev.each (upTo 24) (fun d e => d.modLink e (fun l =>
    if l.sched.allot.isSome ∧ l.sched.owner = n then { l with sched := { l.sched with outFifo := [], inFifo := [], rx := [] } } else l)) d

/-- The voltage offset of the point in force reaches the rails of a partition (R494, R499). -/
def Dev.applyOffset (d : Dev) (n : Nat) : Dev :=
  let o := (d.pointNow n).offset
  Dev.each (d.getPart n).halfList (fun d h =>
    if (d.getHalfPow h).offset = o then d else (d.modHalfPow h (fun p => { p with offset := o })).newSetpoint h) d

/-- Assay units that watch a partition's interval start with its job (R584). -/
def Dev.beginAssays (d : Dev) (n : Nat) : Dev :=
  Dev.each (upTo 32) (fun d u =>
    let a := d.getAssay u
    if a.blk.enable ∧ a.blk.source ≠ 3 ∧ a.blk.partition = n then d.modAssay u (fun a => { a with state := 1, reg := a.blk.init, count := 0 }) else d) d

/-- The job may begin now: its start beat has come and is not held (R35, R36). -/
def Dev.mayBegin (d : Dev) (n : Nat) : Bool :=
  let p := d.getPart n
  p.running && p.job.waitStart && !p.job.waitExit
    && (!p.job.lockstep || ((d.beat.state == bsLocked || d.beat.state == bsMaster) && decide (p.job.startBeat ≤ d.beat.number) && !d.heldBeat))

/-- R35: job beat 0 of a job. -/
def jobStartBeat (partition : Nat) (d : Dev) : Dev :=
  d.gate (d.mayBegin partition) (fun d =>
    let d := d.modPart partition (fun p => { p with job := { p.job with waitStart := false, jobBeat := 0, oppIndex := 0 } })
    let d := Dev.each (d.getPart partition).halfList (fun d h => d.beginHalf h (d.now h 0)) d
    let d := if d.mirror.regs.partition = partition ∧ d.mirror.regs.mode ≠ 0 then
        { d with mirror.crc := [], mirror.err := false, mirror.count := 0, mirror.sent := none, mirror.peerSent := none } else d
    let d := if d.pairedJob partition then { d with mirror.regs.state := 3, mirror.copying := false, mirror.rejoined := false } else d
    ((d.beginMesh partition).beginAssays partition).applyOffset partition)
def execJobStartBeat (partition : Nat) (s : State) : Host.Outcome State Fault Refusal := s.live (jobStartBeat partition)

/-! ## JOB_STOP, JOB_STATUS, drains and notices -/

/-- Waiting JOB_STOP commands of a partition complete once its job has stopped or ended and drained (R332, R451). -/
def Dev.stopsDone (d : Dev) (n : Nat) : Dev :=
  let p := d.getPart n
  if p.job.state = 4 ∨ p.job.state = 5 then
    d.completeAll (fun w => w.opcode == 0x0022 && w.partition == n) (fun _ => { r0 := p.result0 })
  else d

/-- R451: JOB_STOP stops at the next beat edge and completes when draining ends; on a draining partition it joins the drain. -/
def jobStopSpec : MbxSpec where
  opcode := 0x0022
  roles := 3
  targets := fun c => [tgtPart c.part]
  run := fun c d => d.ofPart c (fun n =>
    .go { effect := fun d =>
      let p := d.getPart n
      if p.busy then (d.stopNext n 1, { waits := true }) else (d, { r0 := p.result0 }) })
def execJobStop (c : MbxCmd) (s : State) : Host.Outcome State Fault Refusal := s.live (mbxRow jobStopSpec none c)

/-- R332: the last signal of a stopped or ended partition is resolved, and a waiting JOB_STOP completes. -/
def partitionDrainEnd (partition : Nat) (d : Dev) : Dev :=
  d.gate ((d.getPart partition).draining && !d.unresolved partition) (fun d => (d.drainEnd partition).stopsDone partition)
def execPartitionDrainEnd (partition : Nat) (s : State) : Host.Outcome State Fault Refusal := s.live (partitionDrainEnd partition)

/-- R453: JOB_STATUS; BUILD_ID goes to the buffer where one is given. -/
def jobStatusSpec : MbxSpec where
  opcode := 0x0023
  roles := 3
  reads := true
  run := fun c d => d.ofPart c (fun n => withBuf c (if c.bufLen = 0 then 0 else 32) (.go { effect := fun d =>
    let p := d.getPart n
    let id := match p.image with | some i => i.buildId | none => List.replicate 32 0
    (d, { r0 := p.result0, r1 := p.result1, out := if c.bufLen = 0 then [] else id }) }))
def execJobStatus (c : MbxCmd) (s : State) : Host.Outcome State Fault Refusal := s.live (mbxRow jobStatusSpec none c)

/-- The oldest notice of a partition on a ring is posted (R454). -/
def Dev.postNotice (d : Dev) (ring : Nat) (x : Notice) : Dev :=
  d.postEntry ring 0xFFFF 2 0 (d.getRing ring).head true { r0 := x.result0, r1 := x.result1 }

/-- A ring can take a notice now: it runs and has a free completion entry (R440, R454). -/
def Ring.takesNotice (r : Ring) : Bool := r.state == 1 && r.hasRoom

/-- R454: the notice of a partition's job is posted once a completion entry is free: first one that waits on a ring, then the last job's own. -/
def noticePost (partition : Nat) (d : Dev) : Dev :=
  let waitsOn := (upTo 66).find? (fun r => let q := d.getRing r
    q.takesNotice && (match q.notices with | x :: _ => x.partition == partition | [] => false))
  d.gate d.serving (fun d =>
    match waitsOn with
    | some r =>
      match (d.getRing r).notices with
      | x :: rest => (d.modRing r (fun q => { q with notices := rest })).postNotice r x
      | [] => d
    | none =>
      let p := d.getPart partition
      match p.job.notify with
      | some r =>
        d.gate ((p.job.state == 4 || p.job.state == 5) && (d.getRing r).takesNotice && (d.getRing r).notices.isEmpty) (fun d =>
          (d.modPart partition (fun p => { p with job := { p.job with notify := none } })).postNotice r ⟨partition, p.result0, p.result1⟩)
      | none => d)
def execNoticePost (partition : Nat) (s : State) : Host.Outcome State Fault Refusal := s.live (noticePost partition)

end Sys2Proof.Machine
end

