-- ==== Sys2Proof/Machine/MbxFabric.lean ====
section
/-! DEFINITION. Mailbox commands on the beat, the links, the routed fabric and its tables (R48, R55, R66, R339, R348, R351, R356, R357, R364, R372, R375,
R381, R417, R419, R435, R452, R554). -/

namespace Sys2Proof.Machine

/-! ## BEAT_CONFIG and LINK_CONFIG -/

/-- A lockstep partition runs or drains (R55). -/
def Dev.lockBusy (d : Dev) : Bool := (upTo 8).any (fun n => (d.getPart n).busy && (d.getPart n).job.lockstep)

/-- R48, R55, R66, R67: BEAT_CONFIG. -/
def beatConfigSpec : MbxSpec where
  opcode := 0x0030
  roles := 2
  m0 := 0x000FFFFFFFFF007F
  m1 := 2 ^ 56 - 1
  run := fun c d =>
    let role := fld c.a0 0 2
    let source := fld c.a0 2 1
    let cap := fld c.a0 3 4
    let domain := fld c.a0 16 16
    let vein := fld c.a0 32 16
    let d2d := fld c.a0 48 4
    let b := d.beat
    let changes : Bool := role != b.role || (if role = 1 then source else 0) != b.source || domain != b.domain || vein != b.maskVein || d2d != b.maskD2d
    if role = 3 then reject stBad 24
    else if role = 1 ∧ (cap = 0 ∨ 12 < cap) then reject stRange 24
    else if role = 1 ∧ b.state ≠ bsMaster ∧ c.a1 ≤ b.highWater then reject stRange 32
    else if d.lockBusy ∧ changes = true then reject stConflict detailState
    else plan (natLe 4 d.beatConfigReg ++ natLe 4 (b.maskVein + 2 ^ 16 * b.maskD2d)) (natLe 8 c.a0)
      (fun d => d.setBeat role source cap domain vein d2d c.a1) 0 0
def execBeatConfig (c : MbxCmd) (s : State) : Host.Outcome State Fault Refusal := s.live (mbxRow beatConfigSpec none c)

/-- A port enters DISABLED (R419, R452): it leaves service and its queued packets are discarded (R368). -/
def Dev.disablePort (d : Dev) (n : Nat) : Dev :=
  let d := d.modLink n (fun l => { l with regs.state := 0, regs.width := 0, train := { cached := l.train.cached } })
  (d.dropQueued n).mateCheck

/-- A vein port is out of service by UNIT_RETIRE or UNIT_DISABLE (R452). -/
def Dev.portOut (d : Dev) (n : Nat) : Bool :=
  let u := (3, n / 4, n % 4, 0)
  !d.caps.veins.testBit n || d.caps.retired.contains u || d.caps.disabled.contains u || d.caps.leaving.contains u

/-- LinkConfig of a port takes a new value (R407, R409, R417, R419). -/
def Dev.setLink (d : Dev) (n v : Nat) : Dev :=
  let old := (d.getLink n).regs
  let d := d.modLink n (fun l => { l with
    regs.enable := v.testBit 0, regs.maxWidth := fld v 1 2, regs.mate := v.testBit 3, regs.autoRetry := v.testBit 4 })
  let d :=
    if !v.testBit 0 then (if old.state = 0 then d else (d.modLink n (fun l => { l with regs.lastCause := 5 })).disablePort n)
    else if old.state = 0 ∨ old.state = 4 then
      (d.modLink n (fun l => { l with regs.lastCause := 5 })).beginAttempt n 1 true
    else if old.maxWidth ≠ fld v 1 2 then d.retrain n 5
    else d
  d.mateCheck

/-- A running lockstep job's allotment uses a port (R419): its highest slot. -/
def Dev.lockSlot (d : Dev) (n : Nat) : Option Nat :=
  match (d.getLink n).sched.allot with
  | some a => if (d.getPart (d.getLink n).sched.owner).lockRun then some a.highest else none
  | none => none

/-- R417, R419, R452: LINK_CONFIG. -/
def linkConfigSpec : MbxSpec where
  opcode := 0x0031
  roles := 2
  m0 := 0x1F
  m1 := 0x1F
  targets := fun c => [tgtPort (fld c.a0 0 5)]
  run := fun c d =>
    let n := fld c.a0 0 5
    let v := c.a1
    let old := (d.getLink n).regs
    let narrow : Bool := match d.lockSlot n with
      | some h => !v.testBit 0 || (old.maxWidth < fld v 1 2 && decide (40 * (16 - 4 * fld v 1 2) ≤ h))
      | none => false
    if 16 ≤ n then reject stBad 24
    else if v.testBit 3 ∧ !old.mate ∧ 2 ≤ d.matePorts.length then reject stConflict detailState
    else if v.testBit 0 ∧ d.portOut n then reject stConflict detailState
    else if narrow then reject stConflict detailState
    else plan (natLe 4 old.config) (natLe 4 v) (fun d => d.setLink n v) 0 0
def execLinkConfig (c : MbxCmd) (s : State) : Host.Outcome State Fault Refusal := s.live (mbxRow linkConfigSpec none c)

/-! ## FABRIC_POLICY -/

/-- R351: FABRIC_POLICY with SELECT SELF. -/
def fabricSelfSpec : MbxSpec where
  opcode := 0x0032
  roles := 2
  m0 := 0x1F0F
  m1 := 0x1FFF
  run := fun c d =>
    let n := fld c.a1 0 12
    if 0xF00 ≤ n then reject stRange 32
    else plan (natLe 4 d.routeSelfReg) (natLe 4 (n + 2 ^ 12)) (fun d => { d with fab.selfDevice := n, fab.selfValid := true }) 0 0
def execFabricPolicySelf (c : MbxCmd) (s : State) : Host.Outcome State Fault Refusal := s.live (mbxRow fabricSelfSpec (some 0) c)

/-- R364, R381: FABRIC_POLICY with SELECT PARTITION. -/
def fabricPartitionSpec : MbxSpec where
  opcode := 0x0032
  roles := 2
  m0 := 0x1F0F
  m1 := 0xFFFFFF01
  targets := fun c => [tgtPart (fld c.a0 8 5)]
  run := fun c d =>
    let n := fld c.a0 8 5
    let us := fld c.a1 8 24
    if 8 ≤ n then reject stBad 25
    else if us < 100 ∨ 100000 < us then reject stRange 33
    else if c.a1.testBit 0 ≠ (d.getPartFab n).priority ∧ (d.getPart n).busy then reject stConflict detailState
    else plan (natLe 4 (d.partFabricReg n)) (natLe 4 c.a1) (fun d => d.modPartFab n (fun _ => { priority := c.a1.testBit 0, timeoutUs := us })) 0 0
def execFabricPolicyPartition (c : MbxCmd) (s : State) : Host.Outcome State Fault Refusal := s.live (mbxRow fabricPartitionSpec (some 1) c)

/-- A channel of some die belongs to a running lockstep partition (R348). -/
def Dev.lockChannel (d : Dev) (ch : Nat) : Bool :=
  (upTo 4).any (fun p => let b := d.getChan (16 * p + ch); b.assigned && (d.getPart b.partition).lockRun)

/-- R339, R348: FABRIC_POLICY with SELECT BARRIER_TREE. -/
def fabricTreeSpec : MbxSpec where
  opcode := 0x0032
  roles := 2
  m0 := 0x1F0F
  m1 := 0x3FFFFF
  run := fun c d =>
    let ch := fld c.a0 8 5
    let t : BarrierTree := { enabled := c.a1.testBit 0, root := c.a1.testBit 1, parentPort := fld c.a1 2 4, children := fld c.a1 6 16 }
    let port := (d.getLink t.parentPort).regs
    if 16 ≤ ch then reject stBad 25
    else if t.enabled ∧ !t.root ∧ (port.state ≠ 3 ∨ !port.enable ∨ t.children.testBit t.parentPort) then reject stBad 32
    else if d.getTree ch ≠ t ∧ d.lockChannel ch then reject stConflict detailState
    else plan (natLe 4 (d.barrierTreeReg ch)) (natLe 4 c.a1) (fun d => d.modTree ch (fun _ => t)) 0 0
def execFabricPolicyBarrierTree (c : MbxCmd) (s : State) : Host.Outcome State Fault Refusal := s.live (mbxRow fabricTreeSpec (some 2) c)

/-- R435: FABRIC_POLICY with SELECT APERTURE. -/
def fabricApertureSpec : MbxSpec where
  opcode := 0x0032
  roles := 2
  m0 := 0x1F0F
  m1 := 0xFFFFFF000003
  run := fun c d =>
    let w := fld c.a0 8 5
    plan (natLe 8 (d.apertureReg w)) (natLe 8 c.a1)
      (fun d => d.modWindow w (fun _ => { valid := c.a1.testBit 0, write := c.a1.testBit 1, base := fld c.a1 24 24 })) 0 0
def execFabricPolicyAperture (c : MbxCmd) (s : State) : Host.Outcome State Fault Refusal := s.live (mbxRow fabricApertureSpec (some 3) c)

/-! ## ROUTE_TABLE_SET -/

/-- Entries of a table (R356, R357, R372), and bytes of one entry of the buffer (R451). -/
def tableSize (t : Nat) : Nat := if t = 0 then 4096 else if t = 1 then 1024 else 16
def entryBytes (t : Nat) : Nat := if t = 2 then 40 else 4

/-- The instance of a table that A0 selects: a die, or a hub 8p + h. -/
def tableSel (a0 : Nat) : Nat := if fld a0 0 2 = 1 then fld a0 2 2 else if fld a0 0 2 = 2 then 8 * fld a0 2 2 + fld a0 4 3 else 0

/-- The values of the buffer, one for each entry. -/
def tableValues (t : Nat) (buf : List Byte) : List Nat := (upTo (buf.length / entryBytes t)).map (fun i => leAt buf (entryBytes t * i) (entryBytes t))

/-- Byte offset in its entry of a field that fails (R356, R357, R372). -/
def entryFlaw (t n v : Nat) : Option Nat :=
  if t = 0 then
    if (0xF00 ≤ n) ∧ v.testBit 0 ∧ !v.testBit 9 ∨ n < 0xF00 ∧ v.testBit 9 then some 1
    else if fld v 24 8 ≠ 0 then some 3 else none
  else if t = 1 then (if fld v 10 22 ≠ 0 then some 1 else none)
  else if fld v 25 39 ≠ 0 then some 3
  else ((upTo 8).find? (fun k => fld v (64 + 32 * k + 22) 10 != 0)).map (fun k => 10 + 4 * k)

/-- What an entry of a table reads (R356, R357, R372). -/
def Dev.tableEntry (d : Dev) (t sel n : Nat) : Nat :=
  if t = 0 then d.routeDevice n
  else if t = 1 then d.routeLocal sel n
  else leNat ((upTo 5).flatMap (fun w => natLe 8 (d.reduceWord sel n w)))

/-- Write an entry of a table into every copy. -/
def Dev.setEntry (d : Dev) (t sel n v : Nat) : Dev :=
  if t = 0 then { d with fab.device := tabSet 0 n v d.fab.device }
  else if t = 1 then { d with fab.locals := tabSet (2 ^ 32) (1024 * sel + n) v d.fab.locals }
  else { d with fab.reduce := (upTo 5).foldl (fun r w => tabSet 0 ((sel * 16 + n) * 8 + w) (fld v (64 * w) 64) r) d.fab.reduce }

/-- DRAIN_US as it applies (R375). -/
def drainUs (a1 : Nat) : Nat := if fld a1 32 32 = 0 then 5000 else fld a1 32 32

/-- Remaining DRAIN_US of the change under way (R554). -/
def RouteChange.left (x : RouteChange) (wall : Nat) : Nat := x.drainUs - beatNs * (wall - x.since) / 1000

/-- R356, R357, R372, R375, R554: ROUTE_TABLE_SET checks its entries and starts the drain. -/
def routeTableSpec : MbxSpec where
  opcode := 0x0033
  roles := 2
  m0 := 0xFFFF007F
  m1 := 0xFFFFFFFF0000FFFF
  inBuf := true
  auditsLate := true
  targets := fun c => [tgtTable (fld c.a0 0 7)]
  run := fun c d =>
    let t := fld c.a0 0 2
    let first := fld c.a0 16 16
    let count := fld c.a1 0 16
    let us := drainUs c.a1
    let vals := tableValues t c.buffer
    if t = 3 then reject stBad 24
    else if c.bufLen ≠ count * entryBytes t then reject stBad 16
    else if tableSize t < first + count then reject stRange 26
    else if us < 100 ∨ 1000000 < us then reject stRange 36
    else
      match (upTo vals.length).findSome? (fun i => (entryFlaw t (first + i) (vals.getD i 0)).map (fun o => entryBytes t * i + o)) with
      | some o => reject stBad (bufferDetail stBad o)
      | none =>
        match d.fab.change with
        | some x => reject stDraining (x.left d.clock.wall)
        | none => .go { effect := fun d =>
            let x : RouteChange := { table := t, sel := tableSel c.a0, first := first, values := vals, drainUs := us, since := d.clock.wall, held := [] }
            ({ d with fab.change := some x }, { waits := true }) }
def execRouteTableSet (c : MbxCmd) (s : State) : Host.Outcome State Fault Refusal := s.live (mbxRow routeTableSpec none c)

/-- The lookup of a queued packet at a hub of this device lies behind it (R375): it has left its home hub's input, or comes from elsewhere. -/
def Dev.lookedUp (d : Dev) (q : QPkt) : Bool :=
  (rHub q.router && q.outPort != atInput && q.outPort != 128) || q.pkt.src / 256 != d.fab.selfDevice * 4 + rDie q.router

/-- Affected traffic is left (R375): queued packets, unanswered requests that are not held, and partial TAGs of a changed group. -/
def Dev.affectedLeft (d : Dev) (x : RouteChange) : Bool :=
  d.fab.queue.any (fun q => d.lookedUp q && d.usesChanged x (rDie q.router) q.pkt.dest q.pkt.kind (pGroup q.pkt))
    || d.fab.requests.any (fun r =>
      (d.usesChanged x (r.src / 256 % 4) r.dest r.kind r.group || d.usesChanged x (r.dest / 256 % 4) r.dest r.kind r.group)
        && !x.held.any (fun q => q.pkt.src == r.src && pTag q.pkt == r.tag))
    || (x.table == 2 && d.fab.nodes.any (fun n => n.hub == x.sel && d.usesChanged x 0 0 6 n.group))

/-- The held packets of a change go on under the tables in force. -/
def Dev.releaseHeld (d : Dev) (held : List QPkt) : Dev := (Dev.each held (fun d q => d.forward q.router q.inPort 0 q.pkt) d).pumpLinks

/-- R375 step 4: no affected traffic is left: the record is written, the new entries take force, held packets go on, the command completes. -/
def routeDrainDone (d : Dev) : Dev :=
  match d.fab.change with
  | none => d
  | some x =>
    d.gate (!d.affectedLeft x) (fun d =>
      let ns := (upTo x.values.length).map (x.first + ·)
      let bytes := fun (vs : List Nat) => vs.flatMap (natLe (entryBytes x.table))
      let old := bytes (ns.map (d.tableEntry x.table x.sel))
      let d := Dev.each (d.host.waiting.filter (fun w => w.opcode == 0x0033)) (fun d w =>
        d.audit 1 w.session w.opcode w.ring (w.a0 % 2 ^ 32) old (bytes x.values)) d
      let d := { d with fab.change := none }
      let d := Dev.each (upTo x.values.length) (fun d i => d.setEntry x.table x.sel (x.first + i) (x.values.getD i 0)) d
      (d.releaseHeld x.held).completeAll (fun w => w.opcode == 0x0033) (fun _ => {}))
def execRouteDrainDone (s : State) : Host.Outcome State Fault Refusal := s.live routeDrainDone

/-- R375: DRAIN_US has run out with traffic left: the tables stay, held packets go on under the old entries, and the command completes with TIMEOUT. -/
def routeDrainTimeout (d : Dev) : Dev :=
  match d.fab.change with
  | none => d
  | some x =>
    d.gate (d.due x.since (1000 * x.drainUs)) (fun d =>
      let d := { d with fab.change := none }
      let d := { d with host.waiting := d.host.waiting.map (fun (w : Waiting) => if w.opcode = 0x0033 then { w with audited := false } else w) }
      (d.releaseHeld x.held).completeAll (fun w => w.opcode == 0x0033) (fun _ => { status := stTimeout }))
def execRouteDrainTimeout (s : State) : Host.Outcome State Fault Refusal := s.live routeDrainTimeout

end Sys2Proof.Machine
end

