-- ==== Sys2Proof/Machine/MbxPower.lean ====
section
/-! DEFINITION. Mailbox commands on power policy, operating points and guarantees, and the commands that only read (R90, R312, R451, R498, R502, R509, R516,
R567, R578, R579). -/

namespace Sys2Proof.Machine

/-! ## POWER_POLICY_SET -/

/-- A value of POWER_POLICY_SET waits for the next control step (R502). -/
def Dev.pendPolicy (d : Dev) (sel a1 a2 : Nat) : Dev := { d with pow.pend := d.pow.pend ++ [(sel, a1, a2)] }

/-- R502: POWER_POLICY_SET with SELECT CAP. -/
def powerCapSpec : MbxSpec where
  opcode := 0x0040
  roles := 2
  m0 := 0xF
  m1 := 0xFFFF
  run := fun c d =>
    if c.a1 < 1000 ∨ 2400 < c.a1 then reject stRange 32
    else plan (natLe 2 d.pow.capW) (natLe 2 c.a1) (fun d => d.pendPolicy 0 c.a1 0) 0 0
def execPowerPolicyCap (c : MbxCmd) (s : State) : Host.Outcome State Fault Refusal := s.live (mbxRow powerCapSpec (some 0) c)

/-- SHARE_ORDER as a register value (R502). -/
def orderBits (o : Nat × Nat × Nat) : Nat := bf [(0, 2, o.1), (2, 2, o.2.1), (4, 2, o.2.2)]

/-- R502: POWER_POLICY_SET with SELECT SHARE_ORDER: the three domains form a permutation. -/
def powerOrderSpec : MbxSpec where
  opcode := 0x0040
  roles := 2
  m0 := 0xF
  m1 := 0x3F
  run := fun c d =>
    let o := [fld c.a1 0 2, fld c.a1 2 2, fld c.a1 4 2]
    if (upTo 3).all (fun m => o.contains m) then
      plan (natLe 1 (orderBits d.pow.order)) (natLe 1 c.a1) (fun d => d.pendPolicy 1 c.a1 0) 0 0
    else reject stBad 32
def execPowerPolicyShareOrder (c : MbxCmd) (s : State) : Host.Outcome State Fault Refusal := s.live (mbxRow powerOrderSpec (some 1) c)

/-- R28, R502: POWER_POLICY_SET with SELECT DEEP_IDLE. -/
def powerIdleSpec : MbxSpec where
  opcode := 0x0040
  roles := 2
  m0 := 0xF
  m1 := 1
  run := fun c d => plan (natLe 1 (b2n d.idle.enabled)) (natLe 1 c.a1) (fun d => d.pendPolicy 2 c.a1 0) 0 0
def execPowerPolicyDeepIdle (c : MbxCmd) (s : State) : Host.Outcome State Fault Refusal := s.live (mbxRow powerIdleSpec (some 2) c)

/-- GRAVEL_EN of all slabs (R133, R502). -/
def Dev.gravelBits (d : Dev) : Nat := bf ((upTo 32).map (fun s => (s, 1, b2n (d.getSlab s).regs.gravelEn)))

/-- R502: POWER_POLICY_SET with SELECT GRAVEL. -/
def powerGravelSpec : MbxSpec where
  opcode := 0x0040
  roles := 2
  m0 := 0xF
  m1 := 0xFFFFFFFF
  m2 := 0xF01FF
  run := fun c d =>
    let slope := fld c.a2 0 9
    if slope = 0 ∨ 300 < slope then reject stRange 40
    else plan (natLe 4 d.gravelBits ++ natLe 4 (d.pow.slope + 2 ^ 16 * d.pow.floor)) (natLe 4 c.a1 ++ natLe 4 c.a2)
      (fun d => d.pendPolicy 3 c.a1 c.a2) 0 0
def execPowerPolicyGravel (c : MbxCmd) (s : State) : Host.Outcome State Fault Refusal := s.live (mbxRow powerGravelSpec (some 3) c)

/-- R312: POWER_POLICY_SET with SELECT SCRUB: the new values take effect at the start of the next scrub pass of each die. -/
def powerScrubSpec : MbxSpec where
  opcode := 0x0040
  roles := 2
  m0 := 0xF
  m1 := 0xFFFFF
  run := fun c d =>
    let sram := fld c.a1 0 8
    let hbm := fld c.a1 8 10
    if sram = 0 ∨ 168 < sram then reject stRange 32
    else if hbm < 12 ∨ 720 < hbm then reject stRange 33
    else plan ((upTo 4).flatMap (fun p => natLe 4 (d.scrubSetting p))) ((upTo 4).flatMap (fun _ => natLe 4 c.a1)) (fun d =>
      Dev.each (upTo 4) (fun d p => d.modScrub p (fun s => { s with pending := some (sram, hbm, c.a1.testBit 18, c.a1.testBit 19) })) d) 0 0
def execPowerPolicyScrub (c : MbxCmd) (s : State) : Host.Outcome State Fault Refusal := s.live (mbxRow powerScrubSpec (some 4) c)

/-! ## OPPOINT_TABLE_SET and GUARANTEE_SET -/

/-- Point i of the buffer (R451, R498). -/
def pointAt (buf : List Byte) (i : Nat) : OpPoint :=
  ⟨fld (leAt buf (8 * i) 1) 0 5, fld (leAt buf (8 * i + 1) 1) 0 5, sgn 16 (leAt buf (8 * i + 2) 2)⟩

/-- Offset in an entry of a reserved bit that is set. -/
def pointReserved (buf : List Byte) (i : Nat) : Option Nat :=
  if 32 ≤ leAt buf (8 * i) 1 then some 0 else if 32 ≤ leAt buf (8 * i + 1) 1 then some 1 else if leAt buf (8 * i + 4) 4 ≠ 0 then some 4 else none

/-- Offset in an entry of a value outside its range (R498). -/
def pointRange (p : OpPoint) : Option Nat :=
  if 20 < p.freq then some 0 else if p.cap = 0 ∨ 16 < p.cap then some 1 else if p.offset < -50 ∨ 50 < p.offset then some 2 else none

/-- Points that running and draining jobs use (R498). -/
def Dev.pointsUsed (d : Dev) : List Nat :=
  (upTo 8).flatMap (fun n =>
    let p := d.getPart n
    if p.busy then (match p.image with | some i => i.oppoints.map (·.point) | none => []) else [])

/-- The bytes of a table of points. -/
def pointBytes (ps : List (Nat × OpPoint)) : List Byte :=
  ps.flatMap (fun x => natLe 1 x.2.freq ++ natLe 1 x.2.cap ++ natLe 2 (unsgn 16 x.2.offset) ++ natLe 4 0)

/-- First byte of the buffer, over all entries, at which a check of one entry fails. -/
def firstEntry (count size : Nat) (f : Nat → Option Nat) : Option Nat := (upTo count).findSome? (fun i => (f i).map (fun o => size * i + o))

/-- R90, R498: OPPOINT_TABLE_SET. -/
def oppointSpec : MbxSpec where
  opcode := 0x0041
  roles := 2
  m0 := 0x1F
  inBuf := true
  run := fun c d =>
    let count := fld c.a0 0 5
    let new := (upTo count).map (fun i => (i, pointAt c.buffer i))
    let clash := d.pointsUsed.any (fun k =>
      match d.pow.points.find? (fun x => x.1 == k), new.find? (fun x => x.1 == k) with
      | some a, some b => a.2.freq != b.2.freq || a.2.cap != b.2.cap
      | some _, none => true
      | none, _ => false)
    if count = 0 ∨ 16 < count then reject stRange 24
    else if c.bufLen ≠ 8 * count then reject stBad 16
    else
      match firstEntry count 8 (pointReserved c.buffer), firstEntry count 8 (fun i => pointRange (pointAt c.buffer i)) with
      | some o, _ => reject stBad (bufferDetail stBad o)
      | none, some o => reject stRange (bufferDetail stRange o)
      | none, none =>
        if clash then reject stConflict detailState
        else plan (pointBytes d.pow.points) [] (fun d => { d with pow.points := new }) 0 0
def execOppointTableSet (c : MbxCmd) (s : State) : Host.Outcome State Fault Refusal := s.live (mbxRow oppointSpec none c)

/-- Bits of A1 that a kind of guarantee uses (R509). -/
def guarMask (kind : Nat) : Nat := if kind = 0 then 0x1F else if kind = 1 then 0x1F1F else 2 ^ 48 - 1

/-- The two values of a guarantee in A1 (R509). -/
def guarValues (kind a1 : Nat) : Nat × Nat :=
  if kind = 0 then (fld a1 0 5, 0) else if kind = 1 then (fld a1 0 5, fld a1 8 5) else (fld a1 0 32, fld a1 32 16)

/-- Byte of a value outside its range (R509). -/
def guarRange (kind v1 v2 : Nat) : Option Nat :=
  if kind = 0 then (if v1 = 0 ∨ 16 < v1 then some 32 else none)
  else if kind = 1 then (if v1 < 4 ∨ 16 < v1 then some 32 else if v2 < 4 ∨ 16 < v2 then some 33 else none)
  else if kind = 2 then (if v1 < 500 ∨ 100000000 < v1 then some 32 else none)
  else if v1 = 0 ∨ 4000000000 < v1 then some 32 else if v2 = 0 ∨ 36000 < v2 then some 36 else none

/-- The bytes of a guarantee: its rank and its value as A1 carries it. -/
def guarBytes (kind rank v1 v2 : Nat) : List Byte :=
  natLe 1 rank ++ natLe 8 (if kind = 0 then v1 else if kind = 1 then v1 + 256 * v2 else v1 + 2 ^ 32 * v2)

/-- R509: GUARANTEE_SET of one kind; it takes effect at the next control step. -/
def guaranteeSpec (kind : Nat) : MbxSpec where
  opcode := 0x0042
  roles := 2
  m0 := 0xFF30
  m1 := guarMask kind
  targets := fun c => [tgtPart c.part]
  run := fun c d => d.ofPart c (fun n =>
    let rank := fld c.a0 8 8
    let v := guarValues kind c.a1
    let k := 4 * n + kind
    let old := (d.getGuar k).setting
    let loose : Bool := match (d.getPart n).image with
      | some i => !i.lockstep
      | none => false
    match (if rank = 0 then none else guarRange kind v.1 v.2) with
    | some o => reject stRange o
    | none =>
      if kind = 0 ∧ rank ≠ 0 ∧ loose = true then reject stConflict detailState
      else plan (guarBytes kind old.rank old.v1 old.v2) (if rank = 0 then guarBytes kind 0 0 0 else guarBytes kind rank v.1 v.2)
        (fun d => d.modGuar k (fun g => { g with pend := some (if rank = 0 then (0, 0, 0) else (rank, v.1, v.2)) })) 0 0)
def execGuaranteeSet (c : MbxCmd) (s : State) : Host.Outcome State Fault Refusal := s.live (mbxRow (guaranteeSpec (fld c.a0 4 2)) none c)

/-! ## Commands that only read -/

/-- R516: ENERGY_READ. -/
def energyReadSpec : MbxSpec where
  opcode := 0x0043
  roles := 3
  reads := true
  run := fun c d => d.ofPart c (fun n =>
    .go { effect := fun d => (d, { r0 := milliJoules (tabGet 0 n d.pow.energy), r1 := d.beat.number }) })
def execEnergyRead (c : MbxCmd) (s : State) : Host.Outcome State Fault Refusal := s.live (mbxRow energyReadSpec none c)

/-- Die and offset of a DPA in an MMIO window (R292, R436). -/
def mmioPlace (dpa : Nat) : Option (Nat × Nat) :=
  let off := dpa % 2 ^ 46
  if 0x300000000000 ≤ off then some (dpa / 2 ^ 46 % 4, off - 0x300000000000) else none

/-- A unit of the range lies outside the halves of an Operator's partition (R451). -/
def Dev.outsideHalves (d : Dev) (n p off bytes : Nat) : Bool :=
  (upTo (bytes / 4)).any (fun i =>
    match mmioHalf p (off + 4 * i) with
    | some h => !(d.getPart n).halves.testBit h
    | none => false)

/-- Registers copied whole (R451). -/
def Dev.mmioBytes (d : Dev) (p off bytes : Nat) : List Byte := (upTo (bytes / 8)).flatMap (fun i => natLe 8 (d.mmioRead p (off + 8 * i) 8))

/-- R451: TELEMETRY_READ. -/
def telemetryReadSpec : MbxSpec where
  opcode := 0x0050
  roles := 7
  m0 := 2 ^ 48 - 1
  m1 := 0xFFFF
  reads := true
  run := fun c d =>
    match mmioPlace c.a0 with
    | none => reject stRange 24
    | some (p, off) =>
      if off % 4 ≠ 0 then reject stBad 24
      else if c.a1 < 8 ∨ 4096 < c.a1 then reject stRange 32
      else if c.a1 % 8 ≠ 0 then reject stBad 32
      else if 2 ^ 44 < off + c.a1 then reject stRange 24
      else if c.ring < 64 ∧ d.outsideHalves c.part p off c.a1 = true then reject stDenied 0
      else withBuf c c.a1 (.go { effect := fun d => (d, { out := d.mmioBytes p off c.a1 }) })
def execTelemetryRead (c : MbxCmd) (s : State) : Host.Outcome State Fault Refusal := s.live (mbxRow telemetryReadSpec none c)

/-- Records of a log from a sequence number on: what is returned, the next sequence number, and the oldest held. -/
structure LogPart where
  records : List (List Byte)
  next : Nat
  oldest : Nat

/-- The oldest sequence number held. -/
def Dev.oldestEvent (d : Dev) : Nat := match d.evt.log with | r :: _ => r.seq | [] => d.evt.seq
def Dev.oldestAudit (d : Dev) : Nat := d.flash.auditBase % 2 ^ 32

/-- At most `count` records that are picked, from `first` on or from the oldest held (R451, R578). -/
def Dev.eventPart (d : Dev) (first count : Nat) (pick : EvRec → Bool) : LogPart :=
  let o := d.oldestEvent
  let start := max first o
  let rs := ((d.evt.log.filter (fun r => decide (start ≤ r.seq) && pick r)).take count)
  let next := if rs.length < count then max start d.evt.seq else match rs.getLast? with | some r => r.seq + 1 | none => start
  ⟨rs.map (fun r => eventBytes r false), next, o⟩
def Dev.auditPart (d : Dev) (first count : Nat) : LogPart :=
  let o := d.oldestAudit
  let start := max first o
  let rs := (d.flash.auditBytes.drop (start - o)).take count
  ⟨rs, start + rs.length, o⟩

/-- R451: LOG_READ; an Operator receives only event records of its own partition. -/
def logReadSpec : MbxSpec where
  opcode := 0x0051
  roles := 7
  m0 := 1
  m1 := 0xFFFFFFFF
  m2 := 0xFFFF
  reads := true
  run := fun c _ => withBuf c (64 * c.a2) (.go { effect := fun d =>
    let l := if c.a0 = 0 then d.eventPart c.a1 c.a2 (fun r => decide (64 ≤ c.ring) || r.ev.partition == c.part)
             else if c.ring < 64 then { records := [], next := (d.auditPart c.a1 0).next, oldest := d.oldestAudit } else d.auditPart c.a1 c.a2
    (d, { r0 := l.next, r1 := l.oldest, out := l.records.flatten }) })
def execLogRead (c : MbxCmd) (s : State) : Host.Outcome State Fault Refusal := s.live (mbxRow logReadSpec none c)

end Sys2Proof.Machine
end

