-- ==== Sys2Proof/Machine/Firmware.lean ====
section
/-! DEFINITION. Firmware images and banks (R470 to R472), FW_STAGE, the calibration cache and CAL_RUN (R490, R495, R545, R564), and the BEDROCK vector
(R434). -/

namespace Sys2Proof.Machine

/-- The BEDROCK vector on every function of both host ports (R434). -/
def bedVectors : List Out := [0, 2].flatMap (fun port => Out.msix port 0 3 :: (upTo 16).map (fun v => Out.msix port (v + 1) 4))

/-- Change the Bedrock registers; a change of PRIMARY, STANDBY_OK or PAUSED sends the BEDROCK vector (R434). -/
def Dev.setBed (d : Dev) (f : Bedrock → Bedrock) : Dev :=
  let b := f d.bed
  let same := b.primary == d.bed.primary && b.standbyOk == d.bed.standbyOk && b.paused == d.bed.paused
  { d with bed := b, clock.out := if same then d.clock.out else d.clock.out ++ bedVectors }

/-! ## Firmware images -/

/-- Byte at which a firmware image fails the first of the checks of R471 under some security fuses, or none. -/
def fwFlaw (f : SecFuse) (img : List Byte) : Option Nat :=
  let body := leAt img 12 4
  let rootKey := slice img 256 96
  let signKey := slice img 64 96
  if leAt img 0 4 ≠ 0x4B434F52 then some 0
  else if leAt img 11 1 ≠ 3 then some 11
  else if leAt img 448 64 ≠ 0 then some 448
  else if Config.sha384 rootKey ≠ Config.rootHash then some 256
  else if !Config.ecdsaOk rootKey (slice img 160 96) (Config.sha384 (slice img 10 1 ++ signKey)) then some 160
  else if 15 < leAt img 10 1 ∨ f.keyRevoke.testBit (leAt img 10 1) then some 10
  else if leAt img 8 2 < f.svn then some 8
  else if !Config.ecdsaOk signKey (slice img 352 96) (Config.sha384 (img.take 160)) then some 352
  else if body = 0 ∨ 3145728 < body then some 12
  else if hashBytes (Config.sha384 (slice img 512 body)) ≠ slice img 16 48 then some 16
  else none

/-- FW_VERSION of an image (R470). -/
def fwVersion (img : List Byte) : Nat := leAt img 4 4

/-- Banks of P0 and P2 by number: 0 A, 1 B. -/
def Flash.bank (f : Flash) (die b : Nat) : FwBank := if die = 2 then (if b = 0 then f.p2A else f.p2B) else if b = 0 then f.p0A else f.p0B
def Flash.setBank (f : Flash) (die b : Nat) (x : FwBank) : Flash :=
  if die = 2 then (if b = 0 then { f with p2A := x } else { f with p2B := x }) else if b = 0 then { f with p0A := x } else { f with p0B := x }

/-- Security fuses that the primary Geode checks with. -/
def Dev.secFuse (d : Dev) (die : Nat) : SecFuse := if die = 2 then d.fuses.p2 else d.fuses.p0

/-- Write an image into a bank of P0 and P2 and verify it from flash (R471): marked verified or invalid. -/
def Dev.writeBank (d : Dev) (b : Nat) (img : List Byte) : Dev :=
  let ok := (fwFlaw (d.secFuse d.bed.primary) img).isNone
  let x : FwBank := ⟨img, ok, true⟩
  let f := d.flash.setBank 0 b x
  { d with flash := if d.flash.p2Present then f.setBank 2 b x else f }

/-- R451, R471: FW_STAGE writes a bank that is not active, then verifies it from flash. -/
def fwStageSpec : MbxSpec where
  opcode := 0x0060
  roles := 6
  m0 := 1
  inBuf := true
  targets := fun c => [tgtBank (fld c.a0 0 1)]
  run := fun c d =>
    let b := fld c.a0 0 1
    if b = d.bed.activeBank then reject stConflict detailState
    else .go { old := (d.flash.bank d.bed.primary b).image, effect := fun d =>
      let d' := d.writeBank b c.buffer
      match fwFlaw (d.secFuse d.bed.primary) c.buffer with
      | none => (d', {})
      | some o => (d', { status := stBad, detail := bufferDetail stBad o }) }
def execFwStage (c : MbxCmd) (s : State) : Host.Outcome State Fault Refusal := s.live (mbxRow fwStageSpec none c)

/-! ## The calibration cache -/

/-- Digest of the VARIANT and REPAIR fuses of all dies (R545), which is also measurement 4 (R483). -/
def Dev.unitFuseDigest (d : Dev) : BitVec 384 :=
  Config.sha384 ((upTo 4).flatMap (fun p => natLe 12 (tabGet 0 p d.fuses.variant).toNat ++ natLe 256 (tabGet 0 p d.fuses.repair).toNat))

/-- BIV of the running firmware (R470). -/
def Dev.runningBiv (d : Dev) : BitVec 384 := BitVec.ofNat 384 (leAt (d.flash.bank d.bed.primary d.bed.activeBank).image 11 1)

/-- Write the calibration cache with its two-copy commit (R495, R545, R550, R564). -/
def Dev.saveCal (d : Dev) : Dev :=
  { d with boot.cache := { digest := d.unitFuseDigest, biv := d.runningBiv, tj := d.therm.tj
                           trims := (upTo 8).foldl (fun t h => tabSet 0 h (d.getHalfPow h).trim t) [] }
           flash.calRec := d.flash.calRec.commit }

/-- The target of a CAL_RUN (R449). -/
def calTarget (kind index : Nat) : Nat := if kind = 0 then tgtPort index else if kind = 1 then tgtStack index else tgtRail index

/-- R495, R564: CAL_RUN starts a live recalibration; TRIM of a rail is frozen while its monitors are recalibrated. -/
def calRunSpec : MbxSpec where
  opcode := 0x0062
  roles := 2
  m0 := 0x1F03
  targets := fun c => [calTarget (fld c.a0 0 2) (fld c.a0 8 5)]
  run := fun c _ =>
    let kind := fld c.a0 0 2
    let index := fld c.a0 8 5
    if kind = 3 then reject stBad 24
    else if (if kind = 2 then 8 else 20) ≤ index then reject stRange 25
    else .go { effect := fun d =>
      (if kind = 2 then d.modHalfPow index (fun p => { p with frozen := true }) else d, { waits := true }) }
def execCalRun (c : MbxCmd) (s : State) : Host.Outcome State Fault Refusal := s.live (mbxRow calRunSpec none c)

/-- A CAL_RUN of a unit executes. -/
def calWaits (kind index : Nat) (w : Waiting) : Bool := w.opcode == 0x0062 && fld w.a0 0 2 == kind && fld w.a0 8 5 == index

/-- R490, R564: a live recalibration ends: a port whose error ratio is out of bounds retrains, a rail's TRIM moves again and its regulator is tried again,
and the cache is written. -/
def calRunDone (kind index : Nat) (ratioOk : Bool) (d : Dev) : Dev :=
  d.gate (d.host.waiting.any (calWaits kind index)) (fun d =>
    let d :=
      if kind = 0 then (if ratioOk then d else d.retrain index 2)
      else if kind = 2 then (d.modHalfPow index (fun p => { p with frozen := false, regulatorBad := false, tries := 0 })).newSetpoint index
      else d
    d.saveCal.completeAll (calWaits kind index) (fun _ => {}))
def execCalRunDone (kind index : Nat) (ratioOk : Bool) (s : State) : Host.Outcome State Fault Refusal := s.live (calRunDone kind index ratioOk)

end Sys2Proof.Machine
end

