-- ==== Sys2Proof/Machine/MbxMisc.lean ====
section
/-! DEFINITION. The mailbox commands CAIRN_SET (R343), ASSAY_CONFIG with the Assay units (R580 to R585), OWNERSHIP_TAKE (R473, R474), FUSE_PROGRAM
(R469, R475), REG_ACCESS (R451) and DEBUG_UNLOCK (R487, R488). -/

namespace Sys2Proof.Machine

/-! ## CAIRN_SET -/

/-- The cycle at which a value arrives over the control ring: after everything the half has done so far (log entry 47). -/
def Dev.cairnNow (d : Dev) (half : Nat) : Nat := (d.cairnTimes half (2 ^ 64)).foldl (fun t x => max t (x + 1)) (d.now half 0)

/-- R343, R344: the value applies on port 3, and the waiters are evaluated; a running owner's job is marked as touched by hand. -/
def Dev.cairnSet (d : Dev) (tile index v : Nat) : Dev :=
  let half := halfOfTile tile
  let t := d.cairnNow half
  let d := ((d.cairnFlush half t).setCairn tile index v).evalCairn tile index t
  let d := d.modCairnTile tile (fun x => { x with setSeen := true })
  match d.cairnOwner tile index with
  | some n => if (d.getPart n).running then d.modPart n (fun p => { p with job := { p.job with byHand := true } }) else d
  | none => d

/-- R343: CAIRN_SET. -/
def cairnSetSpec : MbxSpec where
  opcode := 0x0090
  roles := 6
  m0 := 0xFFFF
  m1 := 2 ^ 64 - 1
  run := fun c d =>
    let tile := 16 * fld c.a0 0 2 + fld c.a0 2 4
    let index := fld c.a0 6 10
    if cairnMax < c.a1 then reject stRange 32
    else plan (natLe 4 (d.cairnValue tile index)) (natLe 4 c.a1) (fun d => d.cairnSet tile index c.a1) 0 0
def execCairnSet (c : MbxCmd) (s : State) : Host.Outcome State Fault Refusal := s.live (mbxRow cairnSetSpec none c)

/-! ## Assay units -/

/-- A parameter block (R580). -/
def assayBlk (b : List Byte) : AssayBlk :=
  let flags := leAt b 1 1
  { width := leAt b 0 1, enable := flags.testBit 0, refin := flags.testBit 1, refout := flags.testBit 2, check := flags.testBit 3
    oneShot := flags.testBit 4, source := leAt b 2 1, port := leAt b 3 1, interval := if leAt b 4 4 = 0 then 64 else leAt b 4 4
    poly := leAt b 8 8, init := leAt b 16 8, xorout := leAt b 24 8, expected := leAt b 32 8, base := leAt b 40 6
    partition := leAt b 46 1, length := leAt b 48 6 }

/-- A block as the bytes of R580. -/
def AssayBlk.bytes (a : AssayBlk) : List Byte :=
  natLe 1 a.width ++ natLe 1 (bf [(0, 1, b2n a.enable), (1, 1, b2n a.refin), (2, 1, b2n a.refout), (3, 1, b2n a.check), (4, 1, b2n a.oneShot)])
    ++ natLe 1 a.source ++ natLe 1 a.port ++ natLe 4 a.interval ++ natLe 8 a.poly ++ natLe 8 a.init ++ natLe 8 a.xorout ++ natLe 8 a.expected
    ++ natLe 6 a.base ++ natLe 1 a.partition ++ natLe 1 0 ++ natLe 6 a.length ++ natLe 10 0

/-- End of the run of populated SRAM or HBM of a die that holds an address (R581, R292, R293). -/
def Dev.runEnd (d : Dev) (a : Nat) : Option Nat :=
  match d.locate a with
  | .quarry p n _ => some (dpaQuarry p n 0x2000000)
  | .store p s _ => some (dpaStore p s 0x1800000)
  | .cluster p k _ => some (dpaCluster p k 0x800000)
  | .hbm p n _ =>
    let r := d.getRegion (16 * p + n)
    if r.stackList.all (fun m => d.caps.stackOn (5 * p + m)) then some (p * 2 ^ 46 + r.first + r.bytes) else none
  | _ => none

/-- A range lies in populated SRAM or HBM regions; `fuel` bounds the runs it may cross. -/
def Dev.populated (d : Dev) (a len : Nat) : Nat → Bool
  | 0 => false
  | fuel + 1 =>
    match d.runEnd a with
    | some e => decide (a + len ≤ e) || d.populated e (len - (e - a)) fuel
    | none => false

/-- A port is one of a die's (R580): its vein ports, and the D2D links at its two endpoints. -/
def portOfDie (die n : Nat) : Bool := (upTo 24).any (fun e => linkReg e == n && linkDie e == die)

/-- What a block fails: status and DETAIL, in the order of R581; among fields that fail BAD_FIELD the unit index comes first, then the lowest offset
(log entry 48). -/
def Dev.assayFlaw (d : Dev) (c : MbxCmd) : Option (Nat × Nat) :=
  let b := c.buffer
  let w := leAt b 0 1
  let die := fld c.a0 5 2
  let src := leAt b 2 1
  let at_ := fun (st off : Nat) => some (st, bufferDetail st off)
  let bad := fun (off : Nat) (x : Bool) => if x then [off] else []
  let wide := fun (off : Nat) => bad off (decide (2 ^ w ≤ leAt b off 8))
  let ranged : Bool := src == 0
  let base := leAt b 40 6
  let len := leAt b 48 6
  let flaws := bad 1 (decide (32 ≤ leAt b 1 1)) ++ bad 2 (decide (3 < src))
    ++ bad 3 (if src = 1 ∨ src = 2 then !portOfDie die (leAt b 3 1) else leAt b 3 1 != 0)
    ++ wide 8 ++ wide 16 ++ wide 24 ++ wide 32
    ++ bad 40 (ranged && (base % 64 != 0 || base / 2 ^ 46 != die || (d.runEnd base).isNone))
    ++ bad 46 (decide (8 ≤ leAt b 46 1) && leAt b 46 1 != 0xFF) ++ bad 47 (leAt b 47 1 != 0)
    ++ bad 48 (ranged && (len == 0 || len % 64 != 0 || !d.populated base len 40))
    ++ (match (upTo 10).find? (fun i => leAt b (54 + i) 1 != 0) with | some i => [54 + i] | none => [])
  if c.bufLen ≠ 64 then some (stBad, 16)
  else if w < 8 ∨ 64 < w then at_ stRange 0
  else if 16777216 < leAt b 4 4 then at_ stRange 4
  else if 7 < fld c.a0 0 5 then some (stBad, 24)
  else match flaws with
    | o :: _ => at_ stBad o
    | [] => none

/-- R581: ASSAY_CONFIG; the block takes effect at the next beat edge. -/
def assayConfigSpec : MbxSpec where
  opcode := 0x0091
  roles := 6
  m0 := 0x7F
  inBuf := true
  targets := fun c => [0x700 + fld c.a0 0 7]
  run := fun c d =>
    let u := 8 * fld c.a0 5 2 + fld c.a0 0 5
    match d.assayFlaw c with
    | some f => reject f.1 f.2
    | none => plan (d.getAssay u).blk.bytes [] (fun d => d.modAssay u (fun a => { a with pend := some (assayBlk c.buffer) })) 0 0
def execAssayConfig (c : MbxCmd) (s : State) : Host.Outcome State Fault Refusal := s.live (mbxRow assayConfigSpec none c)

/-- A block takes effect (R581, R584): INIT, a fresh interval count, and RUNNING, or IDLE while its partition runs no lockstep job. -/
def Dev.assayStart (d : Dev) (u : Nat) (b : AssayBlk) : Dev :=
  let idle : Bool := b.partition != 0xFF && !(d.getPart b.partition).lockRun
  d.modAssay u (fun a => { a with blk := b, pend := none, reg := b.init, count := 0, state := if !b.enable then 0 else if idle then 2 else 1 })

/-- The value an interval closes with (R582). -/
def AssayBlk.out (b : AssayBlk) (reg : Nat) : Nat := (if b.refout then revBits b.width reg else reg) ^^^ b.xorout

/-- An interval closes (R582) that a job beat ends: the value, the check, and INIT or DONE. -/
def Dev.assayClose (d : Dev) (u beat : Nat) : Dev :=
  let a := d.getAssay u
  let out := a.blk.out a.reg
  let bad : Bool := a.blk.check && out != a.blk.expected
  let d := d.modAssay u (fun a => { a with
    value := out, reg := a.blk.init, count := 0, intervals := wrapAdd 24 a.intervals 1
    state := if a.blk.oneShot then 3 else a.state, mismatchSeen := a.mismatchSeen || bad })
  if bad then
    d.raise { code := 0x0501, cause := 5, sev := 2, die := u / 8, addr := if a.blk.partition < 8 then beat else 0
              valueA := out, valueB := a.blk.expected, key := u }
  else d

/-- The unit counts beats: it runs on another source than FEED (R584). -/
def Assay.counts (a : Assay) : Bool := a.state == 1 && a.blk.source != 3

/-- R582, R584: the interval of a unit has its full count of beats and closes. -/
def assayIntervalClose (die unit : Nat) (d : Dev) : Dev :=
  let u := 8 * die + unit
  d.gate (decide (die < 4) && decide (unit < 8) && (d.getAssay u).counts && decide ((d.getAssay u).blk.interval ≤ (d.getAssay u).count)) (fun d =>
    d.assayClose u (d.lastJobBeat (d.getAssay u).blk.partition))
def execAssayIntervalClose (die unit : Nat) (s : State) : Host.Outcome State Fault Refusal := s.live (assayIntervalClose die unit)

/-- A beat edge of one unit (R581, R584): it counts an edge that belongs to it, an interval that this edge ends closes before a new block takes effect,
and a unit without a lockstep job of its partition is IDLE. -/
def Dev.assayEdge (d : Dev) (held : Bool) (u : Nat) : Dev :=
  let a := d.getAssay u
  let b := a.blk
  let mine : Bool := b.partition == 0xFF || ((d.getPart b.partition).lockRun && !(d.getPart b.partition).job.waitStart && !held)
  let beat := (d.getPart b.partition).job.jobBeat
  let d := if a.counts ∧ b.interval ≤ a.count then d.assayClose u beat else d
  let d := if (d.getAssay u).counts ∧ mine then d.modAssay u (fun a => { a with count := a.count + 1 }) else d
  let d := if b.partition < 8 ∧ a.state = 1 ∧ ¬(d.getPart b.partition).lockRun then d.modAssay u (fun a => { a with state := 2 }) else d
  match a.pend with
  | none => d
  | some n =>
    let d := if (d.getAssay u).counts ∧ b.interval ≤ (d.getAssay u).count then d.assayClose u beat else d
    d.assayStart u n

/-- A write of AssayFeed (R585): VALID feeds BYTE, FINISH closes the interval after it; only a FEED unit that runs acts on it (R583, R584). -/
def Dev.assayFeed (d : Dev) (u v : Nat) : Dev :=
  d.gate ((d.getAssay u).blk.source == 3 && (d.getAssay u).state == 1) (fun d =>
    let d := if v.testBit 8 then d.modAssay u (fun a => a.feed [BitVec.ofNat 8 v]) else d
    if v.testBit 9 then d.assayClose u (d.getPart (d.getAssay u).blk.partition).job.jobBeat else d)

/-- An MMIO offset is AssayFeed of a unit. -/
def assayFeedAt (off : Nat) : Option Nat := if off / 0x100000 = 8 ∧ off % 0x100000 < 0x200 ∧ off % 0x40 = 4 then some (off % 0x100000 / 0x40) else none

/-! ## OWNERSHIP_TAKE and fuses -/

/-- The enrolled slot (R474): the highest with VALID = 1 and REVOKED = 0. -/
def SecFuse.enrolled (f : SecFuse) : Option Nat :=
  (upTo 8).reverse.find? (fun i => (tabGet {} i f.slots).valid && !(tabGet {} i f.slots).revoked)

/-- A slot is free: none of its bits is burned (R473). -/
def SecFuse.freeSlot (f : SecFuse) : Option Nat := (upTo 8).find? (fun i => tabGet ({} : OwnerSlot) i f.slots == {})

/-- Change a slot. -/
def SecFuse.setSlot (f : SecFuse) (i : Nat) (g : OwnerSlot → OwnerSlot) : SecFuse := { f with slots := tabSet {} i (g (tabGet {} i f.slots)) f.slots }

/-- The bytes of a slot: HASH, then VALID and REVOKED. -/
def OwnerSlot.bytes (s : OwnerSlot) : List Byte := hashBytes s.hash ++ natLe 1 (b2n s.valid + 2 * b2n s.revoked)

/-- What the buffer of OWNERSHIP_TAKE fails (R473): its byte. -/
def ownFlaw (c : MbxCmd) : Option Nat :=
  let key := c.buffer.take 96
  if c.bufLen ≠ 256 then some 16
  else if !Config.pointOk key then some (bufferDetail stBad 0)
  else if !Config.ecdsaOk key (slice c.buffer 96 96) (Config.sha384 (key ++ natLe 8 Config.deviceUid)) then some (bufferDetail stBad 96)
  else match (upTo 64).find? (fun i => leAt c.buffer (192 + i) 1 != 0) with
    | some i => some (bufferDetail stBad (192 + i))
    | none => none

/-- R473, R474: OWNERSHIP_TAKE on ring 64: the key goes to flash, HASH and VALID into the lowest free slot of P0 and P2. -/
def ownershipTakeSpec : MbxSpec where
  opcode := 0x0002
  roles := 2
  inBuf := true
  run := fun c d =>
    let key := c.buffer.take 96
    let f := d.secFuse d.bed.primary
    if d.bed.owned then reject stConflict detailState
    else match ownFlaw c, f.freeSlot with
      | some o, _ => reject stBad o
      | none, none => reject stNoResource 0
      | none, some i =>
        let burn := fun (x : SecFuse) => x.setSlot i (fun _ => { hash := Config.sha384 key, valid := true })
        plan (tabGet ({} : OwnerSlot) i f.slots).bytes [] (fun d => { d with
          flash.ownerKey := key, flash.ownerRec := d.flash.ownerRec.commit, fuses.p0 := burn d.fuses.p0, fuses.p2 := burn d.fuses.p2
          bed.owned := true }) 0 0
def execOwnershipTake (c : MbxCmd) (s : State) : Host.Outcome State Fault Refusal := s.live (mbxRow ownershipTakeSpec none c)

/-- A fuse entry (R469): FIELD and BIT. -/
structure FuseEntry where
  field : Nat
  bit : Nat

/-- The entries of the buffer. -/
def fuseEntries (b : List Byte) : List FuseEntry := (upTo (b.length / 8)).map (fun i => ⟨leAt b (8 * i) 2, leAt b (8 * i + 2) 2⟩)

/-- Highest BIT of a field, or none where FIELD is unknown (R469, R542). -/
def fuseLimit (field : Nat) : Option Nat :=
  if field = 1 then some 15 else if field = 2 then some 64 else if field = 3 then some 7 else if field = 4 then some 0
  else if 0x10 ≤ field ∧ field < 0x14 then some 2047 else if 0x20 ≤ field ∧ field < 0x24 then some 95 else none

/-- Byte of the first entry field that is unknown, out of its range or reserved. -/
def fuseFlaw (b : List Byte) : Option Nat :=
  (upTo (b.length / 8)).findSome? (fun i =>
    match fuseLimit (leAt b (8 * i) 2) with
    | none => some (8 * i)
    | some m => if m < leAt b (8 * i + 2) 2 then some (8 * i + 2) else if leAt b (8 * i + 4) 4 ≠ 0 then some (8 * i + 4) else none)

/-- The entries take a bank out of use (R469): its key is revoked or its SVN lies below the new one. -/
def fuseKills (es : List FuseEntry) (k : FwBank) : Bool :=
  es.any (fun e => (e.field == 1 && e.bit == leAt k.image 10 1) || (e.field == 2 && decide (leAt k.image 8 2 < e.bit)))

/-- Banks of both Geodes that hold a verified image. -/
def Flash.verified (f : Flash) : List FwBank := ([f.p0A, f.p0B] ++ (if f.p2Present then [f.p2A, f.p2B] else [])).filter (·.verified)

/-- The REPAIR or VARIANT entries name a die whose partition runs or drains (R469). -/
def Dev.fuseBusy (d : Dev) (es : List FuseEntry) : Bool :=
  es.any (fun e => decide (0x10 ≤ e.field) && (upTo 8).any (fun n => (d.getPart n).busy && (d.getPart n).dies.contains (e.field % 16)))

/-- Burn one entry into the security fuses of P0 or P2. -/
def SecFuse.burn (f : SecFuse) (e : FuseEntry) : SecFuse :=
  if e.field = 1 then { f with keyRevoke := f.keyRevoke ||| 2 ^ e.bit }
  else if e.field = 2 then { f with svn := max f.svn e.bit }
  else if e.field = 3 then f.setSlot e.bit (fun s => { s with revoked := true })
  else if e.field = 4 then { f with debugDisable := true }
  else f

/-- Burn one entry, on P0, on P2 or on neither as `on` says. A die's REPAIR and VARIANT fuses follow the first of the two. -/
def Fuses.burn (f : Fuses) (e : FuseEntry) (on : Bool × Bool) : Fuses :=
  let die := e.field % 16
  let f := { f with p0 := if on.1 then f.p0.burn e else f.p0, p2 := if on.2 then f.p2.burn e else f.p2 }
  if on.1 ∧ 0x10 ≤ e.field ∧ e.field < 0x14 then { f with repair := tabSet 0 die (tabGet 0 die f.repair ||| BitVec.ofNat 2048 (2 ^ e.bit)) f.repair }
  else if on.1 ∧ 0x20 ≤ e.field then { f with variant := tabSet 0 die (tabGet 0 die f.variant ||| BitVec.ofNat 96 (2 ^ e.bit)) f.variant }
  else f

/-- Burn every entry. Where a burn fails to verify, which of the bits are burned is left open: free values decide (log entry 49). -/
def Dev.burnAll (d : Dev) (es : List FuseEntry) (fails : Bool) : Dev :=
  Dev.each es (fun d e =>
    if fails then
      let (k, d) := d.draw
      { d with fuses := d.fuses.burn e ((Config.freeBits k).getLsbD 0, (Config.freeBits k).getLsbD 1) }
    else { d with fuses := d.fuses.burn e (true, true) }) d

/-- The fuse fields that the entries write, as bytes in ascending field order (R481). -/
def Dev.fuseBytes (d : Dev) (es : List FuseEntry) : List Byte :=
  let f := d.secFuse d.bed.primary
  let has := fun k => es.any (fun e => e.field == k)
  (if has 1 then natLe 2 f.keyRevoke else []) ++ (if has 2 then natLe 8 (2 ^ f.svn - 1) else [])
    ++ (if has 3 then (upTo 8).flatMap (fun i => (tabGet ({} : OwnerSlot) i f.slots).bytes) else []) ++ (if has 4 then natLe 1 (b2n f.debugDisable) else [])
    ++ (upTo 4).flatMap (fun p => if has (0x10 + p) then natLe 256 (tabGet 0 p d.fuses.repair).toNat else [])
    ++ (upTo 4).flatMap (fun p => if has (0x20 + p) then natLe 12 (tabGet 0 p d.fuses.variant).toNat else [])

/-- The enrolment follows the fuses (R475): once no slot is enrolled the Installer's session closes and OWNED reads 0. -/
def Dev.ownerGone (d : Dev) : Dev :=
  if d.bed.owned ∧ (d.secFuse d.bed.primary).enrolled.isNone then { d.closeSession 64 with bed.owned := false } else d

/-- R469: FUSE_PROGRAM. -/
def fuseProgramSpec : MbxSpec where
  opcode := 0x00A0
  roles := 4
  inBuf := true
  run := fun c d =>
    let es := fuseEntries c.buffer
    let ks := d.flash.verified
    if c.bufLen % 8 ≠ 0 ∨ 4096 < c.bufLen then reject stBad 16
    else match fuseFlaw c.buffer with
      | some o => reject stBad (bufferDetail stBad o)
      | none =>
        if !ks.isEmpty && ks.all (fuseKills es) then reject stConflict detailState
        else if d.fuseBusy es then reject stConflict detailState
        else .go { old := d.fuseBytes es, effect := fun d =>
          ((d.burnAll es c.burnFails).ownerGone, if c.burnFails then { status := stInternal, detail := 3 } else {}) }
def execFuseProgram (c : MbxCmd) (s : State) : Host.Outcome State Fault Refusal := s.live (mbxRow fuseProgramSpec none c)

/-! ## REG_ACCESS and DEBUG_UNLOCK -/

/-- A 4- or 8-byte write of a register by the Maker: AssayFeed acts on what is written, every other register follows `mmioWrite`. -/
def Dev.makerWrite (d : Dev) (p off size v : Nat) : Dev :=
  let d := d.mmioWrite p off size v .maker
  let d := match assayFeedAt off with
    | some u => d.assayFeed (8 * p + u) (v % 2 ^ 32)
    | none => d
  match (if size = 8 then assayFeedAt (off + 4) else none) with
  | some u => d.assayFeed (8 * p + u) (v / 2 ^ 32)
  | none => d

/-- Registers of the MMIO map with a field whose Writer includes M: AssayStatus and AssayFeed (R585). -/
def makerMay (off : Nat) : Bool := decide (off / 0x100000 = 8 ∧ off % 0x100000 < 0x200 ∧ off % 0x40 < 8)

/-- R11, R451: REG_ACCESS reads a register, or writes one that the Maker may write and otherwise completes with DENIED_ROLE; RESULT0 is the value
read. -/
def regAccessSpec : MbxSpec where
  opcode := 0x00A1
  roles := 4
  m0 := 2 ^ 48 - 1
  m1 := 3
  m2 := 2 ^ 64 - 1
  run := fun c d =>
    let size := if c.a1.testBit 1 then 8 else 4
    match mmioPlace c.a0 with
    | none => reject stRange 24
    | some (p, off) =>
      if off % size ≠ 0 then reject stBad 24
      else if size = 4 ∧ 2 ^ 32 ≤ c.a2 then reject stBad 40
      else if c.a1.testBit 0 ∧ !makerMay off then reject stDenied 0
      else
        let old := natLe size (d.mmioRead p off size)
        let write := c.a1.testBit 0
        .go { old := old, new := if write then natLe size c.a2 else old, effect := fun d =>
          let d' := if write then d.makerWrite p off size c.a2 else d
          (d', { r0 := d'.mmioRead p off size }) }
def execRegAccess (c : MbxCmd) (s : State) : Host.Outcome State Fault Refusal := s.live (mbxRow regAccessSpec none c)

/-- The bytes of BOOT_NONCE. -/
def Dev.nonceBytes (d : Dev) : List Byte := natLe 16 d.sec.nonce.toNat

/-- What a debug token fails (R488): its byte. -/
def Dev.tokenFlaw (d : Dev) (t : List Byte) (len : Nat) : Option Nat :=
  let scope := leAt t 24 1
  let key := slice t 32 96
  if len ≠ 224 then some 16
  else if Config.sha384 key ≠ Config.rootHash then some (bufferDetail stBad 32)
  else if !Config.ecdsaOk key (slice t 128 96) (Config.sha384 (t.take 32)) then some (bufferDetail stBad 128)
  else if slice t 0 8 ≠ natLe 8 Config.deviceUid then some (bufferDetail stBad 0)
  else if slice t 8 16 ≠ d.nonceBytes then some (bufferDetail stBad 8)
  else if scope = 0 ∨ 16 ≤ scope then some (bufferDetail stBad 24)
  else match (upTo 7).find? (fun i => leAt t (25 + i) 1 != 0) with
    | some i => some (bufferDetail stBad (25 + i))
    | none => none

/-- R487, R488: DEBUG_UNLOCK adds a scope. -/
def debugUnlockSpec : MbxSpec where
  opcode := 0x00A2
  roles := 4
  inBuf := true
  run := fun c d =>
    let scope := leAt c.buffer 24 1
    if (d.secFuse d.bed.primary).debugDisable then reject stDenied 0
    else match d.tokenFlaw c.buffer c.bufLen with
      | some o => reject stBad o
      | none =>
        if (scope.testBit 0 || scope.testBit 2) && d.anyBusy then reject stConflict detailState
        else plan (natLe 1 d.sec.debugScope) [] (fun d => { d with sec.debugScope := d.sec.debugScope ||| scope }) 0 0
def execDebugUnlock (c : MbxCmd) (s : State) : Host.Outcome State Fault Refusal := s.live (mbxRow debugUnlockSpec none c)

end Sys2Proof.Machine
end

