-- ==== Sys2Proof/Machine/Units.lean ====
section
/-! DEFINITION. Units that leave service and return (R4, R129, R277, R304 to R307, R451, R452, R541, R554). A unit is (KIND, die, index, sub-index)
as UNIT_RETIRE names it. -/

namespace Sys2Proof.Machine

/-- KIND, die, index and sub-index. -/
abbrev UnitId := Nat × Nat × Nat × Nat

/-- The unit that A0 names (R451); a KIND without sub-index reads 0 there. -/
def unitOf (a0 : Nat) : UnitId :=
  let kind := fld a0 0 3
  (kind, fld a0 4 2, fld a0 8 8, if kind = 0 ∨ kind = 3 then 0 else fld a0 16 8)

/-- Numbers of indices and sub-indices of a KIND. -/
def unitCounts (kind : Nat) : Nat × Nat :=
  if kind = 0 then (8, 1) else if kind = 1 then (8, 4) else if kind = 2 then (8, 8) else if kind = 3 then (4, 1) else if kind = 4 then (5, 64) else (5, 32)

/-- Check of the unit's fields: status and byte. -/
def unitFail (u : UnitId) : Option (Nat × Nat) :=
  if 5 < u.1 then some (stBad, 24)
  else if (unitCounts u.1).1 ≤ u.2.2.1 then some (stRange, 25)
  else if (unitCounts u.1).2 ≤ u.2.2.2 then some (stRange, 26)
  else none

/-- The unit that an event or the operand of UNIT_LEAVE_SERVICE names: slab 8p + s, package port. -/
def unitAt (kind index sub : Nat) : UnitId := if kind = 3 then (3, index / 4, index % 4, 0) else (kind, index / 8, index % 8, if kind = 1 then sub else 0)

/-- The capability word that reports a unit (R2, R433). -/
def Dev.capWord (d : Dev) (u : UnitId) : Nat :=
  if u.1 < 2 then d.capSlabMap u.2.1 else if u.1 = 2 then d.capPebbleMap u.2.1 else if u.1 = 3 then d.capVeinMap
  else d.capHbmMap (5 * u.2.1 + u.2.2.1)

/-- A unit is in service (R2 to R4). -/
def Dev.unitOn (d : Dev) (u : UnitId) : Bool :=
  let (kind, die, i, sub) := u
  if kind = 0 then d.caps.slabOn die i
  else if kind = 1 then d.caps.slabOn die i && (d.caps.arraysOf die i).testBit sub
  else if kind = 2 then decide (sub < d.caps.namesOf (8 * die + i)) && !d.caps.disabled.contains u && !d.caps.retired.contains u
  else if kind = 3 then d.caps.veins.testBit (4 * die + i)
  else if kind = 4 then d.caps.stackOn (5 * die + i) && !(d.getStack (5 * die + i)).pcRetired.testBit sub
  else d.caps.stackOn (5 * die + i)
    && !((d.getStack (5 * die + i)).pcRetired.testBit (2 * sub) && (d.getStack (5 * die + i)).pcRetired.testBit (2 * sub + 1))

/-- The repair-log entry of a retired unit: UNIT_OFF of R543, under its die. -/
def unitOffEntry (u : UnitId) : Nat := 2 ^ 31 + 4 * 2 ^ 27 + u.2.2.2 * 2 ^ 11 + u.2.2.1 * 8 + u.1

/-- EV_UNIT_RETIRED (R569). -/
def unitEv (u : UnitId) (cause : Nat) : Ev :=
  let (kind, die, i, sub) := u
  let e : Ev := { code := 0x0802, cause := cause, sev := 1, die := die }
  if kind = 0 then { e with cls := 1, idx := unitSlab i }
  else if kind = 1 then { e with cls := 1, idx := unitSlab i, sub := sub }
  else if kind = 2 then { e with cls := 1, idx := unitCluster i, sub := sub }
  else if kind = 3 then { e with cls := 2, idx := 4 * die + i }
  else { e with cls := 3, idx := 5 * die + i, sub := if kind = 4 then sub else 2 * sub }

/-- The capability words have changed (R4), and the PDR repository is rebuilt (R574). -/
def Dev.capsChanged (d : Dev) : Dev :=
  { d with caps.generation := wrapAdd 32 d.caps.generation 1, mgmt.pdrSignature := wrapAdd 32 d.mgmt.pdrSignature 1 }

/-- A command that waits for a unit to leave service. -/
def unitWaits (u : UnitId) (w : Waiting) : Bool := (w.opcode == 0x0070 || w.opcode == 0x0072) && unitOf w.a0 == u

/-- A retirement by UNIT_RETIRE is recorded for the next boot (R451, R541). -/
def Dev.logUnit (d : Dev) (u : UnitId) : Dev :=
  { d with flash.repairLog := d.flash.repairLog ++ [(u.2.1, unitOffEntry u)], flash.repairRec := d.flash.repairRec.commit }

/-- A unit has left service: it is listed as retired or disabled, the words count the change, and the command completes (R4, R452). -/
def Dev.unitGone (d : Dev) (u : UnitId) : Dev :=
  let retire := d.host.waiting.any (fun w => unitWaits u w && w.opcode == 0x0070)
  let d := { d with caps.leaving := d.caps.leaving.filter (· != u) }
  let d := if retire then ({ d with caps.retired := d.caps.retired ++ [u] }).logUnit u else { d with caps.disabled := d.caps.disabled ++ [u] }
  d.capsChanged.completeAll (unitWaits u) (fun _ => {})

/-! ## Slabs, arrays, vein ports -/

/-- No pass streams in a slab (R129, R452). -/
def SlabSeq.atBoundary (s : SlabSeq) : Bool :=
  match s.active with
  | some a => decide (a.c + a.d ≤ s.cur)
  | none => true

/-- What leaving service does to a slab, an array or a vein port, and to the word that reports it. -/
def Dev.takeOut (d : Dev) (u : UnitId) : Dev :=
  let (kind, die, i, sub) := u
  if kind = 0 then
    { (d.modSlab (8 * die + i) (fun s => { s with regs.retired := true })) with
      caps.slabs := tabSet 0xFF die ((tabGet 0xFF die d.caps.slabs) &&& (0xFF ^^^ 2 ^ i)) d.caps.slabs }
  else if kind = 1 then
    { (d.modSlab (8 * die + i) (fun s => { s with regs.arraysOff := s.regs.arraysOff ||| 2 ^ sub })) with
      caps.arrays := tabSet 0xFFFFFFFF die ((tabGet 0xFFFFFFFF die d.caps.arrays) &&& (0xFFFFFFFF ^^^ 2 ^ (4 * i + sub))) d.caps.arrays }
  else if kind = 3 then { (d.disablePort (4 * die + i)) with caps.veins := d.caps.veins &&& (0xFFFF ^^^ 2 ^ (4 * die + i)) }
  else d

/-- The inverse, at UNIT_ENABLE (R554): a vein port whose LinkConfig enables it trains again. -/
def Dev.putBack (d : Dev) (u : UnitId) : Dev :=
  let (kind, die, i, sub) := u
  if kind = 0 then
    { (d.modSlab (8 * die + i) (fun s => { s with regs.retired := false })) with
      caps.slabs := tabSet 0xFF die ((tabGet 0xFF die d.caps.slabs) ||| 2 ^ i) d.caps.slabs }
  else if kind = 1 then
    { (d.modSlab (8 * die + i) (fun s => { s with regs.arraysOff := s.regs.arraysOff &&& (0xF ^^^ 2 ^ sub) })) with
      caps.arrays := tabSet 0xFFFFFFFF die ((tabGet 0xFFFFFFFF die d.caps.arrays) ||| 2 ^ (4 * i + sub)) d.caps.arrays }
  else if kind = 3 then
    let n := 4 * die + i
    let d := { d with caps.veins := d.caps.veins ||| 2 ^ n }
    if (d.getLink n).regs.enable then d.beginAttempt n 1 true else d
  else d

/-- R129, R452: a retired or disabled slab or array leaves service at a pass boundary of its slab, a vein port at a beat edge. -/
def unitLeaveService (kind index sub : Nat) (d : Dev) : Dev :=
  let u := unitAt kind index sub
  let ready : Bool := kind == 3 || ((kind == 0 || kind == 1) && (d.getSlab index).seq.atBoundary)
  d.gate (ready && d.caps.leaving.contains u) (fun d => ((d.takeOut u).raise (unitEv u 1)).unitGone u)
def execUnitLeaveService (kind index sub : Nat) (s : State) : Host.Outcome State Fault Refusal := s.live (unitLeaveService kind index sub)

/-! ## Pebbles -/

/-- The partition that holds a cluster has a running or draining job. -/
def Dev.clusterBusy (d : Dev) (cluster : Nat) : Bool :=
  match d.holder (halfOfUnit cluster) with
  | some n => (d.getPart n).busy
  | none => false

/-- A pebble name starts afresh: empty instruction memory, no context bound, and an image is needed (R277). -/
def Dev.emptyPebble (d : Dev) (b : Nat) : Dev :=
  Dev.each (upTo 4) (fun d x => d.modPCtx (4 * b + x) (fun _ => {})) (d.modPebble b (fun _ => { needImage := true }))

/-- The name b takes over what the pebble behind it held (R276). -/
def Dev.shiftPebble (d : Dev) (b : Nat) : Dev :=
  let next := d.getPebble (b + 1)
  let d := d.modPebble b (fun _ => { next with needImage := true })
  Dev.each (upTo 4) (fun d x => let c := d.getPCtx (4 * (b + 1) + x); d.modPCtx (4 * b + x) (fun _ => c)) d

/-- R276, R277: the name moves to the spare if it is free, and otherwise the names are reassigned densely. -/
def Dev.remap (d : Dev) (cluster name : Nat) : Dev :=
  let names := d.caps.namesOf cluster
  match tabGet none cluster d.caps.spare with
  | none => { (d.emptyPebble (8 * cluster + name)) with caps.spare := tabSet none cluster (some name) d.caps.spare }
  | some q =>
    let d := Dev.each ((upTo names).filter (fun i => decide (name ≤ i) && decide (i + 1 < names))) (fun d i => d.shiftPebble (8 * cluster + i)) d
    let d := d.emptyPebble (8 * cluster + names - 1)
    let spare := if q = name then 8 else if name < q then q - 1 else q
    { d with caps.names := tabSet 8 cluster (names - 1) d.caps.names, caps.spare := tabSet none cluster (some spare) d.caps.spare }

/-- R277: with no running or draining job in the partition the remap of a retired pebble takes effect, and the command completes. -/
def pebbleRemap (cluster name : Nat) (d : Dev) : Dev :=
  let u : UnitId := (2, cluster / 8, cluster % 8, name)
  d.gate (d.caps.leaving.contains u && !d.clusterBusy cluster) (fun d => (d.remap cluster name).unitGone u)
def execPebbleRemap (cluster name : Nat) (s : State) : Host.Outcome State Fault Refusal := s.live (pebbleRemap cluster name)

/-- A pebble comes back (R554): the name leaves the spare, or one more name is carried. -/
def Dev.pebbleBack (d : Dev) (u : UnitId) : Dev :=
  let cluster := 8 * u.2.1 + u.2.2.1
  if tabGet none cluster d.caps.spare = some u.2.2.2 then
    { (d.emptyPebble (8 * cluster + u.2.2.2)) with caps.spare := tabSet none cluster none d.caps.spare }
  else
    let names := d.caps.namesOf cluster
    { (d.emptyPebble (8 * cluster + names)) with caps.names := tabSet 8 cluster (names + 1) d.caps.names }

/-- Contexts of a pebble that leaves service stop at the next beat edge with cause FAULT (R277). -/
def Dev.stopLeaving (d : Dev) : Dev :=
  Dev.each (d.caps.leaving.filter (fun u => u.1 == 2)) (fun d u =>
    let cluster := 8 * u.2.1 + u.2.2.1
    Dev.each (upTo 4) (fun d x =>
      let key := 4 * (8 * cluster + u.2.2.2) + x
      let c := d.getPCtx key
      if c.bound ∧ (c.state = 1 ∨ c.state = 2) then (d.stopPebCtx key 3).noteFault (d.holderNo (halfOfUnit cluster)) 3 else d) d) d

/-! ## Pseudo-channels and channels -/

/-- A cursor area of the die's HBM window touches a pseudo-channel of a stack (R298, R301). -/
def Dev.areaUses (d : Dev) (die stack pc base wrap : Nat) : Bool :=
  (upTo (min (wrap / 256 + 1) 320)).any (fun i =>
    match d.locate (die * 2 ^ 46 + base + 256 * i) with
    | .hbm _ n off => let l := d.hbmLoc die (d.getRegion (16 * die + n)) off; 5 * die + l.1 == stack && l.2.1 == pc
    | _ => false)

/-- A running lockstep job has a cursor on a pseudo-channel (R306). -/
def Dev.cursorOn (d : Dev) (stack pc : Nat) : Bool :=
  d.mesh.cursors.any (fun x =>
    let tile := x.1 / 1024
    tDie tile == stack / 5 && hbmHub tile && (tabGet (0 : Word64) x.1 d.mesh.slots).toNat.testBit 63 && d.lockHalf (tHalf tile)
      && d.areaUses (stack / 5) stack pc x.2.base x.2.wrap)

/-- Bytes that the copy of a pseudo-channel moves (R306): its share of every protected region of the stack. -/
def Dev.copyBytes (d : Dev) (stack : Nat) : Nat :=
  (d.regionsOn (stack / 5)).foldl (fun n r => if r.mode = 0 ∧ r.stackBits.testBit (stack % 5) then n + 256 * r.granules else n) 0

/-- Start the copies that no cursor holds up (R306 steps 2 and 3). -/
def Dev.startCopies (d : Dev) : Dev :=
  Dev.each (upTo 20) (fun d m =>
    match (d.getStack m).retiring with
    | some pc =>
      if (d.getStack m).migrating ∨ d.cursorOn m pc then d
      else d.modStack m (fun s => { s with migrating := true, copySince := d.clock.wall })
    | none => d) d

/-- What the copy leaves behind (R306 step 3): a group that cannot be read is written poisoned, a correctable one corrected. -/
def Dev.copied (d : Dev) (stack pc : Nat) : Dev :=
  let mine := fun (word : Nat) =>
    match d.locate (8 * word) with
    | .hbm p n off =>
      let r := d.getRegion (16 * p + n)
      let l := d.hbmLoc p r off
      r.mode == 0 && 5 * p + l.1 == stack && l.2.1 == pc
    | _ => false
  let fix := fun (m : List (Nat × WordErr)) (x : Nat × WordErr) =>
    if mine x.1 then (if x.2 = .ue then tabSet .none x.1 .poison m else if x.2 = .ce then tabSet .none x.1 .none m else m) else m
  { d with mem.err := d.mem.err.foldl fix d.mem.err }

/-- R306 steps 3 and 4: the copy has ended: the new mapping takes effect, the words change and the command completes. -/
def hbmRetireCopyDone (stack : Nat) (d : Dev) : Dev :=
  match (d.getStack stack).retiring with
  | none => d
  | some pc =>
    d.gate ((d.getStack stack).migrating && d.due (d.getStack stack).copySince (d.copyBytes stack / 128)) (fun d =>
      let u : UnitId := (4, stack / 5, stack % 5, pc)
      let whole := (d.getStack stack).retireChannel.isSome
      let cause := if whole ∨ d.host.waiting.any (unitWaits u) = true then 1 else 2
      let d := (d.copied stack pc).modStack stack (fun s => { s with
        reserveUsed := true, retiredPc := pc, migrating := false, retiring := none, pcRetired := s.pcRetired ||| 2 ^ pc })
      let d := d.raise (unitEv u cause)
      if whole then d.capsChanged else d.unitGone u)
def execHbmRetireCopyDone (stack : Nat) (s : State) : Host.Outcome State Fault Refusal := s.live (hbmRetireCopyDone stack)

/-- R452: once no lockstep cursor uses a channel that is to leave service, its lower pseudo-channel goes into an unused reserve, and what is left of it
becomes unbacked. -/
def hbmChRetireEffect (stack channel : Nat) (d : Dev) : Dev :=
  let u : UnitId := (5, stack / 5, stack % 5, channel)
  let s := d.getStack stack
  let free := !d.cursorOn stack (2 * channel) && !d.cursorOn stack (2 * channel + 1) && s.retiring.isNone
  d.gate (d.caps.leaving.contains u && free) (fun d =>
    if !s.reserveUsed then
      (d.modStack stack (fun s => { s with retiring := some (2 * channel), retireChannel := some channel })).startCopies
    else
      let d := d.modStack stack (fun s => { s with
        retireChannel := none, state := 2, pcRetired := s.pcRetired ||| 2 ^ (2 * channel) ||| 2 ^ (2 * channel + 1) })
      (d.raise (unitEv u 1)).unitGone u)
def execHbmChRetireEffect (stack channel : Nat) (s : State) : Host.Outcome State Fault Refusal := s.live (hbmChRetireEffect stack channel)

/-- R305: a pseudo-channel qualifies for retirement: with AUTO_RETIRE Bedrock retires it (R306, R482), otherwise it is advised. -/
def autoRetire (stack pc : Nat) (d : Dev) : Dev :=
  let u : UnitId := (4, stack / 5, stack % 5, pc)
  let s := d.getStack stack
  d.gate (d.unitOn u && s.retiring != some pc) (fun d =>
    if !(d.getScrub (stack / 5)).autoRetire then
      d.raise { code := evUncorrectable, cause := 5, sev := 2, die := stack / 5, cls := 3, idx := stack, sub := pc }
    else if s.reserveUsed ∨ s.retiring.isSome then d
    else
      let old := natLe 8 s.pcRetired
      let d := d.audit 3 0 0x0070 0xFF (4 + 16 * (stack / 5) + 2 ^ 8 * (stack % 5) + 2 ^ 16 * pc) old (natLe 8 (s.pcRetired ||| 2 ^ pc))
      (d.modStack stack (fun s => { s with retiring := some pc })).startCopies)
def execAutoRetire (stack pc : Nat) (s : State) : Host.Outcome State Fault Refusal := s.live (autoRetire stack pc)

/-! ## Channel retraining -/

/-- R307: a channel starts to retrain. -/
def hbmChannelRetrain (stack channel : Nat) (d : Dev) : Dev :=
  d.gate (d.caps.stackOn stack && (d.getStack stack).state != 1) (fun d =>
    d.modStack stack (fun s => { s with state := 1, retrainCh := channel, attempt := 1, attemptSince := d.clock.wall, lost := [], overflow := false }))
def execHbmChannelRetrain (stack channel : Nat) (s : State) : Host.Outcome State Fault Refusal := s.live (hbmChannelRetrain stack channel)

/-- A channel of the stack is out of service (R310). -/
def Stack.channelOut (s : Stack) : Bool := (upTo 32).any (fun c => s.pcRetired.testBit (2 * c) && s.pcRetired.testBit (2 * c + 1))

/-- Write every logged granule poisoned (R307). -/
def Dev.poisonLost (d : Dev) (stack : Nat) : Dev :=
  let lost := (d.getStack stack).lost
  let d := d.modStack stack (fun s => { s with state := if s.channelOut then 2 else 0, lost := [], lostWrites := s.lostWrites || !lost.isEmpty })
  Dev.each lost (fun d g => d.writeMem (256 * g) (poisonBytes 256) .engine) d

/-- R307: an attempt of at most 5 ms ends. Success poisons the logged granules; a second failure, or a log that overflowed, takes the channel out. -/
def hbmRetrainAttemptEnd (stack : Nat) (trained : Bool) (d : Dev) : Dev :=
  let s := d.getStack stack
  d.gate (s.state == 1 && (trained || s.overflow || d.due s.attemptSince 5000000)) (fun d =>
    if trained ∧ !s.overflow then d.poisonLost stack
    else if s.attempt = 1 ∧ !s.overflow then d.modStack stack (fun s => { s with attempt := 2, attemptSince := d.clock.wall })
    else
      let c := s.retrainCh
      let d := d.modStack stack (fun s => { s with
        state := 2, lost := [], overflow := false, pcRetired := s.pcRetired ||| 2 ^ (2 * c) ||| 2 ^ (2 * c + 1) })
      (d.raise (unitEv (5, stack / 5, stack % 5, c) 3)).capsChanged)
def execHbmRetrainAttemptEnd (stack : Nat) (trained : Bool) (s : State) : Host.Outcome State Fault Refusal := s.live (hbmRetrainAttemptEnd stack trained)

/-! ## The commands -/

/-- The effect of an accepted UNIT_RETIRE or UNIT_DISABLE (R277, R306, R452). -/
def Dev.leaveUnit (d : Dev) (u : UnitId) : Dev :=
  let d := { d with caps.leaving := d.caps.leaving ++ [u] }
  if u.1 = 2 then d.raise (unitEv u 1)
  else if u.1 = 4 then (d.modStack (5 * u.2.1 + u.2.2.1) (fun s => { s with retiring := some u.2.2.2 })).startCopies
  else d

/-- The device once a unit has left service, as the audit record foresees it (R481). -/
def Dev.unitAway (d : Dev) (u : UnitId) : Dev :=
  let bits := if u.1 = 4 then 2 ^ u.2.2.2 else 2 ^ (2 * u.2.2.2) ||| 2 ^ (2 * u.2.2.2 + 1)
  if u.1 = 2 then d.remap (8 * u.2.1 + u.2.2.1) u.2.2.2
  else if 4 ≤ u.1 then d.modStack (5 * u.2.1 + u.2.2.1) (fun s => { s with pcRetired := s.pcRetired ||| bits })
  else d.takeOut u

/-- The bytes of the capability word of a unit. -/
def Dev.capBytes (d : Dev) (u : UnitId) : List Byte := natLe (if 4 ≤ u.1 then 16 else 8) (d.capWord u)

/-- Whether a pebble's remap takes effect at once (R277). -/
def Dev.remapsNow (d : Dev) (u : UnitId) : Bool := u.1 == 2 && !d.clusterBusy (8 * u.2.1 + u.2.2.1)

/-- R129, R277, R306, R451, R452: UNIT_RETIRE and UNIT_DISABLE. -/
def leaveSpec (opcode : Nat) : MbxSpec where
  opcode := opcode
  roles := 6
  m0 := 0xFFFF37
  targets := fun c => [tgtUnit c.a0]
  run := fun c d =>
    let u := unitOf c.a0
    let st := d.getStack (5 * u.2.1 + u.2.2.1)
    match unitFail u with
    | some (st, off) => reject st off
    | none =>
      if d.caps.leaving.contains u then reject stConflict detailState
      else if !d.unitOn u then
        let keep := opcode = 0x0070 ∧ d.caps.disabled.contains u
        plan (d.capBytes u) (d.capBytes u) (fun d =>
          if keep then ({ d with caps.disabled := d.caps.disabled.filter (· != u), caps.retired := d.caps.retired ++ [u] }).logUnit u else d) 0 0
      else if u.1 = 4 ∧ (st.reserveUsed ∨ st.retiring.isSome) then reject stNoResource 0
      else if d.remapsNow u then
        let after := fun (d : Dev) => (d.raise (unitEv u 1)).remap (8 * u.2.1 + u.2.2.1) u.2.2.2
        plan (d.capBytes u) ((after d).capBytes u) (fun d =>
          let d := (after d).capsChanged
          if opcode = 0x0070 then ({ d with caps.retired := d.caps.retired ++ [u] }).logUnit u else { d with caps.disabled := d.caps.disabled ++ [u] }) 0 0
      else .go { old := d.capBytes u, new := (d.unitAway u).capBytes u, effect := fun d => (d.leaveUnit u, { waits := true }) }
def execUnitRetire (c : MbxCmd) (s : State) : Host.Outcome State Fault Refusal := s.live (mbxRow (leaveSpec 0x0070) none c)
def execUnitDisable (c : MbxCmd) (s : State) : Host.Outcome State Fault Refusal := s.live (mbxRow (leaveSpec 0x0072) none c)

/-- Estimate in µs of what is left of a unit's shutdown (R554). -/
def Dev.leaveEstimate (d : Dev) (u : UnitId) : Nat :=
  let st := d.getStack (5 * u.2.1 + u.2.2.1)
  if 4 ≤ u.1 ∧ st.migrating then (d.copyBytes (5 * u.2.1 + u.2.2.1) / 128 - beatNs * (d.clock.wall - st.copySince)) / 1000
  else if u.1 = 0 ∨ u.1 = 1 ∨ u.1 = 3 then 0 else 0xFFFFFFFF

/-- A shutdown of the unit runs (R554). -/
def Dev.leavingNow (d : Dev) (u : UnitId) : Bool :=
  d.caps.leaving.contains u || (u.1 == 4 && (d.getStack (5 * u.2.1 + u.2.2.1)).retiring == some u.2.2.2)

/-- An HBM pseudo-channel or channel comes back (R554); one that went into the reserve leaves it. -/
def Dev.hbmBack (d : Dev) (u : UnitId) : Dev :=
  let pcs := if u.1 = 4 then [u.2.2.2] else [2 * u.2.2.2, 2 * u.2.2.2 + 1]
  d.modStack (5 * u.2.1 + u.2.2.1) (fun s =>
    let s := { s with pcRetired := pcs.foldl (fun m p => if m.testBit p then m - 2 ^ p else m) s.pcRetired
                      reserveUsed := s.reserveUsed && !pcs.contains s.retiredPc }
    { s with state := if s.state = 2 ∧ !s.channelOut then 0 else s.state })

/-- A disabled unit is back in service. -/
def Dev.bringBack (d : Dev) (u : UnitId) : Dev := if u.1 = 2 then d.pebbleBack u else if 4 ≤ u.1 then d.hbmBack u else d.putBack u

/-- R451, R554: UNIT_ENABLE; a disabled unit returns at the next beat edge. -/
def unitEnableSpec : MbxSpec where
  opcode := 0x0071
  roles := 6
  m0 := 0xFFFF37
  run := fun c d =>
    let u := unitOf c.a0
    match unitFail u with
    | some (st, off) => reject st off
    | none =>
      if d.leavingNow u then reject stDraining (d.leaveEstimate u)
      else if d.caps.disabled.contains u then
        .go { old := d.capBytes u, new := (d.bringBack u).capBytes u, effect := fun d => (d, { waits := true }) }
      else if d.unitOn u then plan (d.capBytes u) (d.capBytes u) id 0 0
      else reject stConflict detailState
def execUnitEnable (c : MbxCmd) (s : State) : Host.Outcome State Fault Refusal := s.live (mbxRow unitEnableSpec none c)

/-- At a beat edge the units of waiting UNIT_ENABLE commands return, and the commands complete (R4, R554). -/
def Dev.enableUnits (d : Dev) : Dev :=
  Dev.each (d.host.waiting.filter (fun w => w.opcode == 0x0071)) (fun d w =>
    let u := unitOf w.a0
    let d := { d with caps.disabled := d.caps.disabled.filter (· != u) }
    (d.bringBack u).capsChanged.completeLate w {}) d

end Sys2Proof.Machine
end

