-- ==== Sys2Proof/Machine/Boot.lean ====
section
/-! DEFINITION. Whole reset and boot (R523 to R547, R565, R566, R594, R603 to R605). -/

namespace Sys2Proof.Machine

/-! ## Whole reset -/

/-- The event log as flash holds it: records not yet flushed are lost (R566, R568). -/
def Events.flushed (e : Events) (wall : Nat) : Events :=
  { seq := (e.seq + 2 ^ 32 - e.held % 2 ^ 32) % 2 ^ 32, log := e.log.take (e.log.length - e.held), held := 0, heldSince := wall, rates := [] }

/-- Flush the event log (R553, R568). -/
def Dev.flushEvents (d : Dev) : Dev := { d with flash.eventFlushed := d.evt.seq, evt.held := 0, evt.heldSince := d.clock.wall }

/-- What flash holds of the energy counters (R517, R528, R579). -/
def Dev.storedPower (d : Dev) : Power :=
  let part := fun (o : Nat) => (upTo 8).foldl (fun t n => tabSet 0 n (tabGet 0 (o + n) d.pow.energyFlash) t) []
  { Dev.reset.pow with energy := part 0, gravel := part 8, unassigned := tabGet 0 16 d.pow.energyFlash, energyFlash := d.pow.energyFlash }

/-- Everything a whole reset loses is at its reset value; what R528 lists is kept. `mark` says whether the high-water mark of R33 is. -/
def Dev.wipe (d : Dev) (mark : Bool) : Dev :=
  { Dev.reset with
    clock := { d.clock with freeCtr := d.clock.freeCtr + 1 }
    pins := { d.pins with beatOut := false, alertN := true, stopped := false }
    boot := { Dev.reset.boot with phase := d.boot.phase, record := d.boot.record, records := d.boot.records, cache := d.boot.cache }
    fuses := d.fuses
    flash := { d.flash with writesOff := false }
    beat.highWater := if mark then d.beat.highWater else 0
    sec := { Dev.reset.sec with auditSeq := d.sec.auditSeq, auditLast := d.sec.auditLast, nonce := Config.freeNonce d.clock.freeCtr }
    pow := d.storedPower
    therm.overLimit := tabGet 0 17 d.pow.energyFlash
    evt := d.evt.flushed d.clock.wall }

/-- A boot begins: its record (R547). -/
def Dev.newRecord (d : Dev) (cause attempt : Nat) : Dev :=
  { d with boot.record := ⟨wrapAdd 32 d.boot.record.seq 1, cause, 0, 0, 0, attempt, d.flash.activeBank, 0, 0xFF, 0, [0, 0, 0, 0, 0, 0, 0]⟩ }

/-- Enter a phase. -/
def Dev.enter (d : Dev) (p : Phase) : Dev := { d with boot.phase := p, boot.since := d.clock.wall }

/-- A boot stage begins (R530). -/
def Dev.startStage (d : Dev) (n : Nat) : Dev := { d with boot.record.lastStage := n }.enter (.stage n)

/-- R526: a self-initiated whole reset begins. Rung 6 of R553 flushes the event log first. -/
def Dev.selfReset (d : Dev) (cause attempt : Nat) : Dev :=
  let d := if cause = 2 ∨ cause = 3 then d.flushEvents else d
  let d := Dev.each (upTo 8) (fun d r => d.emit (.setpoint r 800)) d.linksStop
  let d := (d.wipe true).newRecord cause attempt
  { d with pins.addrStrap := d.pins.addrPins }.enter .selfReset

/-- A D2D link has exhausted its attempts (rung 2 of R553). -/
def Dev.d2dDown (d : Dev) : Bool := (upTo 4).any (fun l => (d.getLink (16 + l)).regs.state == 4)

/-- R526, R553: the ladder reaches its last rung through a D2D link. The other causes come with the commands that find them. -/
def selfReset (cause : Nat) (d : Dev) : Dev := d.gate (cause == 3 && d.bed.ready && d.d2dDown) (fun d => d.selfReset 3 1)
def execSelfReset (cause : Nat) (s : State) : Host.Outcome State Fault Refusal := s.live (selfReset cause)

/-- R526: after 1 ms of internal reset stage 0 starts as though RESET_N had been released. -/
def selfResetHoldEnd (d : Dev) : Dev := d.gate (d.boot.phase == .selfReset && d.due d.boot.since 1000000) (fun d => d.startStage 0)
def execSelfResetHoldEnd (s : State) : Host.Outcome State Fault Refusal := s.run selfResetHoldEnd

/-- R527, R551, R603: RESET_N has been low for 1 µs: the device stops at once. A trip keeps its record until the release (R605). -/
def resetNAssert (d : Dev) : Dev :=
  if d.boot.phase = .noPower then { d with pins.resetN := false, pins.resetActed := true }
  else
    let t := d.therm
    let d := (d.linksStop.wipe true).enter .heldReset
    { d with pins.resetN := false, pins.resetActed := true, pins.resetWait := false
             therm.tripped := t.tripped, therm.tripCause := t.tripCause, therm.tripUnit := t.tripUnit, therm.tripTemp := t.tripTemp
             therm.tripLogged := t.tripLogged }
def execResetNAssert (s : State) : Host.Outcome State Fault Refusal := s.run resetNAssert

/-- Stage 0 starts after a release of RESET_N (R33, R523, R547). -/
def Dev.bootAfterPin (d : Dev) : Dev :=
  let cause := if d.boot.phase = .noPower then 0 else 1
  { ((d.wipe false).newRecord cause 1).startStage 0 with pins.resetWait := false }

/-- R594, R603, R605: RESET_N returns high. A pulse that has not acted has no effect; one shorter than 10 µs starts stage 0 later. A sensor that
still reads 120 °C trips again. -/
def resetNRelease (lowNs : Nat) (hotSensor : Option Nat) (d : Dev) : Dev :=
  d.gate (!d.pins.resetN && d.pins.resetActed && decide (1000 ≤ lowNs)) (fun d =>
    let d := { d with pins := { d.pins with resetN := true, resetActed := false, thermTripN := true, addrStrap := d.pins.addrPins }, therm.tripped := false }
    match hotSensor with
    | some u => thermalTrip false u 12000 d
    | none => if lowNs < 10000 then { d with pins.resetWait := true, boot.since := d.clock.wall } else d.bootAfterPin)
def execResetNRelease (lowNs : Nat) (hotSensor : Option Nat) (s : State) : Host.Outcome State Fault Refusal := s.run (resetNRelease lowNs hotSensor)

/-- R603: stage 0 starts 10 µs after a short assertion. -/
def resetNHoldExpiry (d : Dev) : Dev := d.gate (d.pins.resetWait && d.pins.resetN) Dev.bootAfterPin
def execResetNHoldExpiry (s : State) : Host.Outcome State Fault Refusal := s.run resetNHoldExpiry

/-- R33, R566: power is lost at any instant. RESET_N is low when power returns (R523). -/
def powerLoss (d : Dev) : Dev :=
  let d := (d.linksStop.wipe false).enter .noPower
  { d with pins.resetN := false, pins.resetActed := true, pins.resetWait := false, pins.thermTripN := true }
def execPowerLoss (s : State) : Host.Outcome State Fault Refusal := s.run powerLoss

/-- R527, R551, R565, R604: PWR_FAIL_N has been low for 1 µs: no flash write and no ring service begin, and every job stops at the next beat edge with cause
FAULT. During boot the boot stops. -/
def pwrFailAssert (d : Dev) : Dev :=
  let stop := fun (d : Dev) => { d with pins.pwrFailN := false, pins.stopped := true, flash.writesOff := true }
  match d.boot.phase with
  | .stage _ => (stop d).enter .powerFail
  | .selfReset => (stop d).enter .powerFail
  | .noPower => { d with pins.pwrFailN := false }
  | .heldReset => { d with pins.pwrFailN := false }
  | .tripped => stop d
  | .ready => (stop d).stopAllJobs 3
  | .bootFailed => stop d
  | .recovery => stop d
  | .powerFail => stop d
def execPwrFailAssert (s : State) : Host.Outcome State Fault Refusal := s.run pwrFailAssert

/-- R565: PWR_FAIL_N returns high: the device stays stopped until the next whole reset. -/
def pwrFailDeassert (d : Dev) : Dev := { d with pins.pwrFailN := true }
def execPwrFailDeassert (s : State) : Host.Outcome State Fault Refusal := s.run pwrFailDeassert

/-! ## Failures -/

/-- The boot record goes to flash, which holds the last 8 (R547). -/
def Dev.pushRecord (d : Dev) : Dev := { d with boot.records := (d.boot.record :: d.boot.records).take 8 }

/-- R531, R532: a stage fails: a retry, then BOOT_FAILED, or firmware recovery where stage 1 failed on both attempts. -/
def Dev.stageFail (d : Dev) (result die unit : Nat) : Dev :=
  let twice := result = 3 ∧ ((d.boot.records.head?.map (fun r => r.result)).getD 0) = 3
  let d := { d with boot.record := { d.boot.record with result := result, failDie := die, failUnit := unit } }.pushRecord
  if d.boot.record.attempt < 2 then d.selfReset 4 2
  else if twice then d.enter .recovery
  else d.enter .bootFailed

/-- A stage ends and the next begins; its duration is recorded (R531, R547). -/
def Dev.endStage (d : Dev) (n ms : Nat) : Dev :=
  { d with boot.record.stageMs := d.boot.record.stageMs.set n (min ms 65535) }.startStage (n + 1)

/-- A boot stage runs. -/
def Dev.inStage (d : Dev) (n : Nat) : Bool := d.boot.phase == .stage n

/-- A part of the stage had to run in full in a fast restore: MODE is MIXED (R545). -/
def Dev.noteFull (d : Dev) (ranFull : Bool) : Dev := if ranFull ∧ d.boot.fast then { d with boot.record.mode := 2 } else d

/-! ## Stages 0 to 2 -/

/-- The bank the Geode of P0 boots (R472): the one recorded as active, else the other. -/
def Dev.bankOk (d : Dev) (die b : Nat) : Bool := (d.flash.bank die b).present && (fwFlaw (d.secFuse die) (d.flash.bank die b).image).isNone
def Dev.bootBank (d : Dev) : Option Nat :=
  let a := d.flash.activeBank
  if d.bankOk 0 a then some a else if d.bankOk 0 (1 - a) then some (1 - a) else none

/-- The device is owned (R474): the enrolled slot's HASH is that of the key in flash. -/
def Dev.ownedNow (d : Dev) : Bool :=
  match d.fuses.p0.enrolled with
  | some i => (tabGet ({} : OwnerSlot) i d.fuses.p0.slots).hash == Config.sha384 d.flash.ownerKey
  | none => false

/-- R545: the boot is a fast restore. -/
def Dev.fastNow (d : Dev) (cacheDays : Nat) (tj : Int) : Bool :=
  let c := d.boot.cache
  let biv := match d.bootBank with
    | some b => decide (c.biv.toNat = leAt (d.flash.bank 0 b).image 11 1)
    | none => false
  (d.flash.calRec.validA || d.flash.calRec.validB) && c.digest == d.unitFuseDigest && biv && decide (cacheDays < 7)
    && decide (tj - c.tj ≤ 1500) && decide (c.tj - tj ≤ 1500)

/-- R524, R530, R545: stage 0 ends. -/
def stageAlwaysOnDone (ms : Nat) (railsOk fusesOk : Bool) (cacheDays : Nat) (tj : Int) (d : Dev) : Dev :=
  d.gate (d.inStage 0) (fun d =>
    if !railsOk then d.stageFail 1 0xFF 0
    else if !fusesOk then d.stageFail 2 0 0
    else
      let fast := d.fastNow cacheDays tj
      { d with bed.owned := d.ownedNow, therm.tj := tj, boot.fast := fast, boot.record.mode := b2n fast }.endStage 0 ms)
def execStageAlwaysOnDone (ms : Nat) (railsOk fusesOk : Bool) (cacheDays : Nat) (tj : Int) (s : State) : Host.Outcome State Fault Refusal :=
  s.live (stageAlwaysOnDone ms railsOk fusesOk cacheDays tj)

/-- The marks of P0's banks after the Geode has tried them (R472). -/
def Dev.markBanks (d : Dev) : Dev :=
  let mark := fun (d : Dev) (b : Nat) => { d with flash := d.flash.setBank 0 b { d.flash.bank 0 b with verified := d.bankOk 0 b } }
  let a := d.flash.activeBank
  if d.bankOk 0 a then mark d a else mark (mark d a) (1 - a)

/-- R471, R472: stage 1 ends: a bank has verified and Bedrock has started. -/
def stageFirmwareDone (ms : Nat) (d : Dev) : Dev :=
  d.gate (d.inStage 1) (fun d =>
    match d.bootBank with
    | none => d.markBanks.stageFail 3 0 0
    | some b =>
      let d := d.markBanks
      { d with bed.activeBank := b, boot.record.activeBank := b, bed.fwVersion := tabSet 0 0 (fwVersion (d.flash.bank 0 b).image) d.bed.fwVersion }.endStage 1 ms)
def execStageFirmwareDone (ms : Nat) (s : State) : Host.Outcome State Fault Refusal := s.live (stageFirmwareDone ms)

/-- P2 can be standby (R20, R468, R534): its flash is there, the bank of the same index verifies with the same version, and its security fuses agree. -/
def Dev.standbyFits (d : Dev) : Bool :=
  let b := d.bed.activeBank
  d.flash.p2Present && d.bankOk 2 b && fwVersion (d.flash.bank 2 b).image == fwVersion (d.flash.bank 0 b).image && d.fuses.p2 == d.fuses.p0

/-- The dies' revisions differ (R538). -/
def mixedRev : Bool := (upTo 4).any (fun p => Config.dieRev p != Config.dieRev 0)

/-- A half's setpoint before the job clocks start (R494, R524): TRIM from the cache in a fast restore. -/
def Dev.firstSetpoints (d : Dev) : Dev :=
  Dev.each (upTo 8) (fun d h =>
    (if d.boot.fast then d.modHalfPow h (fun p => { p with trim := tabGet 0 h d.boot.cache.trims }) else d).newSetpoint h) d

/-- R468, R534 to R538: stage 2 ends. `diePos` is what each select line answers, `bodyFails` the dies whose copy of the firmware body differed twice. -/
def stageDiesDone (ms : Nat) (diePos : List (Option Nat)) (bodyFails : List Nat) (d : Dev) : Dev :=
  d.gate (d.inStage 2) (fun d =>
    let at_ := fun p => diePos.getD p none
    match (upTo 4).find? (fun p => (at_ p).isSome && at_ p != some p) with
    | some p => d.stageFail 5 p 0
    | none =>
      match (upTo 4).find? (fun p => (at_ p).isNone || ((p == 1 || p == 3) && bodyFails.contains p)) with
      | some p => d.stageFail 4 p 0
      | none =>
        let v := tabGet 0 0 d.bed.fwVersion
        let ok := d.standbyFits
        let d := d.setBed (fun b => { b with
          standbyOk := ok, securityMatch := d.fuses.p0 == d.fuses.p2, fwVersion := [1, 2, 3].foldl (fun t p => tabSet 0 p v t) b.fwVersion })
        { d with boot.record.flags := b2n ok + 2 * b2n mixedRev }.firstSetpoints.endStage 2 ms)
def execStageDiesDone (ms : Nat) (diePos : List (Option Nat)) (bodyFails : List Nat) (s : State) : Host.Outcome State Fault Refusal :=
  s.live (stageDiesDone ms diePos bodyFails)

/-! ## Stage 3 -/

/-- KIND and LOCATOR of a repair entry in force (R543). -/
def entryValid (e : Nat) : Bool := e.testBit 31
def entryKind (e : Nat) : Nat := fld e 27 4

/-- The repair entries of a die that are in force: its REPAIR fuses, then the repair log (R539, R541, R543). -/
def Dev.fuseEntries (d : Dev) (p : Nat) : List Nat :=
  ((upTo 64).map (fun e => fld (tabGet 0 p d.fuses.repair).toNat (32 * e) 32)).filter entryValid
def Dev.logEntries (d : Dev) (p : Nat) : List Nat := (d.flash.repairLog.filter (fun x => x.1 == p)).map (·.2)

/-- A log entry whose REPAIR fuse is burned is dropped (R541). -/
def Dev.dropBurned (d : Dev) : Dev :=
  { d with flash.repairLog := d.flash.repairLog.filter (fun x => !((upTo 4).contains x.1 && (d.fuseEntries x.1).contains x.2)) }

/-- Physical pebbles of a cluster that VARIANT, REPAIR, the log or the tests mark as failed (R276, R539). -/
def Dev.failedPebbles (d : Dev) (p k : Nat) (faults : List TestFault) : List Nat :=
  (upTo 9).filter (fun j =>
    (tabGet 0 p d.fuses.variant).toNat.testBit (8 + 9 * k + j)
    || (d.fuseEntries p ++ d.logEntries p).any (fun e => entryKind e == 0 && fld e 0 3 == k && fld e 3 4 == j)
    || faults.any (fun f => f.die == p && f.index == k && (f.kind == .cluster || (f.kind == .pebble && f.sub == j))))

/-- Names and spare of a cluster (R8, R276): physical pebble 8 is the spare. -/
def Dev.namePebbles (d : Dev) (faults : List TestFault) : Dev :=
  Dev.each (upTo 32) (fun d c =>
    let f := d.failedPebbles (c / 8) (c % 8) faults
    let names := min 8 (9 - f.length)
    let spare : Option Nat := match f with
      | [] => none
      | [j] => some j
      | _ => if f.contains 8 then some 8 else some (names - 1)
    { d with caps.names := tabSet 8 c names d.caps.names, caps.spare := tabSet none c spare d.caps.spare }) d

/-- A pseudo-channel is retired into the reserve, or becomes unbacked (R306, R540). -/
def Dev.retirePc (d : Dev) (stack pc : Nat) : Dev :=
  d.modStack stack (fun s =>
    if s.pcRetired.testBit pc then s
    else
      let s := { s with pcRetired := s.pcRetired ||| 2 ^ pc }
      if s.reserveUsed then s else { s with reserveUsed := true, retiredPc := pc })

/-- A stack is absent (R295, R310). -/
def Dev.stackGone (d : Dev) (stack : Nat) : Dev :=
  { (d.modStack stack (fun s => { s with state := 3 })) with caps.stackOff := insertNat stack (d.caps.stackOff.filter (· != stack)) }

/-- What one repair entry of a die disables (R543); a pebble's physical place is taken by `namePebbles`, a row or column repair shows nowhere. -/
def Dev.applyEntry (d : Dev) (p e : Nat) : Dev :=
  if entryKind e = 3 then
    let u := fld e 0 3
    let n := if u < 4 then 4 * p + u else if u = 4 then 16 + p else 16 + (p + 3) % 4
    if 5 < u then d else d.modLink n (fun l => { l with regs.laneFault := l.regs.laneFault ||| 2 ^ fld e 3 5 })
  else if entryKind e = 4 then
    let u : UnitId := (fld e 0 3, p, fld e 3 8, fld e 11 8)
    if (unitFail u).isSome then d
    else if u.1 = 2 then (if u.2.2.2 < d.caps.namesOf (8 * p + u.2.2.1) then d.remap (8 * p + u.2.2.1) u.2.2.2 else d)
    else if u.1 = 4 then d.retirePc (5 * p + u.2.2.1) u.2.2.2
    else if u.1 = 5 then
      ((d.retirePc (5 * p + u.2.2.1) (2 * u.2.2.2)).retirePc (5 * p + u.2.2.1) (2 * u.2.2.2 + 1)).modStack (5 * p + u.2.2.1) (fun s => { s with state := 2 })
    else d.takeOut u
  else d

/-- What the VARIANT fuses of a die disable (R542). -/
def Dev.applyVariant (d : Dev) (p : Nat) : Dev :=
  let v := (tabGet 0 p d.fuses.variant).toNat
  let d := Dev.each ((upTo 8).filter (fun s => v.testBit s)) (fun d s => d.takeOut (0, p, s, 0)) d
  let d := Dev.each ((upTo 4).filter (fun k => v.testBit (80 + k))) (fun d k => d.takeOut (3, p, k, 0)) d
  Dev.each ((upTo 5).filter (fun m => v.testBit (84 + m))) (fun d m => d.stackGone (5 * p + m)) d

/-- Add an entry to the repair log of P0 and P2 (R541, R550). -/
def Dev.logEntry (d : Dev) (key e : Nat) : Dev :=
  { d with flash.repairLog := d.flash.repairLog ++ [(key, e)], flash.repairRec := d.flash.repairRec.commit }

/-- The REPAIR entry of a fault (R540, R541, R543). `row` of an array line holds the line, bit 7 for a column and bit 8 for the spare used. -/
def faultEntries (f : TestFault) : List Nat :=
  let v := 2 ^ 31
  let off := fun kind sub => v + 4 * 2 ^ 27 + sub * 2 ^ 11 + f.index * 8 + kind
  match f.kind with
  | .arrayLine =>
    if f.spare then [v + (1 + fld f.row 7 1) * 2 ^ 27 + fld f.row 8 1 * 2 ^ 12 + fld f.row 0 7 * 2 ^ 5 + f.sub * 8 + f.index] else [off 1 f.sub]
  | .pebble => [v + f.sub * 8 + f.index]
  | .slab => [off 0 0]
  | .cluster => (upTo 9).map (fun j => v + j * 8 + f.index)
  | .lane => [v + 3 * 2 ^ 27 + f.sub * 8 + f.index]
  | .essential => []
  | .hbmRow => []
  | .stack => []
  | .portMismatch => []

/-- What a fault of stage 3 disables at once (R540). -/
def Dev.applyFault (d : Dev) (f : TestFault) : Dev :=
  match f.kind with
  | .arrayLine => if f.spare then d else d.takeOut (1, f.die, f.index, f.sub)
  | .slab => d.takeOut (0, f.die, f.index, 0)
  | .pebble => d
  | .cluster => d
  | .lane => d
  | .essential => d
  | .hbmRow => d
  | .stack => d
  | .portMismatch => d

/-- The faults of one stage. -/
def stageFaults (stage : Nat) (f : TestFault) : Bool :=
  match f.kind with
  | .arrayLine => stage == 3
  | .pebble => stage == 3
  | .slab => stage == 3
  | .cluster => stage == 3
  | .essential => stage == 3
  | .hbmRow => stage == 4
  | .stack => stage == 4
  | .lane => stage == 5
  | .portMismatch => stage == 5

/-- Log the entries of faults, each under its die. -/
def Dev.logFaults (d : Dev) (faults : List TestFault) : Dev :=
  Dev.each faults (fun d f => Dev.each (faultEntries f) (fun d e => d.logEntry f.die e) d) d

/-- Repairs and units off, in the order of R539. -/
def Dev.applyRepairs (d : Dev) (faults : List TestFault) : Dev :=
  let d := d.dropBurned
  let d := Dev.each (upTo 4) Dev.applyVariant d
  let d := d.namePebbles faults
  let d := Dev.each (upTo 4) (fun d p => Dev.each (d.fuseEntries p) (fun d e => d.applyEntry p e) d) d
  let d := Dev.each (upTo 4) (fun d p => Dev.each (d.logEntries p) (fun d e => d.applyEntry p e) d) d
  { (Dev.each faults Dev.applyFault d) with peb := Dev.reset.peb }

/-- R539 to R545: stage 3 ends: repairs are applied, tests have run, and every SRAM word is zero. -/
def stageBistDone (ms : Nat) (ranFull : Bool) (faults : List TestFault) (d : Dev) : Dev :=
  d.gate (d.inStage 3) (fun d =>
    let fs := faults.filter (stageFaults 3)
    let d := d.noteFull ranFull
    match fs.find? (fun f => f.kind == .essential) with
    | some f => (d.logFaults fs).stageFail 6 f.die (f.index * 8)
    | none => ((d.applyRepairs fs).logFaults fs).endStage 3 ms)
def execStageBistDone (ms : Nat) (ranFull : Bool) (faults : List TestFault) (s : State) : Host.Outcome State Fault Refusal :=
  s.live (stageBistDone ms ranFull faults)

/-! ## Stages 4 and 5 -/

/-- The configuration store has a valid copy (R529, R550). -/
def Flash.configKept (f : Flash) : Option ConfigStore := if f.configRec.validA || f.configRec.validB then f.config else none

/-- LinkConfig of a vein port from the store (R530). -/
def Dev.linkFromStore (d : Dev) (n : Nat) : Dev :=
  match d.flash.configKept with
  | none => d
  | some c =>
    let v := tabGet 1 n c.links
    d.modLink n (fun l => { l with regs.enable := v.testBit 0, regs.maxWidth := fld v 1 2, regs.mate := v.testBit 3, regs.autoRetry := v.testBit 4 })

/-- Stage 5 trains every D2D link and every enabled vein port (R406, R530, R545). -/
def Dev.startTraining (d : Dev) : Dev :=
  let full := !d.boot.fast
  let d := Dev.each (upTo 16) (fun d n =>
    let d := d.linkFromStore n
    if (d.getLink n).regs.enable && d.caps.veins.testBit n then d.beginAttempt n 1 full else d) d
  Dev.each (upTo 4) (fun d l => d.beginAttempt (16 + l) 1 full) d

/-- Rows of a pseudo-channel that cannot be repaired, each once. -/
def badRows (faults : List TestFault) (stack pc : Nat) : List Nat :=
  ((faults.filter (fun f => f.kind == .hbmRow && !f.spare && 5 * f.die + f.index == stack && f.sub == pc)).map (fun f => f.row)).eraseDups

/-- Faults of the memory test (R304, R540): rows repaired go to the log, four rows that cannot be repaired retire their pseudo-channel, an untrained
stack is absent. -/
def Dev.hbmFaults (d : Dev) (faults : List TestFault) : Dev :=
  let d := Dev.each (faults.filter (fun f => f.kind == .stack)) (fun d f => d.stackGone (5 * f.die + f.index)) d
  let d := Dev.each (faults.filter (fun f => f.kind == .hbmRow && f.spare)) (fun d f =>
    d.logEntry (16 + 5 * f.die + f.index) (2 ^ 31 + f.sub * 2 ^ 24 + fld f.row 0 24)) d
  let bad := faults.filter (fun f => f.kind == .hbmRow && !f.spare)
  Dev.each ((bad.map (fun f => (5 * f.die + f.index, f.sub))).eraseDups) (fun d (x : Nat × Nat) =>
    if 4 ≤ (badRows faults x.1 x.2).length then
      (d.retirePc x.1 x.2).logEntry (x.1 / 5) (unitOffEntry (4, x.1 / 5, x.1 % 5, x.2))
    else d) d

/-- R295, R540, R545: stage 4 ends; stage 5 begins to train the links. -/
def stageHbmDone (ms : Nat) (ranFull : Bool) (faults : List TestFault) (d : Dev) : Dev :=
  d.gate (d.inStage 4) (fun d => (((d.noteFull ranFull).hbmFaults (faults.filter (stageFaults 4))).endStage 4 ms).startTraining)
def execStageHbmDone (ms : Nat) (ranFull : Bool) (faults : List TestFault) (s : State) : Host.Outcome State Fault Refusal :=
  s.live (stageHbmDone ms ranFull faults)

/-- Every D2D link is ACTIVE (R530). -/
def Dev.d2dActive (d : Dev) : Bool := (upTo 4).all (fun l => (d.getLink (16 + l)).regs.state == 3)

/-- R530, R537, R540, R545: stage 5 ends once every D2D link is ACTIVE; lanes found faulty lose their MASK bit. -/
def stageSerdesDone (ms : Nat) (ranFull : Bool) (faults : List TestFault) (d : Dev) : Dev :=
  d.gate (d.inStage 5) (fun d =>
    let fs := faults.filter (stageFaults 5)
    match fs.find? (fun f => f.kind == .portMismatch) with
    | some f => d.stageFail 5 f.die 0
    | none =>
      let lanes := fs.filter (fun f => f.kind == .lane)
      let d := Dev.each lanes (fun d f => Dev.each (faultEntries f) (fun d e => d.applyEntry f.die e) d) ((d.noteFull ranFull).logFaults lanes)
      if d.d2dActive then d.endStage 5 ms else d)
def execStageSerdesDone (ms : Nat) (ranFull : Bool) (faults : List TestFault) (s : State) : Host.Outcome State Fault Refusal :=
  s.live (stageSerdesDone ms ranFull faults)

/-- R398 to R406, R537: a training block; in stage 5 a D2D endpoint that receives another PORT than its own ends the boot stage with LODESTONE. -/
def trainingBlock (port lane : Nat) (bytes : List Byte) (localTime : Nat) (localDone : Bool) (d : Dev) : Dev :=
  let n := linkReg port
  let d := trainingBlockReceive port lane bytes localTime localDone d
  let peer := (d.getLink n).peer
  if d.inStage 5 ∧ 16 ≤ n ∧ peer ≠ {} ∧ peer.port ≠ n then d.stageFail 5 (n - 16) 0 else d
def execTrainingBlockReceive (port lane : Nat) (bytes : List Byte) (localTime : Nat) (localDone : Bool) (s : State) :
    Host.Outcome State Fault Refusal :=
  s.live (trainingBlock port lane bytes localTime localDone)

/-! ## Stage 6 -/

/-- The capability words report something of a half. -/
def Dev.halfPresent (d : Dev) (h : Nat) : Bool :=
  (upTo 4).any (fun i => d.caps.slabOn (h / 2) (4 * (h % 2) + i) || decide (0 < d.caps.namesOf (8 * (h / 2) + 4 * (h % 2) + i)))

/-- A stored partition can be restored (R529): every half and every region's stacks are present. -/
def Dev.restorable (d : Dev) (c : ConfigStore) (n : Nat) : Bool :=
  let p := tabGet ({} : Part) n c.parts
  p.live && p.halfList.all d.halfPresent
    && c.regions.all (fun x => x.2.partition != n || !x.2.valid || x.2.stackList.all (fun m => d.caps.stackOn (5 * (x.1 / 16) + m)))

/-- A partition comes back with its regions, which are filled with zeros; its energy counters go on (R528, R529, R546). -/
def Dev.restorePart (d : Dev) (c : ConfigStore) (n : Nat) : Dev :=
  let p := tabGet ({} : Part) n c.parts
  let e := tabGet 0 n d.pow.energy
  let g := tabGet 0 n d.pow.gravel
  let d := d.createPart n p.halves p.channels p.rings false
  let d := { d with pow.energy := tabSet 0 n e d.pow.energy, pow.gravel := tabSet 0 n g d.pow.gravel }
  let d := Dev.each (c.regions.filter (fun x => x.2.valid && x.2.partition == n)) (fun d (x : Nat × Region) => d.modRegion x.1 (fun _ => x.2)) d
  Dev.each (upTo 4) (fun d k => d.modGuar (4 * n + k) (fun _ => tabGet {} (4 * n + k) c.guar)) d

/-- The device-wide settings of the store. -/
def Dev.restoreFabric (d : Dev) (c : ConfigStore) : Dev :=
  { d with
    fab.selfDevice := c.selfDevice, fab.selfValid := c.selfValid, fab.parts := c.fabParts, fab.device := c.device, fab.locals := c.locals
    fab.reduce := c.reduce, barr.tree := c.tree, host.windows := c.windows }
def Dev.restorePower (d : Dev) (c : ConfigStore) : Dev :=
  let d := { d with pow.capW := c.capW, pow.capEff := c.capW, pow.order := c.order, pow.slope := c.slope, pow.floor := c.floor, pow.points := c.points
                    idle.enabled := c.deepIdle }
  let d := Dev.each (upTo 32) (fun d s => d.modSlab s (fun x => { x with regs.gravelEn := tabGet false s c.gravel })) d
  Dev.each (upTo 4) (fun d p =>
    let v := tabGet 0 p c.scrub
    d.modScrub p (fun s => { s with sramHours := fld v 0 8, hbmHours := fld v 8 10, autoRetire := v.testBit 18, autoSppr := v.testBit 19 })) d

/-- The beat configuration (R529): a master's is not restored, a follower starts at step 1 of R53. -/
def Dev.restoreBeat (d : Dev) (c : ConfigStore) : Dev :=
  if c.beatRole = 1 then d
  else
    let d := { d with beat.role := c.beatRole, beat.source := c.beatSource, beat.holdCap := c.beatHoldCap, beat.domain := c.beatDomain
                      beat.maskVein := c.beatMaskVein, beat.maskD2d := c.beatMaskD2d }
    if c.beatRole = 2 then d.startSearch else d

/-- A mirrored pair comes back unsynchronised (R529): every block is dirty. -/
def Dev.restoreMirror (d : Dev) (c : ConfigStore) : Dev :=
  if c.mirror.mode ≠ 0 ∧ (d.getPart c.mirror.partition).live then
    { d with mirror.regs := { c.mirror with state := 1, dirty := upTo (c.mirror.ranges.foldl (fun n r => n + r.2 / 65536) 0) }, mirror.rejoined := true }
  else d

/-- R529: the store is restored, and the record says so. -/
def Dev.restore (d : Dev) : Dev :=
  match d.flash.configKept with
  | none => { d with boot.record.flags := d.boot.record.flags + 16 }
  | some c =>
    let live := (upTo 8).filter (fun n => (tabGet ({} : Part) n c.parts).live)
    let good := live.filter (fun n => d.restorable c n)
    let d := Dev.each good (fun d n => d.restorePart c n) d
    let d := (((d.restoreFabric c).restorePower c).restoreBeat c).restoreMirror c
    { d with boot.record.flags := d.boot.record.flags + 4 + 8 * b2n (good.length != live.length) }

/-- Features and formats that some die has and the package does not (R538). -/
def lostFeatures : Nat := ((upTo 4).foldl (fun v p => v ||| Config.dieFeatures p) 0) % 2 ^ 64 - pkgFeatures
def lostFormats : Nat := ((upTo 4).foldl (fun v p => v ||| Config.dieFormats p) 0) % 2 ^ 17 - pkgFormats

/-- The calibration cache after a full boot (R545, R546 step 5). -/
def Dev.cacheAfterBoot (d : Dev) : Dev :=
  if d.boot.fast then d else { d.saveCal with boot.record.flags := d.boot.record.flags + 32 }

/-- R546: stage 6 ends and the device is Ready. -/
def Dev.endBoot (d : Dev) (ms : Nat) : Dev :=
  let d := { d with caps.generation := 1, mgmt.pdrSignature := wrapAdd 32 d.mgmt.pdrSignature 1 }.restore.cacheAfterBoot
  let d := Dev.each (upTo 4) (fun d p => d.modScrub p (fun s => { s with sramSince := d.clock.wall, hbmSince := d.clock.wall })) d
  let stageMs := d.boot.record.stageMs.set 6 (min ms 65535)
  let d := { d with boot.record := { d.boot.record with stageMs := stageMs, lastStage := 7, result := 0 } }.pushRecord
  let d := { d with bed.ready := true }.enter .ready
  if mixedRev then
    d.raise { code := 0x0303, cause := 2, sev := 1, valueA := lostFeatures, valueB := lostFormats + 2 ^ 32 * pkgLpv + 2 ^ 40 * pkgScl }
  else d

def stageConfigDone (ms : Nat) (d : Dev) : Dev := d.gate (d.inStage 6) (fun d => d.endBoot ms)
def execStageConfigDone (ms : Nat) (s : State) : Host.Outcome State Fault Refusal := s.live (stageConfigDone ms)

/-- Deadline of each stage in ms (R530). -/
def stageLimit (n : Nat) : Nat := [50, 300, 150, 900, 1800, 1300, 100].getD n 0

/-- R530, R531: a stage reaches its deadline and ends with its failure result; stages 4 and 6 have none. -/
def bootStageDeadline (d : Dev) : Dev :=
  match d.boot.phase with
  | .stage n =>
    d.gate (d.due d.boot.since (1000000 * stageLimit n)) (fun d =>
      if n = 0 then d.stageFail 1 0xFF 0
      else if n = 1 then d.stageFail 3 0 0
      else if n = 2 then d.stageFail 4 0xFF 0
      else if n = 3 then d.stageFail 6 0xFF 0
      else if n = 4 then ((Dev.each (upTo 20) Dev.stackGone d).endStage 4 1800).startTraining
      else if n = 5 then (if d.d2dActive then d.endStage 5 1300 else d.stageFail 7 0xFF 0)
      else d.endBoot 100)
  | .ready => d
  | .bootFailed => d
  | .recovery => d
  | .heldReset => d
  | .selfReset => d
  | .tripped => d
  | .powerFail => d
  | .noPower => d
def execBootStageDeadline (s : State) : Host.Outcome State Fault Refusal := s.live bootStageDeadline

end Sys2Proof.Machine
end

