-- ==== Sys2Proof/Machine/Mirror.lean ====
section
/-! DEFINITION. Mirrored pairs (R555 to R561): MIRROR_PAIR and its handshake, commit intervals, forwarded writes and resync. -/

namespace Sys2Proof.Machine

/-! ## Forming a pair (R555) -/

/-- Blocks of 64 KiB in the mirrored ranges, and the address of one (R561). -/
def blockCount (ranges : List (Nat × Nat)) : Nat := ranges.foldl (fun n r => n + r.2 / 65536) 0
def blockAddr : List (Nat × Nat) → Nat → Nat
  | [], _ => 0
  | r :: rs, b => if b < r.2 / 65536 then r.1 + 65536 * b else blockAddr rs (b - r.2 / 65536)

/-- What a side tells its peer (R555). -/
def Dev.mirrorCfg (d : Dev) (r : MirrorRegs) : MirrorCfg :=
  ⟨r.mode, r.interval, r.partition, r.side, pkgScl, d.beat.domain, d.beat.master, r.ranges⟩

/-- The handshake as this side sends it. -/
def Dev.sayHandshake (d : Dev) (r : MirrorRegs) : Dev :=
  let c := d.mirrorCfg r
  d.emit (.mate 0 ([c.mode, c.interval, c.partition, c.side, c.scl, c.domain, c.masterDev] ++ c.ranges.flatMap (fun x => [x.1, x.2])))

/-- The two sides fit (R555). -/
def Dev.pairFits (d : Dev) (r : MirrorRegs) (h : MirrorCfg) : Bool :=
  h.scl == pkgScl && (r.mode != 1 || (h.domain == d.beat.domain && h.masterDev == d.beat.master))
  && h.mode == r.mode && h.interval == r.interval && h.partition == r.partition && h.ranges == r.ranges && h.side != r.side

/-- Numbering, buffers and values start afresh (R560). -/
def Dev.freshEngine (d : Dev) : Dev :=
  { d with mirror := { d.mirror with
             crc := [], err := false, count := 0, sent := none, peerSent := none, fwdSeq := 0, fwdQueue := [], fwdOpen := [], fwdBytes := 0
             nextApply := 0, reorder := [], missingSince := none, answerDue := none, copying := false, copyAt := none
             matePort := d.mateInUse, cand := none, peerCfg := none }
           fab.requests := d.fab.requests.filter (fun (r : Req) => match r.owner with | .mirror _ => false | _ => true) }

/-- The pair forms (R555, R561): LOCKSTEP in state PAIRED, unless blocks of the pair before are still dirty, SHADOW in RESYNC; SIDE 0 is the source. -/
def Dev.formPair (d : Dev) (c : MirrorRegs) : Dev :=
  let old := d.mirror.regs
  let same : Bool := old.mode == c.mode && old.ranges == c.ranges && old.partition == c.partition
  let dirty := if c.side ≠ 0 then [] else if c.mode = 2 ∨ (same ∧ d.mirror.rejoined) then upTo (blockCount c.ranges) else if same then old.dirty else []
  let regs := { c with dirty := dirty, mismatchSeen := old.mismatchSeen, commits := if same then old.commits else 0
                       state := if c.mode = 2 ∨ !dirty.isEmpty then 2 else 3 }
  let d := ({ d with mirror.regs := regs, mirror.rejoined := false }).freshEngine
  if c.side = 0 ∧ (c.mode = 2 ∨ !dirty.isEmpty) then d.startResync else d

/-- Answer the waiting MIRROR_PAIR. -/
def Dev.pairDone (d : Dev) (r : Reply) : Dev := d.completeAll (fun w => w.opcode == 0x0080) (fun _ => r)

/-- No pair forms: nothing changes (R555). -/
def Dev.pairFails (d : Dev) (status : Nat) : Dev :=
  ({ d with mirror.cand := none, mirror.peerCfg := none
            mirror.regs.state := if d.mirror.regs.mode = 0 then 0 else d.mirror.regs.state }).pairDone { status := status }

/-- A range lies in the PROTECTED regions of a partition; `fuel` bounds the regions it may cross. -/
def Dev.inProtected (d : Dev) (n a len : Nat) : Nat → Bool
  | 0 => false
  | fuel + 1 =>
    match d.locate a with
    | .hbm p r _ =>
      let g := d.getRegion (16 * p + r)
      let e := p * 2 ^ 46 + g.first + g.bytes
      g.partition == n && g.mode == 0 && (decide (a + len ≤ e) || d.inProtected n e (len - (e - a)) fuel)
    | _ => false

/-- The ranges of the buffer. -/
def pairRanges (b : List Byte) : List (Nat × Nat) := (upTo (leAt b 2 2)).map (fun i => (leAt b (16 + 16 * i) 6, leAt b (24 + 16 * i) 6))

/-- Two ranges overlap. -/
def rangesOverlap : List (Nat × Nat) → Bool
  | [] => false
  | r :: rs => rs.any (fun q => decide (r.1 < q.1 + q.2) && decide (q.1 < r.1 + r.2)) || rangesOverlap rs

/-- What the buffer fails by itself: status and DETAIL (R447, R555). -/
def Dev.pairFlaw (d : Dev) (c : MbxCmd) : Option (Nat × Nat) :=
  let b := c.buffer
  let at_ := fun (st off : Nat) => some (st, bufferDetail st off)
  let n := leAt b 2 2
  let rangeFlaw := (upTo n).findSome? (fun i =>
    let o := 16 + 16 * i
    if leAt b o 6 % 65536 ≠ 0 then some o
    else if leAt b (o + 6) 2 ≠ 0 then some (o + 6)
    else if leAt b (o + 8) 6 = 0 ∨ leAt b (o + 8) 6 % 65536 ≠ 0 then some (o + 8)
    else if leAt b (o + 14) 2 ≠ 0 then some (o + 14) else none)
  if b.length < 16 then some (stBad, 16)
  else if 1 < leAt b 0 1 then at_ stBad 0
  else if 8 ≤ leAt b 1 1 ∨ !(d.getPart (leAt b 1 1)).live then at_ stBad 1
  else if n = 0 ∨ 64 < n then at_ stRange 2
  else if leAt b 4 8 ≠ 0 ∨ leAt b 12 4 ≠ 0 then at_ stBad 4
  else if c.bufLen ≠ 16 + 16 * n then some (stBad, 16)
  else match rangeFlaw with
    | some o => at_ stBad o
    | none => none

/-- The mate link is formed with the peer that A1 names (R417, R555). -/
def Dev.mateReady (d : Dev) (uid : Nat) : Bool :=
  !d.matePorts.isEmpty && d.matePorts.all (fun n => (d.getLink n).regs.mateOk && (d.getLink n).peer.uid == uid)

/-- The registers that a MIRROR_PAIR asks for. -/
def pairRegs (c : MbxCmd) : MirrorRegs :=
  { mode := fld c.a0 0 2, state := 1, side := leAt c.buffer 0 1, partition := leAt c.buffer 1 1
    interval := if fld c.a0 8 16 = 0 then 64 else fld c.a0 8 16, peerUid := c.a1, ranges := pairRanges c.buffer }

/-- The two handshakes meet (R555). -/
def Dev.meet (d : Dev) (r : MirrorRegs) (h : MirrorCfg) : Dev × Reply :=
  if d.pairFits r h then (d.formPair r, { waits := r.mode == 2 })
  else ({ d with mirror.cand := none, mirror.peerCfg := none }, { status := stIncompatible })

/-- An accepted MIRROR_PAIR (R555): MODE NONE ends the pair at once; otherwise the handshakes are exchanged. -/
def Dev.askPair (d : Dev) (c : MbxCmd) : Dev × Reply :=
  if fld c.a0 0 2 = 0 then (({ d with mirror.regs := {} }).freshEngine, {})
  else
    let r := pairRegs c
    let d := d.sayHandshake r
    match d.mirror.peerCfg with
    | some h => d.meet r h
    | none =>
      ({ d with mirror.cand := some r, mirror.regs.state := if d.mirror.regs.mode = 0 then 1 else d.mirror.regs.state }, { waits := true })

/-- The audited bytes of the mirror configuration. -/
def MirrorRegs.bytes (r : MirrorRegs) : List Byte :=
  natLe 1 r.mode ++ natLe 1 r.side ++ natLe 1 r.partition ++ natLe 2 r.interval ++ natLe 8 r.peerUid
    ++ r.ranges.flatMap (fun x => natLe 6 x.1 ++ natLe 6 x.2)

/-- R555: MIRROR_PAIR. -/
def mirrorPairSpec : MbxSpec where
  opcode := 0x0080
  roles := 2
  m0 := 0xFFFF03
  m1 := 2 ^ 64 - 1
  inBuf := true
  targets := fun c => 0x7F0 :: (if fld c.a0 0 2 = 0 then [] else [tgtPart (leAt c.buffer 1 1)])
  run := fun c d =>
    let mode := fld c.a0 0 2
    let iv := fld c.a0 8 16
    let go : Verdict := .go { old := d.mirror.regs.bytes, effect := fun d => d.askPair c }
    if mode = 3 then reject stBad 24
    else if mode = 0 then go
    else if iv ≠ 0 ∧ (iv < 16 ∨ 4096 < iv) then reject stRange 25
    else match d.pairFlaw c with
      | some f => reject f.1 f.2
      | none =>
        let rs := pairRanges c.buffer
        if !d.mateReady c.a1 then reject stNotReady 0
        else match (upTo rs.length).find? (fun i => !d.inProtected (leAt c.buffer 1 1) (rs.getD i (0, 0)).1 (rs.getD i (0, 0)).2 17) with
          | some i => reject stBad (bufferDetail stBad (16 + 16 * i))
          | none => if rangesOverlap rs then reject stBad (bufferDetail stBad 16) else go
def execMirrorPair (c : MbxCmd) (s : State) : Host.Outcome State Fault Refusal := s.live (mbxRow mirrorPairSpec none c)

/-- A pair that stands meets its peer again after a whole reset of one of them (R529, R561; log entry 50). -/
def Dev.rejoin (d : Dev) : Dev :=
  let m := d.mirror.regs
  let all := upTo (blockCount m.ranges)
  let d := (d.sayHandshake m).freshEngine
  if m.mode = 2 then
    if m.side = 0 then ({ d with mirror.regs.dirty := all, mirror.rejoined := false }).startResync
    else { d with mirror.regs.dirty := [], mirror.regs.state := 2, mirror.rejoined := false }
  else if d.mirror.rejoined then { d with mirror.regs.dirty := [], mirror.regs.state := 2, mirror.rejoined := false }
  else ({ d with mirror.regs.dirty := all, mirror.regs.state := 4 }).startResync

/-- R555: the peer's handshake arrives over the mate link: the pair forms, the command fails, or the handshake waits for this side's own command. -/
def mirrorHandshake (uid : Nat) (h : MirrorCfg) (d : Dev) : Dev :=
  d.gate (d.mateReady uid) (fun d =>
    match d.mirror.cand with
    | some r =>
      if r.peerUid ≠ uid then d
      else
        let (d, reply) := d.meet r h
        if reply.waits then d else if reply.status = stOk then d.pairDone {} else d.pairFails reply.status
    | none =>
      let m := d.mirror.regs
      let d := if m.mode ≠ 0 ∧ m.peerUid = uid ∧ (m.state = 1 ∨ m.state = 3 ∨ m.state = 4) ∧ d.pairFits m h = true then d.rejoin else d
      { d with mirror.peerCfg := some h })
def execMirrorHandshake (uid : Nat) (h : MirrorCfg) (s : State) : Host.Outcome State Fault Refusal := s.live (mirrorHandshake uid h)

/-- R555: no handshake within 1 s. -/
def mirrorHandshakeTimeout (d : Dev) : Dev :=
  d.gate (d.mirror.cand.isSome && d.host.waiting.any (fun w => w.opcode == 0x0080 && d.due w.since 1000000000)) (fun d => d.pairFails stTimeout)
def execMirrorHandshakeTimeout (s : State) : Host.Outcome State Fault Refusal := s.live mirrorHandshakeTimeout

/-! ## JOB_START of a pair (R556) -/

/-- The waiting JOB_START of the mirrored partition. -/
def pairStart (d : Dev) (w : Waiting) : Bool := w.opcode == 0x0021 && w.partition == d.mirror.regs.partition

/-- R556: the peer's record arrives: both jobs start, or neither does. -/
def mirrorStartRecord (check startBeat : Nat) (d : Dev) : Dev :=
  d.gate (d.mirror.regs.mode == 1) (fun d =>
    match d.mirror.ownStart with
    | none => { d with mirror.peerStart := some (check, startBeat) }
    | some own =>
      let notify := ((d.host.waiting.find? (pairStart d)).bind (fun w => if w.a1.testBit 0 then some w.ring else none))
      let d := { d with mirror.ownStart := none }
      if own = (check, startBeat) then
        (d.wake.acceptJob d.mirror.regs.partition startBeat notify).completeAll (pairStart d) (fun _ => { r0 := startBeat })
      else d.completeAll (pairStart d) (fun _ => { status := stIncompatible }))
def execMirrorStartRecord (check startBeat : Nat) (s : State) : Host.Outcome State Fault Refusal := s.live (mirrorStartRecord check startBeat)

/-- R556: the peer's record has not come by 4 beats before START_BEAT. -/
def Dev.pairStartLate (d : Dev) : Dev :=
  match d.mirror.ownStart with
  | some (_, start) =>
    if start ≤ d.beat.number + 4 then
      ({ d with mirror.ownStart := none }).completeAll (pairStart d) (fun _ => { status := stNotReady })
    else d
  | none => d

/-! ## Commit intervals (R557, R558, R560) -/

/-- Memory units of a partition on a die, by ascending base DPA (R557). -/
def Dev.memUnits (d : Dev) (n die : Nat) : List Nat :=
  let own := fun (i : Nat) => (d.getPart n).halves.testBit (2 * die + i / 4)
  let hbm := ((upTo 16).filter (fun r => let g := d.getRegion (16 * die + r); g.valid && g.partition == n)).foldl
    (fun l r => insertNat (die * 2 ^ 46 + (d.getRegion (16 * die + r)).first) l) []
  hbm ++ ((upTo 8).filter own).map (fun i => dpaQuarry die i 0)
    ++ ((upTo 8).filter (fun i => own i && d.caps.slabOn die i)).map (fun i => dpaStore die i 0)
    ++ ((upTo 8).filter (fun i => own i && decide (0 < d.caps.namesOf (8 * die + i)))).map (fun i => dpaCluster die i 0)

/-- The final value of a CRC-64 of R557. -/
def crcFinal (r : Nat) : Nat := r ^^^ crcStart

/-- The device value of an interval (R557). -/
def Dev.commitValue (d : Dev) : Nat :=
  let die := fun (p : Nat) => crcFinal ((d.memUnits d.mirror.regs.partition p).foldl
    (fun r b => crc64Run r (natLe 8 (crcFinal (tabGet crcStart b d.mirror.crc)))) crcStart)
  crcFinal ((upTo 4).foldl (fun r p => crc64Run r (natLe 8 (die p))) crcStart)

/-- EV_ASSAY_MISMATCH of the pair (R558, R562, R569). -/
def Dev.mismatch (d : Dev) (cause beat own peer : Nat) : Dev :=
  { d.raise { code := 0x0501, cause := cause, sev := 2, partition := d.mirror.regs.partition, addr := beat, valueA := own, valueB := peer } with
    mirror.regs.mismatchSeen := true }

/-- Both values of an interval are here (R558). -/
def Dev.compare (d : Dev) (own peer : Nat × Nat × Bool) : Dev :=
  let d := { d with mirror.sent := none, mirror.peerSent := none }
  let (beat, v, err) := own
  let (_, w, perr) := peer
  if v = w then { d with mirror.regs.commits := wrapAdd 32 d.mirror.regs.commits 1, mirror.regs.jobBeat := beat }
  else if err ∧ !perr then ({ d.mismatch 1 beat v w with mirror.regs.state := 6 }).stopNext d.mirror.regs.partition 3
  else if !err ∧ perr then ({ d.mismatch 2 beat v w with mirror.regs.state := 4 }).startResync
  else { d.mismatch 3 beat v w with mirror.regs.state := 5 }

/-- This side forms the value of an interval: in LOCKSTEP both do, in SHADOW the ACTIVE device. -/
def Mirror.commits (m : Mirror) : Bool := (m.regs.mode == 1 && m.regs.state == 3) || (m.regs.mode == 2 && m.regs.side == 0 && m.regs.state != 4)

/-- The MIRROR_COMMIT flit (R558, R560). -/
def commitPayload (beat value : Nat) (err : Bool) (seq : Nat) : List Byte :=
  padTo flitPayload (natLe 2 0x0C03 ++ natLe 7 beat ++ natLe 8 value ++ natLe 1 (b2n err) ++ natLe 2 seq)

/-- R557, R558, R560: a commit interval ends: the value is formed and sent, and every unit starts its CRC afresh. -/
def mirrorIntervalEnd (d : Dev) : Dev :=
  d.gate (d.mirror.commits && (d.getPart d.mirror.regs.partition).running && decide (d.mirror.regs.interval ≤ d.mirror.count)) (fun d =>
    let beat := d.lastJobBeat d.mirror.regs.partition
    let own := (beat, d.commitValue, d.mirror.err)
    let seq := if d.mirror.regs.mode = 2 then (d.mirror.fwdSeq + d.mirror.fwdQueue.length + 65535) % 65536 else 0
    let d := match d.mirror.matePort with
      | some n => d.sendCtrl n (commitPayload beat own.2.1 own.2.2 seq)
      | none => d
    let d := { d with mirror.crc := [], mirror.err := false, mirror.count := 0, mirror.sent := some own, mirror.sentSince := d.clock.wall }
    match d.mirror.peerSent with
    | some peer => if peer.1 = beat then d.compare own peer else d
    | none => d)
def execMirrorIntervalEnd (s : State) : Host.Outcome State Fault Refusal := s.live mirrorIntervalEnd

/-- R558, R560: MIRROR_COMMIT from the peer: in LOCKSTEP the values are compared, on the STANDBY the answer becomes due. -/
def mirrorCommit (payload : List Byte) (d : Dev) : Dev :=
  let m := d.mirror.regs
  let beat := leAt payload 2 7
  d.gate (leAt payload 0 2 == 0x0C03 && (m.mode == 2 && m.side == 1 || m.mode == 1 && m.state == 3)) (fun d =>
    if m.mode = 2 then { d with mirror.answerDue := some (beat, leAt payload 18 2) }
    else
      let peer := (beat, leAt payload 9 8, (leAt payload 17 1).testBit 0)
      match d.mirror.sent with
      | some own => if own.1 = beat then d.compare own peer else { d with mirror.peerSent := some peer }
      | none => { d with mirror.peerSent := some peer })
def execMirrorCommit (payload : List Byte) (s : State) : Host.Outcome State Fault Refusal := s.live (mirrorCommit payload)

/-- R558: no value within 16 beats of the interval end: the device continues alone. -/
def mirrorCommitTimeout (d : Dev) : Dev :=
  match d.mirror.sent with
  | some own =>
    d.gate (decide (16 ≤ d.clock.wall - d.mirror.sentSince) && (d.mirror.regs.mode == 1 || (d.mirror.fwdOpen.isEmpty && d.mirror.fwdQueue.isEmpty))) (fun d =>
      { d.mismatch 4 own.1 own.2.1 0 with mirror.sent := none, mirror.peerSent := none, mirror.regs.state := 4, mirror.copying := false })
  | none => d
def execMirrorCommitTimeout (s : State) : Host.Outcome State Fault Refusal := s.live mirrorCommitTimeout

/-! ## Forwarded writes on the STANDBY (R560) -/

/-- The ACK of a forwarded write (R366, R560). -/
def Dev.ackForward (d : Dev) (w : FwdWrite) (status : Nat) : Dev :=
  let n := d.mirror.matePort.getD 0
  let p := mkPacket (d.engineHere n) w.src d.mirror.regs.partition 0 0 false (msgHeader w.addr 0 0 1 w.seq 0 0 0) []
  d.inject (linkRouter n) 0 (answerTo p status [])

/-- Apply the writes of the reorder buffer that are next in sequence, and answer each; `fuel` bounds the buffer. -/
def Dev.applyForward (d : Dev) : Nat → Dev
  | 0 => d
  | fuel + 1 =>
    match d.mirror.reorder.find? (fun (w : FwdWrite) => w.seq == d.mirror.nextApply) with
    | none => { d with mirror.missingSince := if d.mirror.reorder.isEmpty then none else some (d.mirror.missingSince.getD d.clock.wall) }
    | some w =>
      let d := { d with mirror.reorder := d.mirror.reorder.filter (fun (x : FwdWrite) => x.seq != w.seq), mirror.nextApply := wrapAdd 16 d.mirror.nextApply 1
                        mirror.missingSince := none }
      ((d.writeMem w.addr w.bytes .engine).ackForward w 0).applyForward fuel

/-- R560: a forwarded write reaches the engine: it waits for its turn and is applied in sequence order; one whose number was skipped is discarded. -/
def mirrorForwardWrite (p : Packet) (d : Dev) : Dev :=
  d.gate (d.fwdPacket p && formatOk p && decide (d.mirror.reorder.length < 1024)) (fun d =>
    let d := d.takeLocal (routerOf p.dest) 0 p
    let w : FwdWrite := ⟨pTag p, pAddr p, pData p, p.src⟩
    (if tagBefore (pTag p) d.mirror.nextApply then d.ackForward w 2
     else ({ d with mirror.reorder := d.mirror.reorder ++ [w] }).applyForward 1025).pumpLinks)
def execMirrorForwardWrite (p : Packet) (s : State) : Host.Outcome State Fault Refusal := s.live (mirrorForwardWrite p)

/-- R560: the missing number has not come for ROUTED_TIMEOUT_US: it is skipped and the later writes are applied. -/
def mirrorSeqSkip (d : Dev) : Dev :=
  match d.mirror.missingSince with
  | some t =>
    d.gate (d.due t (1000 * (d.getPartFab d.mirror.regs.partition).timeoutUs)) (fun d =>
      ({ d with mirror.nextApply := wrapAdd 16 d.mirror.nextApply 1, mirror.missingSince := none }).applyForward 1025)
  | none => d
def execMirrorSeqSkip (s : State) : Host.Outcome State Fault Refusal := s.live mirrorSeqSkip

/-- R560: the STANDBY answers a commit once every write up to its number is applied or skipped; on the ACTIVE device the answer arrives. Either sets
MirrorCommit. -/
def mirrorCommitAnswer (d : Dev) : Dev :=
  let m := d.mirror.regs
  let set := fun (d : Dev) (beat : Nat) => { d with mirror.regs.jobBeat := beat, mirror.regs.commits := wrapAdd 32 d.mirror.regs.commits 1 }
  if m.mode = 2 ∧ m.side = 1 then
    match d.mirror.answerDue with
    | some (beat, seq) =>
      d.gate (tagBefore seq d.mirror.nextApply) (fun d => (set { d with mirror.answerDue := none } beat).emit (.mate 2 [beat]))
    | none => d
  else if m.mode = 2 then
    match d.mirror.sent with
    | some own => set { d with mirror.sent := none } own.1
    | none => d
  else d
def execMirrorCommitAnswer (s : State) : Host.Outcome State Fault Refusal := s.live mirrorCommitAnswer

/-! ## Resync (R561) -/

/-- The source copies dirty blocks in ascending order, at most so many slots of this beat; `fuel` bounds the packets. A block's bit is cleared before
it is copied. -/
def Dev.copyBlocks (d : Dev) (slots : Nat) : Nat → Dev
  | 0 => d
  | fuel + 1 =>
    match d.mirror.copyAt with
    | some (b, off) =>
      let n := min maxData (65536 - off)
      let flits := lenOf n + 1
      if slots < flits ∨ fwdBufBytes < d.mirror.fwdBytes + n then d
      else
        let a := blockAddr d.mirror.regs.ranges b + off
        let (bs, d) := d.readMem a n
        let last : Bool := off + n == 65536
        let w : FwdWrite := ⟨0, a, bs, 1⟩
        ({ d with mirror.fwdQueue := d.mirror.fwdQueue ++ [w], mirror.fwdBytes := d.mirror.fwdBytes + n
                  mirror.copyAt := if last then none else some (b, off + n)
                  mirror.copyFrom := if last then b + 1 else d.mirror.copyFrom }).copyBlocks (slots - flits) fuel
    | none =>
      match d.mirror.regs.dirty.find? (fun b => decide (d.mirror.copyFrom ≤ b)) with
      | some b =>
        ({ d with mirror.regs.dirty := d.mirror.regs.dirty.filter (· != b), mirror.copyAt := some (b, 0), mirror.copyFound := true }).copyBlocks slots fuel
      | none => d

/-- The engine's part of a beat (R560, R561): copies use at most 316 slots, then the buffer is sent. -/
def Dev.mirrorBeat (d : Dev) : Dev := (if d.mirror.copying then d.copyBlocks 316 64 else d).forwardWrites 0

/-- A pass of the source has come to its end: no dirty block is left ahead, and its copies have left the buffer. -/
def Mirror.passOver (m : Mirror) : Bool :=
  m.copyAt.isNone && !m.regs.dirty.any (fun b => decide (m.copyFrom ≤ b)) && !m.fwdQueue.any (fun w => w.src == 1)

/-- R561: a pass ends; one that found no dirty block is clean: a SHADOW pair becomes PAIRED and its MIRROR_PAIR completes. The other side hears of the
clean pass by this command (log entry 51). -/
def resyncPassEnd (d : Dev) : Dev :=
  let count := fun (d : Dev) => { d with mirror.regs.passes := satAdd 8 d.mirror.regs.passes 1 }
  let paired := fun (d : Dev) => ({ d with mirror.regs.state := 3, mirror.copying := false }).pairDone {}
  if d.mirror.copying then
    d.gate d.mirror.passOver (fun d =>
      let d := count d
      if d.mirror.copyFound then
        { d with mirror.copyFrom := 0, mirror.copyFound := false, mirror.regs.slow := d.mirror.regs.slow || decide (16 ≤ d.mirror.regs.passes) }
      else if d.mirror.regs.mode = 2 then paired d else { d with mirror.copyFrom := 0 })
  else d.gate (d.mirror.regs.mode != 0 && d.mirror.regs.state == 2) (fun d => if d.mirror.regs.mode = 2 then paired (count d) else count d)
def execResyncPassEnd (s : State) : Host.Outcome State Fault Refusal := s.live resyncPassEnd

end Sys2Proof.Machine
end

