-- ==== Sys2Proof/Machine/Standby.lean ====
section
/-! DEFINITION. The standby Bedrock and firmware activation (R457 to R462, R482, R563): watchdogs, takeover, restart, FW_ACTIVATE. -/

namespace Sys2Proof.Machine

/-! ## FW_ACTIVATE -/

/-- Nothing but FW_ACTIVATE executes. -/
def Dev.onlyActivate (d : Dev) : Bool := d.host.waiting.all (fun w => w.opcode == 0x0061) && d.host.parked.isEmpty

/-- Once the executing command of each ring has ended, mailbox service pauses (R462, R563 step 1). -/
def Dev.activatePause (d : Dev) : Dev :=
  if d.bed.fwPhase = 1 ∧ d.onlyActivate = true then
    d.setBed (fun b => { b with paused := true, pauseCause := 2, fwPhase := 2, fwSince := d.clock.wall })
  else d

/-- R451, R462, R563: FW_ACTIVATE. -/
def fwActivateSpec : MbxSpec where
  opcode := 0x0061
  roles := 6
  m0 := 1
  targets := fun c => [tgtBank (fld c.a0 0 1)]
  run := fun c d =>
    let b := fld c.a0 0 1
    let bank := d.flash.bank d.bed.primary b
    if !d.bed.standbyOk ∨ !bank.present ∨ !bank.verified then reject stNotReady 0
    else if d.bed.fwPhase ≠ 0 then reject stConflict detailState
    else .go { old := natLe 1 d.flash.activeBank, new := natLe 1 b, effect := fun d =>
      ({ d with bed.fwPhase := 1, bed.fwBank := b, bed.fwSince := d.clock.wall }, { waits := true }) }
def execFwActivate (c : MbxCmd) (s : State) : Host.Outcome State Fault Refusal :=
  s.live (fun d => (mbxRow fwActivateSpec none c d).activatePause)

/-- The other Bedrock that can be primary. -/
def Dev.otherBedrock (d : Dev) : Nat := if d.bed.primary = 0 then 2 else 0

/-- EV_FW_ACTIVATED for a die whose Bedrock now runs an image (R563, R569). -/
def Dev.runsImage (d : Dev) (die : Nat) : Dev :=
  let v := fwVersion (d.flash.bank d.bed.primary d.bed.fwBank).image
  let old := tabGet 0 die d.bed.fwVersion
  { d with bed.fwVersion := tabSet 0 die v d.bed.fwVersion }.raise { code := 0x0801, sev := 0, index := die, valueA := v, valueB := old }

/-- R462, R472, R563 steps 2 and 3: the primary runs the new body: the active-bank record is written, service resumes and FW_ACTIVATE completes. -/
def fwActivateTakeover (d : Dev) : Dev :=
  d.gate (d.bed.fwPhase == 2 && decide (d.bed.fwSince < d.clock.wall)) (fun d =>
    let b := d.bed.fwBank
    let v := fwVersion (d.flash.bank d.bed.primary b).image
    let d := { d with flash.activeBank := b, flash.activeRec := d.flash.activeRec.commit, bed.activeBank := b }
    let d := d.setBed (fun x => { x with paused := false, pauseCause := 0, fwPhase := 3, fwSwitch := 0, fwSince := d.clock.wall })
    let d := (d.runsImage d.bed.primary).completeAll (fun w => w.opcode == 0x0061) (fun _ => { r0 := v })
    d.setBed (fun x => { x with standbyOk := false }))
def execFwActivateTakeover (s : State) : Host.Outcome State Fault Refusal := s.live fwActivateTakeover

/-- The order in which the other Bedrocks switch (R563 step 4). -/
def Dev.switchOrder (d : Dev) : List Nat := [d.otherBedrock, 1, 3]

/-- R563 step 4: the next Bedrock in turn runs the new firmware; the standby serves again once it has switched. -/
def fwSwitchDie (die : Nat) (d : Dev) : Dev :=
  d.gate (d.bed.fwPhase == 3 && d.switchOrder.getD d.bed.fwSwitch 4 == die) (fun d =>
    let standby := decide (d.bed.fwSwitch = 0)
    let n := d.bed.fwSwitch + 1
    let ok := d.bankOk die d.bed.fwBank && d.bed.securityMatch
    let d := d.runsImage die
    d.setBed (fun b => { b with fwSwitch := n, fwPhase := if n = 3 then 0 else 3, standbyOk := if standby then ok else b.standbyOk }))
def execFwSwitchDie (die : Nat) (s : State) : Host.Outcome State Fault Refusal := s.live (fwSwitchDie die)

/-! ## Takeover -/

/-- The standby takes over (R459 step 2). -/
def Dev.takeover (d : Dev) : Dev :=
  { (d.setBed (fun b => { b with paused := true, pauseCause := 1 })) with bed.takeoverSince := some d.clock.wall, bed.fwPhase := 0 }

/-- R563: the new firmware has not resumed service within 250 ms: the standby, which runs the old firmware, takes over. -/
def fwActivateTimeout (d : Dev) : Dev :=
  d.gate (d.bed.fwPhase == 2 && d.due d.bed.fwSince 250000000) Dev.takeover
def execFwActivateTimeout (s : State) : Host.Outcome State Fault Refusal := s.live fwActivateTimeout

/-- R432: the heartbeat counts each millisecond while the primary serves mailboxes. -/
def heartbeatTick (d : Dev) : Dev := d.gate d.serving (fun d => { d with bed.heartbeat := wrapAdd 64 d.bed.heartbeat 1 })
def execHeartbeatTick (s : State) : Host.Outcome State Fault Refusal := s.live heartbeatTick

/-- R20, R459, R462: the primary's watchdog expires: the standby takes over, or the device resets itself with cause NO_STANDBY. A pause for FW_ACTIVATE
counts only past 250 ms. -/
def primaryWatchdogExpiry (d : Dev) : Dev :=
  let pause := d.bed.fwPhase == 2 && !d.due d.bed.fwSince 250000000
  d.gate (d.bed.ready && d.bed.takeoverSince.isNone && !pause) (fun d =>
    if d.bed.standbyOk then d.takeover else d.selfReset 2 1)
def execPrimaryWatchdogExpiry (s : State) : Host.Outcome State Fault Refusal := s.live primaryWatchdogExpiry

/-- A partition that PARTITION_CREATE had not created in full is not created (R460). -/
def Dev.uncreate (d : Dev) (n : Nat) : Dev :=
  let p := d.getPart n
  let d := Dev.each (d.regionsOf n) (fun d k => d.modRegion k (fun _ => {})) d
  let d := Dev.each (upTo 64) (fun d k => if (d.getChan k).assigned ∧ (d.getChan k).partition = n then
    d.modChan k (fun b => { b with assigned := false, partition := 0 }) else d) d
  (Dev.each p.halfList (fun d h => d.modHalf h (fun x => { x with partition := none })) d).modPart n (fun _ => {})

/-- A unit that was leaving stays in service; copies stop (R460). -/
def Dev.stay (d : Dev) (u : UnitId) : Dev :=
  let d := { d with caps.leaving := d.caps.leaving.filter (· != u) }
  if 4 ≤ u.1 then d.modStack (5 * u.2.1 + u.2.2.1) (fun s => { s with retiring := none, retireChannel := none, migrating := false }) else d

/-- What a command that had started without a commit leaves (R460). -/
def Dev.undo (d : Dev) (w : Waiting) : Dev :=
  if w.opcode = 0x0010 then d.uncreate (fld w.a0 0 3)
  else if w.opcode = 0x0062 then (if fld w.a0 0 2 = 2 then d.modHalfPow (fld w.a0 8 5) (fun p => { p with frozen := false }) else d)
  else if w.opcode = 0x0070 ∨ w.opcode = 0x0072 then d.stay (unitOf w.a0)
  else if w.opcode = 0x0080 then (if d.mirror.cand.isSome then { d with mirror.cand := none } else { d with mirror := {} })
  else if w.opcode = 0x0033 then
    match d.fab.change with
    | some x => ({ d with fab.change := none }).releaseHeld x.held
    | none => d
  else if w.opcode = 0x0021 then { d with mirror.ownStart := none }
  else d

/-- A waiting command has not committed: a JOB_STOP has, and so has a JOB_START that only waits for the exit from deep idle. -/
def Dev.uncommitted (d : Dev) (w : Waiting) : Bool :=
  w.opcode != 0x0022 && !(w.opcode == 0x0021 && (d.getPart w.partition).job.waitExit)

/-- A parked command ends without an effect. -/
def Dev.dropParked (d : Dev) (pick : MbxCmd → Bool) (r : Reply) : Dev :=
  let cs := d.host.parked.filter pick
  Dev.each cs (fun d c => d.finish c false r) { d with host.parked := d.host.parked.filter (fun c => !pick c) }

/-- R459 steps 3 and 4, R460, R482: the new primary has replayed the journal: sessions are closed, commands without a commit complete with INTERNAL, and
service resumes. -/
def takeoverResume (d : Dev) : Dev :=
  d.gate d.bed.takeoverSince.isSome (fun d =>
    let next := d.otherBedrock
    let d := d.audit 3 0 0 0xFF 0 (natLe 1 d.bed.primary) (natLe 1 next)
    let d := (d.closeSession 64).closeSession 65
    let d := Dev.each (d.host.waiting.filter d.uncommitted) (fun d w => (d.undo w).completeLate w { status := stInternal, detail := 1 }) d
    let d := d.dropParked (fun _ => true) { status := stInternal, detail := 1 }
    let d := { d with bed.takeoverSince := none, bed.standbyRestart := some d.clock.wall, bed.fwPhase := 0 }
    d.setBed (fun b => { b with
      primary := next, failovers := satAdd 8 b.failovers 1, failoverSeen := true, standbyOk := false, paused := false, pauseCause := 0 }))
def execTakeoverResume (s : State) : Host.Outcome State Fault Refusal := s.live takeoverResume

/-- R459 step 5, R471: the old primary has restarted from its own flash; if it verifies it serves as standby. -/
def standbyRestartDone (ok : Bool) (d : Dev) : Dev :=
  d.gate d.bed.standbyRestart.isSome (fun d =>
    let good := ok && d.bankOk d.otherBedrock d.bed.activeBank && d.bed.securityMatch
    ({ d with bed.standbyRestart := none }).setBed (fun b => { b with standbyOk := good }))
def execStandbyRestartDone (ok : Bool) (s : State) : Host.Outcome State Fault Refusal := s.live (standbyRestartDone ok)

/-! ## Bedrocks of P1 and P3 -/

/-- R461: the Bedrock of P1 or P3 restarts in place. -/
def subdieWatchdogExpiry (die : Nat) (d : Dev) : Dev :=
  d.gate (d.bed.ready && (die == 1 || die == 3) && !d.bed.subdieRestart.any (fun x => x.1 == die)) (fun d =>
    { d with bed.subdieRestart := tabSet 0 die (d.clock.wall + 1) d.bed.subdieRestart })
def execSubdieWatchdogExpiry (die : Nat) (s : State) : Host.Outcome State Fault Refusal := s.live (subdieWatchdogExpiry die)

/-- Dies that a waiting command needs. -/
def waitNeeds (w : Waiting) (die : Nat) : Bool :=
  if w.opcode = 0x0070 ∨ w.opcode = 0x0071 ∨ w.opcode = 0x0072 then fld w.a0 4 2 == die
  else if w.opcode = 0x0010 then fld (fld w.a0 8 8) (2 * die) 2 != 0
  else if w.opcode = 0x0062 then (if fld w.a0 0 2 = 0 then fld w.a0 8 5 / 4 % 4 == die else if fld w.a0 0 2 = 1 then fld w.a0 8 5 / 5 == die else fld w.a0 8 5 / 2 % 4 == die)
  else false

/-- R461, R553: the Bedrock has not returned after 2 s: the commands that need its die complete with INTERNAL, and it restarts again; a second failure in a
row resets the device. -/
def subdieRestartTimeout (die : Nat) (d : Dev) : Dev :=
  let since := tabGet 0 die d.bed.subdieRestart
  d.gate (decide (0 < since) && d.due (since - 1) 2000000000) (fun d =>
    let r : Reply := { status := stInternal, detail := 3 }
    let d := Dev.each (d.host.waiting.filter (fun w => waitNeeds w die)) (fun d w => (d.undo w).completeLate w r) d
    let cs := d.host.parked.filter (fun c => (d.needsDies c).contains die)
    let d := d.dropParked cs.contains r
    if 1 ≤ tabGet 0 die d.bed.subdieFails then d.selfReset 3 1
    else { d with bed.subdieRestart := tabSet 0 die (d.clock.wall + 1) d.bed.subdieRestart
                  bed.subdieFails := tabSet 0 die (tabGet 0 die d.bed.subdieFails + 1) d.bed.subdieFails })
def execSubdieRestartTimeout (die : Nat) (s : State) : Host.Outcome State Fault Refusal := s.live (subdieRestartTimeout die)

end Sys2Proof.Machine
end

