-- ==== Sys2Proof/Machine/Edge.lean ====
section
/-! DEFINITION. The local beat edge (R33 to R63, R89, R92, R499, R504, R512, R581, R601): what ends with a beat, what begins with the next, and the steps
of a frequency change. -/

namespace Sys2Proof.Machine

/-! ## The beat that ends -/

/-- A half does the work of its job in the current beat (R35, R56, R89). -/
def Dev.halfWorks (d : Dev) (h : Nat) : Bool :=
  match d.holder h with
  | some n =>
    let p := d.getPart n
    p.running && !p.job.waitStart && !(d.heldBeat && p.job.lockstep) && !d.pausedHalf h
  | none => false

/-- The job cycles of a half run in the current beat: not while it is frozen in a hold (R56) or its clock is gated (R89). -/
def Dev.halfAdvances (d : Dev) (h : Nat) : Bool := !(d.heldBeat && d.lockHalf h) && !d.pausedHalf h

/-- Work of a half up to the end of its beat, and the base of its next one. -/
def Dev.endHalf (d : Dev) (h : Nat) : Dev :=
  if d.halfAdvances h then
    let n := d.cyclesOf h
    let t := d.now h n
    let d := if d.halfWorks h then d.runHalf h t else d
    let d := d.cairnFlush h t
    let d := if d.halfRuns h then Dev.each (unitsOfHalf h) (fun d k => d.creditTo k t) d else d
    d.modHalf h (fun x => { x with cycBase := x.cycBase + n })
  else d

/-! ## The new beat -/

/-- Ports at an edge (R42, R49, R52): the expected number advances, and a port that delivered nothing misses one. -/
def BeatPort.edge (p : BeatPort) : BeatPort :=
  { p with expected := p.expected.map (wrapAdd 56 · 1), gotThis := false
           good := if p.gotThis then p.good else 0, misses := if p.gotThis then 0 else p.misses + 1 }

/-- What listening leaves at an edge (R52, R54, R62). -/
def Dev.portsEdge (d : Dev) : Dev :=
  let missing := if d.beat.state = bsLocked ∧ d.heardBeat = false then d.aux.missing + 1 else d.aux.missing
  { d with
    beat.ports := tabMap {} BeatPort.edge d.beat.ports
    aux.missing := missing
    aux.conflictBeats := if d.aux.conflictNow then d.aux.conflictBeats + 1 else 0
    aux.conflictRaised := d.aux.conflictRaised && d.aux.conflictNow
    aux.conflictNow := false }

/-- The device counts beats: it is LOCKED or MASTER. -/
def Dev.inBeat (d : Dev) : Bool := d.beat.state == bsLocked || d.beat.state == bsMaster

/-- A new master begins (R46, R48, R55): with BEAT_IN after 16 good edges. -/
def Dev.becomeMaster (d : Dev) (start : Nat) : Dev :=
  let ext := d.beat.source == 1
  let d := { d with
    beat.state := bsMaster
    beat.number := start
    beat.hop := 0
    beat.master := d.fab.selfDevice
    beat.holdCount := 0
    beat.beatInOk := ext
    beat.heldBeats := []
    beat.annFrom := start
    beat.annTo := start + 24
    beat.requests := []
    aux.startPending := none
    aux.approach := false }
  if ext then d.placeOnIn else d

/-- The number of the new beat (R33): a new master starts its count, a counting device adds one. -/
def Dev.nextNumber (d : Dev) : Dev :=
  match d.aux.startPending with
  | some n => if d.beat.source = 0 ∨ 16 ≤ d.aux.beatInGood then d.becomeMaster n else d
  | none => if d.inBeat then { d with beat.number := wrapAdd 56 d.beat.number 1 } else d

/-- The parent chosen under R52 takes over. -/
def Dev.newParent (d : Dev) : Dev :=
  match d.aux.parentNext with
  | some n => { d with beat.parentPort := n, beat.parentD2d := decide (16 ≤ n), beat.hop := (d.getBPort n).hop + 1, aux.parentNext := none }
  | none => d

/-- A request that asks for a hold of the beat under decision (R59). -/
def HoldReq.wants (r : HoldReq) : Bool :=
  decide (0 < r.n) && (match r.seen with
    | none => true
    | some k => decide (r.s ≤ k))

/-- A request after a beat was decided held (R59). -/
def HoldReq.served (r : HoldReq) : HoldReq := { r with n := r.n - 1, seen := some 0 }

/-- A request after a beat was decided not held. -/
def HoldReq.passed (r : HoldReq) : HoldReq := { r with seen := r.seen.map (· + 1) }

/-- The master decides that a beat is held (R59). -/
def Dev.decides (d : Dev) (b : Nat) : Bool :=
  d.beat.requests.any HoldReq.wants
    && decide ((d.beat.heldBeats.filter (fun h => decide (h + 15 ≥ b) && decide (h < b))).length + 1 ≤ d.beat.holdCap)

/-- The master forms its header (R59, R61): the status of beat B + 24 is decided and never changed. -/
def Dev.decide24 (d : Dev) : Dev :=
  let b := d.beat.number + 24
  if d.decides b then
    let own := decide (0 < d.aux.ownLeft)
    let d' := if own ∧ !d.aux.ownRaised then d.raise { code := 0x0402, sev := 0, valueA := b, valueB := d.aux.ownLeft - 1 } else d
    { d' with
      beat.heldBeats := d.beat.heldBeats ++ [b]
      beat.annTo := b + 1
      beat.requests := (d.beat.requests.map HoldReq.served).filter (fun r => decide (0 < r.n))
      aux.ownLeft := d.aux.ownLeft - 1
      aux.ownRaised := d.aux.ownRaised || own }
  else { d with beat.annTo := b + 1, beat.requests := d.beat.requests.map HoldReq.passed }

/-- Holds past their beat are forgotten, and a held beat counts (R61, R69). -/
def Dev.countHold (d : Dev) : Dev :=
  let d := { d with beat.heldBeats := d.beat.heldBeats.filter (fun b => decide (d.beat.number ≤ b + 1)) }
  if d.inBeat ∧ d.heldBeat = true then { d with beat.holdCount := wrapAdd 48 d.beat.holdCount 1 } else d

/-- The master comes back to BEAT_IN by at most one fine-phase step every 64 beats (R47). -/
def Dev.approachStep (d : Dev) : Dev :=
  let g := gridSteps d.aux.beatInPhase
  if d.aux.approach ∧ d.beat.state = bsMaster then
    if g = 0 then { d with aux.approach := false }
    else if 64 ≤ d.clock.wall - d.aux.alignWait then
      let s : Int := if 0 < g then 1 else -1
      { d with aux.edgePhase := d.aux.edgePhase + s, aux.beatInPhase := d.aux.beatInPhase - 10 * s, aux.alignWait := d.clock.wall }
    else d
  else d

/-- The beat logic at an edge. -/
def Dev.beatLogic (d : Dev) : Dev :=
  let d := d.portsEdge.nextNumber.newParent
  let d := if d.beat.state = bsMaster then d.decide24 else d
  d.countHold.approachStep

/-! ## Jobs at an edge -/

/-- Stops asked for since the last edge take place (R62, R131, R451), and a job of which no context goes on stops with the cause of the first that
stopped alone (log entry 171). -/
def Dev.stopEdge (d : Dev) (n : Nat) : Dev :=
  let p := d.getPart n
  match p.job.stopPending with
  | some cause => if p.running then (d.stopPartition n cause).stopsDone n else d
  | none => if p.running ∧ p.job.fault ≠ 0 ∧ d.noneGoesOn n = true then (d.stopPartition n p.job.fault).stopsDone n else d

/-- The guarantee window of PROGRESS counts a beat of a running job (R512). -/
def Guarantee.beat (g : Guarantee) (job : Bool) : Guarantee :=
  if g.rank = 0 then g else { g with beats := g.beats + 1, jobBeats := if job then g.jobBeats + 1 else g.jobBeats }

/-- The beat that ended was a job beat of a partition or not (R35): the windows of R512 and R557 count it. -/
def Dev.countJobBeat (d : Dev) (held : Bool) (n : Nat) : Dev :=
  let p := d.getPart n
  if p.running ∧ p.job.waitStart = false then
    let counts := !(held && p.job.lockstep)
    let d := if (d.getGuar (4 * n)).rank = 0 then d else d.modGuar (4 * n) (fun g => g.beat counts)
    if counts ∧ d.mirror.regs.mode ≠ 0 ∧ d.mirror.regs.partition = n then { d with mirror.count := d.mirror.count + 1 } else d
  else d

/-- The job-beat counter counts the new beat where it is not held for the job (R35). -/
def Dev.jobBeatEdge (d : Dev) (n : Nat) : Dev :=
  let p := d.getPart n
  if p.running ∧ p.job.waitStart = false ∧ !(d.heldBeat && p.job.lockstep) then
    d.modPart n (fun p => { p with job.jobBeat := p.job.jobBeat + 1 })
  else d

/-- Some half of a partition waits for or runs a frequency change. -/
def Dev.freqMoves (d : Dev) (n : Nat) : Bool :=
  (d.getPart n).dies.any (fun p => (d.getSeam p).current.isSome || !(d.getSeam p).queue.isEmpty)

/-- New offsets of the points in use reach the rails (R498). -/
def Dev.offsetEdge (d : Dev) (n : Nat) : Dev :=
  if (d.getPart n).running ∧ (d.getPart n).job.waitStart = false ∧ d.freqMoves n = false then d.applyOffset n else d

/-- Jobs at an edge, after the beat that ended was held or not. -/
def Dev.jobsEdge (d : Dev) (held : Bool) : Dev :=
  let d := Dev.each (upTo 8) (fun d n => d.countJobBeat held n) d
  let d := Dev.each (upTo 8) Dev.stopEdge d
  let d := Dev.each (upTo 8) Dev.jobBeatEdge d
  Dev.each (upTo 8) Dev.offsetEdge d.stopLeaving

/-! ## The Seam (R89, R92) -/

/-- The steps of a frequency change that an edge brings: at E + 1 the clocks and rails of the changing halves move. -/
def Dev.changeStep (d : Dev) (die : Nat) : Dev :=
  let s := d.getSeam die
  let move := fun (d : Dev) (h : Nat) (f : Option Nat) =>
    match f with
    | some f =>
      let o := match d.holder h with
        | some n => if (d.getPart n).running then (d.pointNow n).offset else 0
        | none => (0 : Int)
      ((d.modHalf h (fun x => { x with freq := f })).modHalfPow h (fun p => { p with offset := o })).newSetpoint h
    | none => d
  match s.current with
  | some r => if d.clock.wall = s.changeAt + 1 then move (move d (2 * die) r.h0) (2 * die + 1) r.h1 else d
  | none => d

/-- Rows whose FIFO occupancy differs at this edge (R92): those of a die in MESO slip, and are trained again at the next edge. -/
def Dev.slipEdge (d : Dev) (slips : List Nat) (die : Nat) : Dev :=
  let rows := if (d.getSeam die).mode = 0 then (upTo 4).filter (fun r => slips.contains (4 * die + r)) else []
  if rows.isEmpty ∧ (d.getSeam die).poisoned = 0 then d
  else
    let d := d.modSeam die (fun s => { s with poisoned := rows.foldl (fun m r => m + 2 ^ r) 0 })
    Dev.each rows (fun d r => d.seamSlip die 2 r) d

/-! ## What leaves at an edge -/

/-- The header that the device sends for the new beat (R42, R43). -/
def Dev.ownHeader (d : Dev) : Header :=
  let b := d.beat
  let lo := b.number + (17 - b.hop)
  let master := b.state == bsMaster
  { hop := b.hop, held := d.heldBeat, ext := if master then b.source == 1 && b.beatInOk else b.extSource
    number := b.number, offset := 17 - b.hop
    map := (upTo 8).foldl (fun m i => if b.heldBeats.contains (lo + i) then m + 2 ^ i else m) 0
    cap := if master then b.holdCap else b.fwdHoldCap, master := b.master, domain := b.domain, gen := b.configGen }

/-- Slot 0 of every trained port (R42, R63), and BEAT_OUT (R601). -/
def Dev.sendHeaders (d : Dev) : Dev :=
  let ports := (upTo 20).filter (fun n => (d.getLink n).regs.state == 3)
  if d.inBeat then
    let b := headerBytes d.ownHeader
    let d := Dev.each ports (fun d n => d.emit (.header n b)) d
    { d with pins.beatOut := true }.emit (.pin 0 true)
  else Dev.each ports (fun d n => d.emit (.idleSlot0 n)) { d with pins.beatOut := false }

/-- What a new beat opens: throttling levels (R504), routed slots (R38), the ring's limits, copies and late commands. -/
def Dev.openBeat (d : Dev) : Dev :=
  let d := { d with pow.levels := d.pow.levelsNext, fab.ringQueues := [] }
  let d := Dev.each (upTo 24) (fun d e => if d.linkUp e then d.modLink e (fun l => { l with routed.txSlot := 8 }) else d) d
  let d := if d.mirror.regs.mode ≠ 0 ∧ d.mirror.matePort.isNone then { d with mirror.matePort := d.mateInUse } else d
  let d := d.enableUnits.startCopies.pairStartLate.mirrorBeat
  d.pumpLinks.activatePause

/-- One more beat has passed. -/
def Dev.tickWall (d : Dev) : Dev := { d with clock.wall := d.clock.wall + 1 }

/-- The timers that count beats (R57), and the Assay units (R584). -/
def Dev.timersEdge (d : Dev) (held : Bool) : Dev :=
  Dev.each (upTo 32) (fun d u => d.assayEdge held u) ((d.tickWaits held).tickBarriers held)

/-- An edge of a running device: the beat ends, and the next one begins. -/
def Dev.liveEdge (d : Dev) (slips : List Nat) : Dev :=
  let held := d.heldBeat
  let d := (Dev.each (upTo 8) Dev.endHalf d).tickWall
  let d := (d.beatLogic.timersEdge held).jobsEdge held
  let d := Dev.each (upTo 4) (fun d p => (d.changeStep p).slipEdge slips p) d
  d.sendHeaders.openBeat

/-- R43: the local beat edge. `slips` names, as 4 × die + row, the Seam crossings whose occupancy differs at it (R92). A device that is held in reset or
without power only counts the time. -/
def beatEdge (slips : List Nat) (d : Dev) : Dev := if d.boot.phase.live then d.liveEdge slips else d.tickWall
def execBeatEdge (slips : List Nat) (s : State) : Host.Outcome State Fault Refusal := s.run (beatEdge slips)

/-! ## Frequency changes (R89) and operating points (R233, R499) -/

/-- R89 step 1: at the first edge after a request the Seam enters CHANGING; a change that waits starts at an edge after the one in progress. -/
def seamChangeStart (die : Nat) (d : Dev) : Dev :=
  let s := d.getSeam die
  d.gate (s.current.isNone && (s.changes == 0 || decide (s.changeAt + 14 < d.clock.wall))) (fun d =>
    match s.queue with
    | r :: rest => d.modSeam die (fun s => { s with current := some r, queue := rest, mode := 2, changeAt := d.clock.wall })
    | [] => d)
def execSeamChangeStart (die : Nat) (s : State) : Host.Outcome State Fault Refusal := s.live (seamChangeStart die)

/-- R89 step 4: at E + 14 beats the Seam is in MESO if the frequencies match, else in ASYNC, and takes routed packets again. -/
def seamChangeEnd (die : Nat) (d : Dev) : Dev :=
  let s := d.getSeam die
  d.gate (s.current.isSome && decide (s.changeAt + 14 ≤ d.clock.wall)) (fun d =>
    let same := (d.getHalf (2 * die)).freq == (d.getHalf (2 * die + 1)).freq
    d.modSeam die (fun s => { s with mode := if same then 0 else 1, changes := wrapAdd 16 s.changes 1, current := none }))
def execSeamChangeEnd (die : Nat) (s : State) : Host.Outcome State Fault Refusal := s.live (seamChangeEnd die)

/-- The entry of an OPPOINTS list whose job beat this is (R233). -/
def Image.pointAt (i : Image) (jobBeat : Nat) : Option Nat :=
  let j := if i.oppPeriod = 0 then jobBeat else jobBeat % i.oppPeriod
  i.oppoints.findIdx? (fun e => e.beat == j)

/-- R499: the point of the current job beat takes effect: its cap at once, its offset at once unless the frequency moves too, which runs R89. -/
def oppointChange (partition : Nat) (d : Dev) : Dev :=
  let p := d.getPart partition
  match p.image with
  | none => d
  | some i =>
    match i.pointAt p.job.jobBeat with
    | none => d
    | some k =>
      d.gate (p.running && !p.job.waitStart && p.job.oppIndex != k) (fun d =>
        let d := d.modPart partition (fun p => { p with job.oppIndex := k })
        let f := (d.pointNow partition).freq
        if (d.halvesToMove partition f).isEmpty then d.offsetEdge partition else d.askFrequency partition f)
def execOppointChange (partition : Nat) (s : State) : Host.Outcome State Fault Refusal := s.live (oppointChange partition)

end Sys2Proof.Machine
end

