-- ==== Sys2Proof/Machine/Fetch.lean ====
section
/-! DEFINITION. Descriptors that Bedrock fetches (R440 to R445, R451, R454), and the end of a die's Bedrock restart (R461). -/

namespace Sys2Proof.Machine

/-- A command whose SELECT names nothing (R451): it fails at A0. -/
def badSelectSpec (opcode : Nat) : MbxSpec where
  opcode := opcode
  roles := 2
  m0 := 2 ^ 64 - 1
  m1 := 2 ^ 64 - 1
  m2 := 2 ^ 64 - 1
  run := fun _ _ => reject stBad 24

/-- FABRIC_POLICY_SET by its SELECT (R451). -/
def fabricSpec (select : Nat) : MbxSpec :=
  match select with
  | 0 => fabricSelfSpec
  | 1 => fabricPartitionSpec
  | 2 => fabricTreeSpec
  | 3 => fabricApertureSpec
  | _ => badSelectSpec 0x0032

/-- POWER_POLICY_SET by its SELECT (R451, R502). -/
def powerSpec (select : Nat) : MbxSpec :=
  match select with
  | 0 => powerCapSpec
  | 1 => powerOrderSpec
  | 2 => powerIdleSpec
  | 3 => powerGravelSpec
  | 4 => powerScrubSpec
  | _ => badSelectSpec 0x0040

/-- The command table of R451 below 0x0050. -/
def specLow (c : MbxCmd) : Option MbxSpec :=
  match c.opcode with
  | 0x0001 => some deviceInfoSpec
  | 0x0002 => some ownershipTakeSpec
  | 0x0010 => some partitionCreateSpec
  | 0x0011 => some partitionDestroySpec
  | 0x0020 => some imageLoadSpec
  | 0x0021 => some jobStartSpec
  | 0x0022 => some jobStopSpec
  | 0x0023 => some jobStatusSpec
  | 0x0030 => some beatConfigSpec
  | 0x0031 => some linkConfigSpec
  | 0x0032 => some (fabricSpec (fld c.a0 0 4))
  | 0x0033 => some routeTableSpec
  | 0x0040 => some (powerSpec (fld c.a0 0 4))
  | 0x0041 => some oppointSpec
  | 0x0042 => some (guaranteeSpec (fld c.a0 4 2))
  | 0x0043 => some energyReadSpec
  | _ => none

/-- The command table of R451 from 0x0050 on. -/
def specHigh (c : MbxCmd) : Option MbxSpec :=
  match c.opcode with
  | 0x0050 => some telemetryReadSpec
  | 0x0051 => some logReadSpec
  | 0x0060 => some fwStageSpec
  | 0x0061 => some fwActivateSpec
  | 0x0062 => some calRunSpec
  | 0x0070 => some (leaveSpec 0x0070)
  | 0x0071 => some unitEnableSpec
  | 0x0072 => some (leaveSpec 0x0072)
  | 0x0080 => some mirrorPairSpec
  | 0x0090 => some cairnSetSpec
  | 0x0091 => some assayConfigSpec
  | 0x00A0 => some fuseProgramSpec
  | 0x00A1 => some regAccessSpec
  | 0x00A2 => some debugUnlockSpec
  | _ => none

/-- The command that an opcode names (R451). -/
def specOf (c : MbxCmd) : Option MbxSpec :=
  match specLow c with
  | some sp => some sp
  | none => specHigh c

/-- Execute a fetched descriptor: an opcode that R451 does not have fails at byte 0 (R448). -/
def Dev.runFetched (d : Dev) (c : MbxCmd) : Dev :=
  match specOf c with
  | none => d.finish c false { status := stBad, detail := 0 }
  | some sp => if d.mustPark c then d.park c else (d.runMbx sp c).activatePause

/-- Bedrock fetches on a ring (R440, R442, R454): it is ACTIVE and idle, a descriptor is pending, a completion entry is free and no notice waits. -/
def Dev.mayFetch (d : Dev) (ring : Nat) : Bool :=
  let q := d.getRing ring
  d.serving && decide (ring < 66) && q.state == 1 && !q.executing && q.tail != q.head && q.hasRoom && q.notices.isEmpty

/-- R440, R442: the descriptor at HEAD is fetched; HEAD advances, and the command is checked and executed. A fetch that fails on PCIe stops the ring with
HOST_READ. -/
def descriptorFetch (ring : Nat) (fetched : Option MbxCmd) (d : Dev) : Dev :=
  d.gate (d.mayFetch ring) (fun d =>
    match fetched with
    | none => d.modRing ring (fun q => { q with state := 2, errCause := 3 })
    | some c => (d.modRing ring (fun q => { q with head := (q.head + 1) % 2 ^ q.sizeLog2 })).runFetched { c with ring := ring })
def execDescriptorFetch (ring : Nat) (fetched : Option MbxCmd) (s : State) : Host.Outcome State Fault Refusal :=
  s.live (descriptorFetch ring fetched)

/-- R461: the Bedrock of P1 or P3 has returned: the commands that waited for it are executed. -/
def subdieRestartDone (die : Nat) (d : Dev) : Dev :=
  d.gate (d.bed.subdieRestart.any (fun x => x.1 == die)) (fun d =>
    let d := { d with bed.subdieRestart := d.bed.subdieRestart.filter (fun x => x.1 != die)
                      bed.subdieFails := tabSet 0 die 0 d.bed.subdieFails }
    let go := d.host.parked.filter (fun c => !d.mustPark c)
    let d := { d with host.parked := d.host.parked.filter d.mustPark }
    Dev.each go (fun d c => (d.modRing c.ring (fun q => { q with executing := false })).runFetched c) d)
def execSubdieRestartDone (die : Nat) (s : State) : Host.Outcome State Fault Refusal := s.live (subdieRestartDone die)

end Sys2Proof.Machine
end

