-- ==== Sys2Proof/Machine/Gravel.lean ====
section
/-! DEFINITION. Gravel (spec/16 R513 to R515, spec/04 R130): the level G of a slab moves once every 64 job cycles. -/

namespace Sys2Proof.Machine

/-- Streamed cycles of the window of 64 cycles that ends at t, from the pass intervals (start, D). -/
def streamedIn (t : Nat) (l : List (Nat × Nat)) : Nat :=
  min 64 (l.foldl (fun n p => n + (min t (p.1 + p.2) - max (t - 64) p.1)) 0)

/-- Current of one sixteenth of a slab's full streaming activity in mA: the calibrated coefficient of R501 scales a value the spec does not
number (log entry 13). -/
def Dev.sixteenthMa (d : Dev) (half : Nat) : Nat :=
  Config.slabSixteenth half (d.getHalf half).freq * (d.getRail half).coeff / 1000

/-- R513, R515: the step in sixteenths, and the windows between steps. The slope allows 16,000 × SLOPE / f mA in 64 cycles. -/
def Dev.gravelPace (d : Dev) (half : Nat) : Nat × Nat :=
  let cur := max 1 (d.sixteenthMa half * (800 + 50 * (d.getHalf half).freq))
  let room := 16000 * d.pow.slope
  (max 1 (room / cur), if room < cur then (cur + room - 1) / max 1 room else 1)

/-- Windows left until the release of a context that waits on a lockstep barrier of RELEASE_BEATS ≥ 1 (R340, R514). -/
def Dev.windowsToRelease (d : Dev) (slab x cyc : Nat) : Option Nat :=
  let die := slab / 8
  let half := halfOfUnit slab
  (upTo 16).foldl (fun (r : Option Nat) c =>
    let rb := (d.getCMap (ctxKey (tileOfSlab slab) x)).releaseBeats.getD c 0
    match (d.getChan (16 * die + c)).arrivals.find? (fun a => a.tile == tileOfSlab slab && a.id == x && !a.gone) with
    | some a =>
      if rb = 0 then r
      else
        let now := match d.holder half with
          | some n => (d.getPart n).job.jobBeat
          | none => 0
        let w := ((a.beat + rb - now) * d.cyclesOf half - cyc) / 64
        some (match r with | some v => min v w | none => w)
    | none => r) none

/-- Windows that the climb from a level to G0 takes at a pace. -/
def climbWindows (pace : Nat × Nat) (g g0 : Nat) : Nat := (g0 - g + pace.1 - 1) / max 1 pace.1 * pace.2

/-- A level moves toward a target by at most a step. -/
def moveToward (g target step : Nat) : Nat := if g < target then min target (g + step) else max target (g - step)

/-- A context of a slab waits parked on a barrier or a wait (R514). -/
def SCtx.parkedOn (c : SCtx) : Bool :=
  c.runs && (match c.head with
    | some h => (h.at_.waitEn && c.waitSat.isNone) || c.arrived
    | none => false)

/-- The next level of a slab that did not stream (R514). -/
def Dev.gravelNext (d : Dev) (slab cyc : Nat) : Nat :=
  let half := halfOfUnit slab
  let r := (d.getSlab slab).regs
  let pace := d.gravelPace half
  let low := d.pow.floor * r.gravelG0 / 16
  let xs := [0, 1].filter (fun x => (d.getSCtx (2 * slab + x)).bound)
  if xs.isEmpty ∨ d.halfRuns half = false then moveToward r.gravelG 0 pace.1
  else if d.lockHalf half then
    let ws := xs.filterMap (fun x => d.windowsToRelease slab x cyc)
    match ws with
    | [] => moveToward r.gravelG low pace.1
    | w :: rest =>
      let left := rest.foldl min w
      let down := moveToward r.gravelG low pace.1
      if left ≤ climbWindows pace r.gravelG r.gravelG0 then min r.gravelG0 (r.gravelG + pace.1)
      else if climbWindows pace down r.gravelG0 + pace.2 ≤ left then down
      else r.gravelG
  else if xs.any (fun x => (d.getSCtx (2 * slab + x)).parkedOn) then moveToward r.gravelG low pace.1
  else r.gravelG

/-- R513 to R515: the end of a window of 64 job cycles. -/
def gravelWindow (slab cyc : Nat) (d : Dev) : Dev :=
  let half := halfOfUnit slab
  let t := d.now half cyc
  let s := d.getSlab slab
  d.gate (s.regs.gravelEn && decide (t % 64 = 0) && decide (0 < t) && decide (cyc < d.cyclesOf half)) (fun d =>
    let n := streamedIn t s.pow.activity
    let keep := s.pow.activity.filter (fun p => decide (t < p.1 + p.2))
    if 0 < n then
      d.modSlab slab (fun s => { s with
        regs.gravelG0 := n / 4, regs.gravelG := n / 4, regs.gravelOn := keep.isEmpty && decide (4 ≤ n)
        pow.activity := keep, pow.gravelAt := t })
    else if s.pow.gravelAt + 64 * (d.gravelPace half).2 ≤ t then
      let g := d.gravelNext slab cyc
      d.modSlab slab (fun s => { s with regs.gravelG := g, regs.gravelOn := decide (0 < g), pow.gravelAt := t })
    else d)

def execGravelWindow (slab cyc : Nat) (s : State) : Host.Outcome State Fault Refusal := s.live (gravelWindow slab cyc)

end Sys2Proof.Machine
end

