-- ==== Sys2Proof/Machine/HostPort.lean ====
section
/-! DEFINITION. Host accesses (R424 to R444, R484, R485, R585): doorbells, ring set-up, other BAR0 writes, the apertures of BAR2, Assay feed, and the resets of a
port or a function. -/

namespace Sys2Proof.Machine

/-! ## Accesses through BAR0 -/

/-- Bedrock's PCIe logic is up (R530, R531): after stage 0. -/
def Phase.pcieUp : Phase → Bool
  | .stage n => decide (0 < n)
  | .ready => true
  | .bootFailed => true
  | .recovery => true
  | .powerFail => true
  | .heldReset => false
  | .selfReset => false
  | .tripped => false
  | .noPower => false

/-- A port is out of reset and its function exists (R424, R425, R427). -/
def Dev.portUp (d : Dev) (a : Access) : Bool :=
  d.boot.phase.pcieUp && decide (a.fn ≤ 16) && ((a.port == 0 && d.pins.perst0N) || (a.port == 2 && d.pins.perst2N))

/-- A ring slot belongs to a function (R430), and the write counts for its role: ring 65 needs an open Maker session (R429). -/
def Dev.mayRing (d : Dev) (a : Access) (ring : Nat) : Bool :=
  d.portUp a && (if ring < 64 then a.fn == ring / 4 + 1 else a.fn == 0 && (ring == 64 || (ring == 65 && d.sec.maker.isOpen)))

/-- Host port of a ring as BOUND_PORT names it. -/
def portBit (port : Nat) : Nat := if port = 2 then 1 else 0

/-- R442: a write of MbxDoorbell.TAIL. -/
def mbxDoorbell (a : Access) (ring value : Nat) (d : Dev) : Dev :=
  d.gate (d.mayRing a ring) (fun d => d.modRing ring (fun r =>
    if r.boundPort ≠ a.port then { r with wrongPort := true }
    else if 2 ^ r.sizeLog2 ≤ fld value 0 12 then (if r.state = 1 then { r with state := 2, errCause := 1 } else r)
    else { r with tail := fld value 0 12 }))
def execMbxDoorbell (a : Access) (ring value : Nat) (s : State) : Host.Outcome State Fault Refusal := s.live (mbxDoorbell a ring value)

/-- R440, R442: a write of MbxCplDoorbell.CPL_HEAD. -/
def mbxCplDoorbell (a : Access) (ring value : Nat) (d : Dev) : Dev :=
  d.gate (d.mayRing a ring) (fun d => d.modRing ring (fun r =>
    if r.boundPort ≠ a.port then { r with wrongPort := true } else { r with cplHead := fld value 0 13 }))
def execMbxCplDoorbell (a : Access) (ring value : Nat) (s : State) : Host.Outcome State Fault Refusal := s.live (mbxCplDoorbell a ring value)

/-- SIZE_LOG2 after a write to MbxControl (R437, R438): a value outside 4 to 12 is not taken (log entry 53). -/
def sizeField (old value : Nat) : Nat := if 4 ≤ fld value 1 4 ∧ fld value 1 4 ≤ 12 then fld value 1 4 else old

/-- R439: a write of ENABLE = 1 to a ring that is not enabled binds and starts it, unless a base is misaligned. A ring that still ends its command
does not take it. -/
def mbxEnableSet (a : Access) (ring value : Nat) (d : Dev) : Dev :=
  d.gate (d.mayRing a ring && value.testBit 0) (fun d => d.modRing ring (fun r =>
    if r.enable ∨ r.executing then r
    else
      let good : Bool := r.descBase % 64 == 0 && r.cplBase % 64 == 0
      { r with enable := true, sizeLog2 := sizeField r.sizeLog2 value, boundPort := a.port, head := 0, tail := 0, cplTail := 0, cplHead := 0
               phase := true, state := if good then 1 else 2, errCause := if good then 0 else 2, disabling := false, discard := false }))
def execMbxEnableSet (a : Access) (ring value : Nat) (s : State) : Host.Outcome State Fault Refusal := s.live (mbxEnableSet a ring value)

/-- A ring stops (R427, R443): at once, or once its executing command has ended; a ring in ERROR or DEAD stays there. -/
def Ring.stop (r : Ring) (discard : Bool) : Ring :=
  if r.executing then { r with enable := false, disabling := true, discard := r.discard || discard }
  else { r with enable := false, state := if r.state = 1 then 0 else r.state }

/-- R443: a write of ENABLE = 0; on a ring that is not enabled it sets SIZE_LOG2. -/
def mbxEnableClear (a : Access) (ring value : Nat) (d : Dev) : Dev :=
  d.gate (d.mayRing a ring && !value.testBit 0) (fun d => d.modRing ring (fun r =>
    if r.enable then r.stop false else { r with sizeLog2 := sizeField r.sizeLog2 value }))
def execMbxEnableClear (a : Access) (ring value : Nat) (s : State) : Host.Outcome State Fault Refusal := s.live (mbxEnableClear a ring value)

/-- R438, R442, R456: a write of EvtDoorbell.HEAD. -/
def evtDoorbell (a : Access) (value : Nat) (d : Dev) : Dev :=
  d.gate (d.portUp a && a.fn == 0 && a.port == d.host.evt.boundPort) (fun d => { d with host.evt := { d.host.evt with head := fld value 0 12 } })
def execEvtDoorbell (a : Access) (value : Nat) (s : State) : Host.Outcome State Fault Refusal := s.live (evtDoorbell a value)

/-- R438, R439: a write of EvtControl: ENABLE = 1 binds and starts the event ring where its base is a multiple of 64, ENABLE = 0 stops it. -/
def evtEnableSet (a : Access) (value : Nat) (d : Dev) : Dev :=
  d.gate (d.portUp a && a.fn == 0) (fun d =>
    let e := d.host.evt
    if value.testBit 0 then
      if e.enable ∨ e.base % 64 ≠ 0 then d
      else { d with host.evt := { e with enable := true, sizeLog2 := sizeField e.sizeLog2 value, tail := 0, head := 0, phase := true, overflow := false
                                         lost := 0, boundPort := a.port } }
    else if e.enable then { d with host.evt := { e with enable := false } }
    else { d with host.evt := { e with sizeLog2 := sizeField e.sizeLog2 value } })
def execEvtEnableSet (a : Access) (value : Nat) (s : State) : Host.Outcome State Fault Refusal := s.live (evtEnableSet a value)

/-- R428: an aligned access of 4 or 8 bytes. -/
def aligned (offset size : Nat) : Bool := (size == 4 || size == 8) && offset % size == 0

/-- Any other access completes with Completer Abort and changes nothing (R428). -/
def Dev.abort (d : Dev) : Dev := d.emit .completerAbort

/-- A 64-bit register after a write of 4 or 8 bytes at an offset in it. -/
def writeWord64 (old off size v : Nat) : Nat :=
  if size = 8 then v % 2 ^ 64 else if off = 0 then old / 2 ^ 32 * 2 ^ 32 + v % 2 ^ 32 else old % 2 ^ 32 + 2 ^ 32 * (v % 2 ^ 32)

/-- The ring of a slot of a function, 66 for the event ring (R430). -/
def slotRing (fn slot : Nat) : Nat := if fn = 0 then 64 + slot else 4 * (fn - 1) + slot

/-- A write to the base registers of a slot (R437 to R439): ignored while ENABLE = 1. DescBase at +0, CplBase at +8, Control at +0x10 (log entry
54). -/
def Dev.writeBase (d : Dev) (a : Access) (ring o size v : Nat) : Dev :=
  if ring = 66 then
    d.gate (a.fn == 0 && !d.host.evt.enable && decide (o < 8)) (fun d =>
      { d with host.evt := { d.host.evt with base := writeWord64 d.host.evt.base o size v } })
  else d.gate (d.mayRing a ring) (fun d => d.modRing ring (fun r =>
    if r.enable then r
    else if o < 8 then { r with descBase := writeWord64 r.descBase o size v }
    else { r with cplBase := writeWord64 r.cplBase (o - 8) size v }))

/-- A write to the Control register of a slot. -/
def Dev.writeControl (d : Dev) (a : Access) (ring v : Nat) : Dev :=
  if ring = 66 then evtEnableSet a v d
  else if v.testBit 0 then mbxEnableSet a ring v d else mbxEnableClear a ring v d

/-- R9 to R11, R428 to R430: a BAR0 write, by its offset: doorbells, MbxStatus, set-up registers. Everything else is read-only or ignores it. -/
def registerWrite (a : Access) (offset size value : Nat) (d : Dev) : Dev :=
  d.gate (d.portUp a) (fun d =>
    let slots := if a.fn = 0 then 3 else 4
    let v := fld value 0 32
    if !aligned offset size ∨ (if a.fn = 0 then 0x10000 else 0x4000) ≤ offset then d.abort
    else if 0x1000 ≤ offset ∧ offset < 0x2000 then
      let ring := slotRing a.fn ((offset - 0x1000) / 0x10)
      if slots ≤ (offset - 0x1000) / 0x10 then d
      else if offset % 0x10 = 0 then (if ring = 66 then d else mbxDoorbell a ring v d)
      else if offset % 0x10 = 8 then (if ring = 66 then evtDoorbell a v d else mbxCplDoorbell a ring v d)
      else d
    else if 0x2000 ≤ offset ∧ offset < 0x3000 then
      let ring := slotRing a.fn ((offset - 0x2000) / 8)
      if slots ≤ (offset - 0x2000) / 8 ∨ offset % 8 ≠ 0 then d
      else if ring = 66 then { d with host.evt := { d.host.evt with overflow := w1c true v 12 d.host.evt.overflow } }
      else if d.mayRing a ring then d.modRing ring (fun r => { r with wrongPort := w1c true v 31 r.wrongPort })
      else d
    else if 0x3000 ≤ offset ∧ offset < 0x3800 then
      let ring := slotRing a.fn ((offset - 0x3000) / 0x40)
      let o := offset % 0x40
      if slots ≤ (offset - 0x3000) / 0x40 then d
      else if o < 0x10 then d.writeBase a ring o size value
      else if o = 0x10 then d.writeControl a ring v
      else d
    else d)
def execRegisterWrite (a : Access) (offset size value : Nat) (s : State) : Host.Outcome State Fault Refusal :=
  s.live (registerWrite a offset size value)

/-! ## BAR2 -/

/-- The aperture window of an access, with the offset in it (R426, R435). -/
def windowOf (fn offset : Nat) : Option (Nat × Nat) :=
  if fn = 0 then (if offset < 2 ^ 28 then some (offset / 2 ^ 24, offset % 2 ^ 24) else none)
  else if offset < 2 ^ 24 then some (15 + fn, offset) else none

/-- A partition holds a ring of VF v (R484). -/
def Dev.vfHolds (d : Dev) (v n : Nat) : Bool := (d.getPart n).live && (upTo 4).any (fun k => (d.getPart n).rings.testBit (4 * v + k))

/-- Registers of the MMIO map with a field that hosts may write: W1C status and AssayFeed, whose Writer includes O or I (R68, R94, R132, R185, R200,
R236, R280, R284, R310, R313, R346, R349, R376, R420, R432, R562, R585). -/
def mmioHostWrites (off : Nat) (pf : Bool) : Bool :=
  let blk := off / 0x100000
  let o := off % 0x100000
  if blk = 0 then pf && (o == 0x00C || o == 0x204 || o == 0x230 || o == 0x400 || o == 0x41C)
  else if blk = 1 then decide (o < 0x8000) && (o % 0x1000 == 0 || o % 0x1000 == 0x0C || o % 0x1000 == 0x10 || o % 0x1000 == 0x14)
  else if blk = 2 then
    let q := o % 0x1000
    decide (o < 0x8000) && (q == 0 || (decide (0x100 ≤ q ∧ q < 0x300) && q % 0x40 == 0))
  else if blk = 3 then decide (o < 0x40)
  else if blk = 4 then decide (o / 0x100 < 20) && o % 0x100 == 4
  else if blk = 5 then decide (0x100 ≤ o ∧ o < 0x114)
  else if blk = 7 then decide (o < 0x20000 ∧ o % 0x1000 < 0x700 ∧ o % 0x100 < 0x80) && o % 0x20 == 0x10
  else if blk = 8 then pf && decide (o < 0x200 ∧ o % 0x40 < 8)
  else decide (0x10 ≤ blk ∧ (off - 0x1000000) / 0x4000 < 16) && off % 0x4000 == 0x1000

/-- Cause with which the hub firewall blocks a host access of some bytes at a DPA, or 0 (R484). -/
def Dev.hostCause (d : Dev) (a : Access) (write : Bool) (dpa size : Nat) : Nat :=
  let pf : Bool := a.fn == 0
  match d.locate dpa with
  | .unmapped => 1
  | .mmio p off =>
    let seen : Bool := pf || decide (off < 0x100000) || (match mmioHalf p off with
      | some h => (match d.holder h with | some n => d.vfHolds (a.fn - 1) n | none => false)
      | none => false)
    if !seen then 3 else if write ∧ !(mmioHostWrites off pf || (size == 8 && mmioHostWrites (off + 4) pf)) then 4 else 0
  | pl =>
    let seen : Bool := pf || (match d.ownerOfPlace pl with | some n => d.vfHolds (a.fn - 1) n | none => false)
    if !seen then 3 else if write ∧ d.mirrorBlocks dpa then 4 else 0

/-- A blocked host access (R485): Completer Abort, and the event of the hub of its port. -/
def Dev.hostBlocked (d : Dev) (a : Access) (cause dpa : Nat) : Dev :=
  (d.firewallEv (256 * a.port + 8) cause (if a.fn = 0 then 0 else 1) dpa (endpointOf d.fab.selfDevice a.port 0x22) 0).abort

/-- A write that the firewall lets through (R429): memory, or a register by the Installer or an Operator; AssayFeed acts on it. -/
def Dev.hostWrite (d : Dev) (a : Access) (dpa : Nat) (bytes : List Byte) : Dev :=
  match d.locate dpa with
  | .mmio p off =>
    let v := leNat bytes
    let d := d.mmioWrite p off bytes.length v (if a.fn = 0 then .installer else .operator)
    let d := match (if a.fn = 0 then assayFeedAt off else none) with
      | some u => d.assayFeed (8 * p + u) (v % 2 ^ 32)
      | none => d
    match (if a.fn = 0 ∧ bytes.length = 8 then assayFeedAt (off + 4) else none) with
    | some u => d.assayFeed (8 * p + u) (v / 2 ^ 32)
    | none => d
  | _ => d.writeMem dpa (bytes.map (fun b => ⟨b, false⟩)) .other

/-- The bytes of a read that the firewall lets through. -/
def Dev.hostRead (d : Dev) (dpa n : Nat) : Dev :=
  match d.locate dpa with
  | .mmio p off => d.emit (.hostRead (natLe n (d.mmioRead p off n)))
  | _ =>
    let (bs, d) := d.readMem dpa n
    d.emit (.hostRead (bs.map PByte.val))

/-- R435, R484, R485: an access through BAR2 is translated by its window and checked by the hub firewall. `bytes` of a read only give its size. An access
to an HBM channel that retrains is held (R307). -/
def apertureAccess (a : Access) (write : Bool) (offset : Nat) (bytes : List Byte) (d : Dev) : Dev :=
  d.gate (d.portUp a) (fun d =>
    let n := bytes.length
    match (if aligned offset n then windowOf a.fn offset else none) with
    | none => d.abort
    | some (w, o) =>
      let win := d.getWindow w
      let dpa := win.base * 2 ^ 24 + o
      let cause := if !win.valid then 3 else if write ∧ !win.write then 4 else d.hostCause a write dpa n
      if cause ≠ 0 then d.hostBlocked a cause dpa
      else if d.hbmWaits dpa then d
      else if write then d.hostWrite a dpa bytes else d.hostRead dpa n)
def execApertureAccess (a : Access) (write : Bool) (offset : Nat) (bytes : List Byte) (s : State) : Host.Outcome State Fault Refusal :=
  s.live (apertureAccess a write offset bytes)

/-! ## AssayFeed (R585) -/

/-- A write of AssayFeed through a PF (R429). -/
def Dev.feedFrom (d : Dev) (a : Access) (die unit value : Nat) : Dev :=
  d.gate (d.portUp a && a.fn == 0 && decide (die < 4 ∧ unit < 8)) (fun d => d.assayFeed (8 * die + unit) value)

/-- R583, R585: VALID feeds a byte. -/
def assayFeedByte (a : Access) (die unit value : Nat) (d : Dev) : Dev := d.gate (value.testBit 8) (fun d => d.feedFrom a die unit value)
def execAssayFeedByte (a : Access) (die unit value : Nat) (s : State) : Host.Outcome State Fault Refusal := s.live (assayFeedByte a die unit value)

/-- R584, R585: FINISH closes a FEED interval, after BYTE where VALID is 1 too. -/
def assayFeedFinish (a : Access) (die unit value : Nat) (d : Dev) : Dev := d.gate (value.testBit 9) (fun d => d.feedFrom a die unit value)
def execAssayFeedFinish (a : Access) (die unit value : Nat) (s : State) : Host.Outcome State Fault Refusal :=
  s.live (assayFeedFinish a die unit value)

/-! ## Resets of a port or a function (R427) -/

/-- Every ring that a test picks enters DISABLED; the completion of its executing command is discarded. Windows, partitions and grants are kept. -/
def Dev.stopRings (d : Dev) (pick : Nat → Bool) : Dev :=
  Dev.each (upTo 66) (fun d r => if pick r then d.modRing r (fun q =>
    let q := q.stop true
    { q with state := if q.executing then q.state else if q.state = 3 then 3 else 0 }) else d) d

/-- The event ring enters DISABLED. -/
def Dev.stopEvents (d : Dev) : Dev := { d with host.evt := { d.host.evt with enable := false } }

/-- R427: PERST of a port resets its link and disables the rings bound to it. -/
def perstAssert (hostPort : Nat) (d : Dev) : Dev :=
  d.gate (hostPort == 0 || hostPort == 2) (fun d =>
    let d := d.stopRings (fun r => (d.getRing r).enable && (d.getRing r).boundPort == hostPort)
    let d := if d.host.evt.enable ∧ d.host.evt.boundPort = hostPort then d.stopEvents else d
    if hostPort = 0 then { d with pins.perst0N := false } else { d with pins.perst2N := false })
def execPerstAssert (hostPort : Nat) (s : State) : Host.Outcome State Fault Refusal := s.run (perstAssert hostPort)

/-- R533: release of a port's PERST. -/
def perstRelease (hostPort : Nat) (d : Dev) : Dev :=
  if hostPort = 0 then { d with pins.perst0N := true } else if hostPort = 2 then { d with pins.perst2N := true } else d
def execPerstRelease (hostPort : Nat) (s : State) : Host.Outcome State Fault Refusal := s.run (perstRelease hostPort)

/-- R427: Function Level Reset disables every ring that the function exposes. -/
def functionLevelReset (a : Access) (d : Dev) : Dev :=
  d.gate (d.portUp a) (fun d =>
    let d := d.stopRings (fun r => if r < 64 then a.fn == r / 4 + 1 else a.fn == 0)
    if a.fn = 0 then d.stopEvents else d)
def execFunctionLevelReset (a : Access) (s : State) : Host.Outcome State Fault Refusal := s.live (functionLevelReset a)

end Sys2Proof.Machine
end

