-- ==== Sys2Proof/Machine/Manage.lean ====
section
/-! DEFINITION. Deep idle (R28, R29), the control ring (R363, R549), the event log's flush (R568), sessions and the SPDM responder (R476 to R483). -/

namespace Sys2Proof.Machine

/-! ## Deep idle -/

/-- R28: with deep idle enabled and no running or draining job the device begins to enter; after a rejected lockstep start it first stays awake. -/
def deepIdleEntry (d : Dev) : Dev :=
  d.gate (d.idle.enabled && d.idle.phase == 0 && d.bed.ready && d.idle.awakeUntil == 0 && !d.anyBusy) (fun d =>
    { d with idle.phase := 1, idle.since := d.clock.wall, idle.exitAfter := false })
def execDeepIdleEntry (s : State) : Host.Outcome State Fault Refusal := s.live deepIdleEntry

/-- At the end of an exit the jobs that waited for it start, and their commands complete (R29). -/
def Dev.endExit (d : Dev) : Dev :=
  let b := d.beat.number
  let late := (upTo 8).filter (fun n => (d.getPart n).job.waitExit)
  let d := Dev.each late (fun d n =>
    d.modPart n (fun p => { p with job := { p.job with waitExit := false, beat := b, startBeat := b } })) d
  let d := d.completeAll (fun w => w.opcode == 0x0021 && late.contains w.partition) (fun _ => { r0 := b })
  { d with idle.phase := 0, idle.awakeUntil := if d.idle.awakeUntil = 0 then 0 else d.clock.wall + 4096 }

/-- R29: an entry or exit of 64 beats completes. -/
def deepIdleTransitionDone (d : Dev) : Dev :=
  d.gate (decide (64 ≤ d.clock.wall - d.idle.since)) (fun d =>
    if d.idle.phase = 1 then
      if d.idle.exitAfter then { d with idle.phase := 3, idle.since := d.clock.wall, idle.exitAfter := false }
      else { d with idle.phase := 2, bed.deepIdle := true }
    else if d.idle.phase = 3 then d.endExit
    else d)
def execDeepIdleTransitionDone (s : State) : Host.Outcome State Fault Refusal := s.live deepIdleTransitionDone

/-- R29: the 4,096 beats of staying awake end. -/
def deepIdleAwakeExpiry (d : Dev) : Dev :=
  d.gate (d.idle.phase == 0 && d.idle.awakeUntil != 0 && decide (d.idle.awakeUntil ≤ d.clock.wall)) (fun d => { d with idle.awakeUntil := 0 })
def execDeepIdleAwakeExpiry (s : State) : Host.Outcome State Fault Refusal := s.live deepIdleAwakeExpiry

/-! ## The control ring -/

/-- R363, R549: a message reaches its stop. With a damaged word it goes back and is sent again, three failed sends reset the device; otherwise it leaves the
ring where the stop's queue of 8 has room, or circles again. -/
def controlRingMessage (die src dest id : Nat) (uncorrectable : Bool) (d : Dev) : Dev :=
  let mine := fun (m : RingMsg) => m.die == die && m.src == src && m.dest == dest && m.id == id
  let fails := ((d.fab.ringMsgs.find? mine).map (fun m => m.fails)).getD 0
  let others := d.fab.ringMsgs.filter (fun m => !mine m)
  let stop := 64 * die + dest
  if uncorrectable then
    if 2 ≤ fails then d.selfReset 3 1
    else { d with fab.ringMsgs := others ++ [⟨die, src, dest, id, fails + 1⟩] }
  else if tabGet 0 stop d.fab.ringQueues < 8 then
    { d with fab.ringMsgs := others, fab.ringQueues := tabSet 0 stop (tabGet 0 stop d.fab.ringQueues + 1) d.fab.ringQueues }.emit (.ringMsg die dest id)
  else { d with fab.laps := tabSet 0 die (satAdd 32 (tabGet 0 die d.fab.laps) 1) d.fab.laps }
def execControlRingMessage (die src dest id : Nat) (uncorrectable : Bool) (s : State) : Host.Outcome State Fault Refusal :=
  s.live (controlRingMessage die src dest id uncorrectable)

/-! ## Event log and sessions -/

/-- R568: 64 held records, or one held for 1 s, are flushed. -/
def eventLogFlush (d : Dev) : Dev :=
  d.gate (!d.flash.writesOff && (decide (64 ≤ d.evt.held) || (decide (0 < d.evt.held) && d.due d.evt.heldSince 1000000000))) Dev.flushEvents
def execEventLogFlush (s : State) : Host.Outcome State Fault Refusal := s.live eventLogFlush

/-- R479: a session closes after 30 minutes without an accepted descriptor or SPDM message. -/
def sessionIdleTimeout (maker : Bool) (d : Dev) : Dev :=
  let ring := if maker then 65 else 64
  d.gate ((d.ringSession ring).isOpen && d.due (d.ringSession ring).last 1800000000000) (fun d => d.closeSession ring)
def execSessionIdleTimeout (maker : Bool) (s : State) : Host.Outcome State Fault Refusal := s.live (sessionIdleTimeout maker)

/-! ## Who is served -/

/-- Kinds of message: 0 MCTP control, 1 PLDM base, 2 PLDM monitoring, 3 PLDM firmware update, 4 SPDM, 5 Lumxa, 6 READ_BOOT_RECORD. Which the phase of the
device serves (R571). -/
def Phase.serves (p : Phase) (kind : Nat) : Bool :=
  match p with
  | .stage _ => true
  | .ready => true
  | .powerFail => true
  | .tripped => true
  | .bootFailed => kind == 0 || kind == 6
  | .recovery => kind == 0 || kind == 1 || kind == 3
  | .heldReset => false
  | .selfReset => false
  | .noPower => false

/-- The endpoint ID of a transport, 0 if none is set (R572). -/
def Dev.eid (d : Dev) (transport : Nat) : Nat := tabGet 0 transport d.mgmt.eids

/-- The transport works: SMBus while the always-on domain runs, PCIe VDM while its port does (R571, R572). -/
def Dev.transportUp (d : Dev) (t : Nat) : Bool :=
  t == 0 || (t == 1 && d.boot.phase.live && d.pins.perst0N) || (t == 2 && d.boot.phase.live && d.pins.perst2N)

/-- A message is served: until an endpoint ID is set only control messages are (R572). -/
def Dev.serves (d : Dev) (m : Message) (kind : Nat) : Bool :=
  d.boot.phase.serves kind && d.transportUp m.transport && (kind == 0 || d.eid m.transport != 0)

/-- Send a message; on SMBus the device is bus master for it (R570). -/
def Dev.send (d : Dev) (transport : Nat) (bytes : List Byte) : Dev :=
  let d := d.emit (.reply transport bytes)
  if transport = 0 then { d with mgmt.smbQueue := [bytes], mgmt.smbTries := 0 } else d

/-- Answer a request in the layout of its standard: channel 0 MCTP control, 1 PLDM (256 × type + command), 5 SPDM; `content` are the values reported. -/
def Dev.answer (d : Dev) (m : Message) (channel code : Nat) (content : List Byte) : Dev := d.send m.transport (Config.replyBody channel code content)

/-- An SPDM error response (R480). -/
def Dev.spdmError (d : Dev) (m : Message) (code : Nat) : Dev := d.answer m 5 0x7F (natLe 1 code)

/-! ## SPDM -/

/-- The role ring of an open session by its ID. -/
def Dev.sessionRing (d : Dev) (id : Nat) : Option Nat :=
  if d.sec.installer.isOpen && d.sec.installer.id == id then some 64 else if d.sec.maker.isOpen && d.sec.maker.id == id then some 65 else none

/-- An SPDM message within a session keeps it open (R479). -/
def Dev.touch (d : Dev) (m : Message) : Dev :=
  match m.session with
  | some id =>
    match d.sessionRing id with
    | some ring => d.setSession ring { d.ringSession ring with last := d.clock.wall }
    | none => d
  | none => d

/-- One SPDM request: served in its phase of the negotiation, or within a session; else an error. -/
def Dev.spdm (d : Dev) (m : Message) (phase : Nat) (f : Dev → Dev) : Dev :=
  d.gate (d.serves m 4) (fun d =>
    match m.session with
    | some id => if (d.sessionRing id).isSome then f (d.touch m) else d.spdmError m 0x0A
    | none => if phase ≤ d.sec.spdm.phase then f d else d.spdmError m 0x04)

/-- R476: GET_VERSION starts the negotiation afresh. -/
def getVersion (m : Message) (d : Dev) : Dev := d.spdm m 0 (fun d => { d with sec.spdm := { d.sec.spdm with phase := 1, pending := none } }.answer m 5 0x84 m.body)
def execGetVersion (m : Message) (s : State) : Host.Outcome State Fault Refusal := s.run (getVersion m)

/-- R476: GET_CAPABILITIES. -/
def getCapabilities (m : Message) (d : Dev) : Dev := d.spdm m 1 (fun d => { d with sec.spdm.phase := max 2 d.sec.spdm.phase }.answer m 5 0xE1 m.body)
def execGetCapabilities (m : Message) (s : State) : Host.Outcome State Fault Refusal := s.run (getCapabilities m)

/-- R476: NEGOTIATE_ALGORITHMS: one set is supported. -/
def negotiateAlgorithms (m : Message) (d : Dev) : Dev := d.spdm m 2 (fun d => { d with sec.spdm.phase := 3 }.answer m 5 0xE3 m.body)
def execNegotiateAlgorithms (m : Message) (s : State) : Host.Outcome State Fault Refusal := s.run (negotiateAlgorithms m)

/-- R476, R483: GET_DIGESTS and GET_CERTIFICATE of slot 0. -/
def getDigests (m : Message) (d : Dev) : Dev := d.spdm m 3 (fun d => d.answer m 5 0x81 m.body)
def execGetDigests (m : Message) (s : State) : Host.Outcome State Fault Refusal := s.run (getDigests m)
def getCertificate (m : Message) (d : Dev) : Dev := d.spdm m 3 (fun d => d.answer m 5 0x82 m.body)
def execGetCertificate (m : Message) (s : State) : Host.Outcome State Fault Refusal := s.run (getCertificate m)

/-- Die-relative offsets, as 4-byte words, of the registers that Bedrock writes for Installer commands (R436, R483). -/
def configOffsets : List Nat :=
  let words := fun (base n : Nat) => (upTo n).map (fun i => base + 4 * i)
  [0x200, 0x208, 0x220, 0x410] ++ (upTo 8).map (fun s => 0x100004 + 0x1000 * s) ++ words 0x300040 16 ++ (upTo 16).map (fun n => 0x400000 + 0x100 * n)
    ++ words 0x500000 32 ++ words 0x600000 4096 ++ words 0x604000 1024 ++ words 0x605000 8 ++ words 0x605100 64 ++ words 0x606000 2048

/-- The security fields of a die as bytes (R467, R483). -/
def SecFuse.bytes (f : SecFuse) : List Byte :=
  natLe 2 f.keyRevoke ++ natLe 8 (2 ^ f.svn - 1) ++ (upTo 8).flatMap (fun i => (tabGet ({} : OwnerSlot) i f.slots).bytes) ++ natLe 1 (b2n f.debugDisable)

/-- A measurement (R483). -/
def Dev.measurement (d : Dev) (i : Nat) : BitVec 384 :=
  if i = 1 then Config.romMeasure
  else if i = 2 then Config.sha384 (d.flash.bank d.bed.primary d.bed.activeBank).image
  else if i = 3 then Config.sha384 (hashBytes Config.rootHash ++ d.fuses.p0.bytes)
  else if i = 4 then d.unitFuseDigest
  else if i = 5 then Config.sha384 ((upTo 4).flatMap (fun p => configOffsets.flatMap (fun o => natLe 4 (d.mmioRead p o 4))))
  else if i = 6 then
    match (d.secFuse d.bed.primary).enrolled with
    | some k => (tabGet ({} : OwnerSlot) k (d.secFuse d.bed.primary).slots).hash
    | none => 0
  else Config.sha384 (natLe 1 (b2n (d.secFuse d.bed.primary).debugDisable) ++ natLe 1 d.sec.debugScope ++ d.nonceBytes)

/-- Measurements as returned: index and digest; index 7 also gives BOOT_NONCE (R483). -/
def Dev.measured (d : Dev) (is : List Nat) : List Byte :=
  is.flatMap (fun i => natLe 1 i ++ hashBytes (d.measurement i) ++ (if i = 7 then d.nonceBytes else []))

/-- R476: CHALLENGE: signed by the identity key. -/
def challenge (m : Message) (d : Dev) : Dev :=
  d.spdm m 3 (fun d => d.answer m 5 0x83 (Config.identitySign (Config.sha384 (m.body ++ d.measured [1, 2, 3, 4, 5, 6, 7]))))
def execChallenge (m : Message) (s : State) : Host.Outcome State Fault Refusal := s.run (challenge m)

/-- R483: GET_MEASUREMENTS: the body opens with the attributes (bit 0 asks for a signature) and the index, 0xFF for all, 0 for their number. -/
def getMeasurements (m : Message) (d : Dev) : Dev :=
  d.spdm m 3 (fun d =>
    let i := leAt m.body 1 1
    if 7 < i ∧ i ≠ 0xFF then d.spdmError m 0x01
    else
      let data := if i = 0 then natLe 1 7 else d.measured (if i = 0xFF then [1, 2, 3, 4, 5, 6, 7] else [i])
      let sig := if (leAt m.body 0 1).testBit 0 then Config.identitySign (Config.sha384 (m.body ++ data)) else []
      d.answer m 5 0xE0 (data ++ sig))
def execGetMeasurements (m : Message) (s : State) : Host.Outcome State Fault Refusal := s.run (getMeasurements m)

/-- R476: KEY_EXCHANGE: the session ID joins the requester's half with one the device draws; the role is known once FINISH authenticates. -/
def keyExchange (m : Message) (d : Dev) : Dev :=
  d.spdm m 3 (fun d =>
    let (n, d) := d.draw
    let id := leAt m.body 0 2 + 65536 * (fld (Config.freeBits n).toNat 0 16)
    { d with sec.spdm.pending := some (id, m.body) }.answer m 5 0xE4 (natLe 4 id ++ m.body))
def execKeyExchange (m : Message) (s : State) : Host.Outcome State Fault Refusal := s.run (keyExchange m)

/-- The role that a requester proves, as its ring (R476). -/
def Dev.provenRole (d : Dev) (kx fin : List Byte) : Option Nat :=
  if d.bed.owned && Config.spdmAuth 1 d.flash.ownerKey kx fin then some 64
  else if Config.spdmAuth 2 (hashBytes Config.rootHash) kx fin then some 65
  else none

/-- A session opens; the role's earlier session closes (R444, R477, R479). -/
def Dev.openSession (d : Dev) (ring id : Nat) : Dev :=
  let d := { d.closeSession ring with sec.spdm := { d.sec.spdm with pending := none, generation := d.sec.spdm.generation + 1 } }
  let d := d.setSession ring
    { isOpen := true, id := id, key := hashBytes (Config.sessionKey id d.sec.spdm.generation), nextSeq := 1, fails := 0, last := d.clock.wall }
  if ring = 65 then d.ring65 else d

/-- R476, R479: FINISH completes the handshake; a requester that proves no role opens no session. -/
def finish (m : Message) (d : Dev) : Dev :=
  d.gate (d.serves m 4) (fun d =>
    match d.sec.spdm.pending with
    | none => d.spdmError m 0x04
    | some (id, kx) =>
      match d.provenRole kx m.body with
      | none => { d with sec.spdm.pending := none }.spdmError m 0x06
      | some ring => (d.openSession ring id).answer m 5 0xE5 (natLe 4 id))
def execFinish (m : Message) (s : State) : Host.Outcome State Fault Refusal := s.run (finish m)

/-- A request that needs an open session. -/
def Dev.inSession (d : Dev) (m : Message) (f : Nat → Dev → Dev) : Dev :=
  d.gate (d.serves m 4) (fun d =>
    match m.session.bind d.sessionRing with
    | some ring => f ring (d.touch m)
    | none => d.spdmError m 0x0A)

/-- R479: END_SESSION. -/
def endSession (m : Message) (d : Dev) : Dev := d.inSession m (fun ring d => (d.closeSession ring).answer m 5 0x6C m.body)
def execEndSession (m : Message) (s : State) : Host.Outcome State Fault Refusal := s.run (endSession m)

/-- R476, R477: KEY_UPDATE renews the message keys; the mailbox key stays, as the export master secret does. -/
def keyUpdate (m : Message) (d : Dev) : Dev := d.inSession m (fun _ d => d.answer m 5 0x69 m.body)
def execKeyUpdate (m : Message) (s : State) : Host.Outcome State Fault Refusal := s.run (keyUpdate m)

/-- R480: a vendor request with Lumxa's IDs; its body opens with the request code, and code 0x01 in an Installer session sets the wall time. -/
def vendorDefinedRequest (m : Message) (d : Dev) : Dev :=
  d.inSession m (fun ring d =>
    if ring = 64 ∧ leAt m.body 0 1 = 1 ∧ m.body.length = 9 then
      { d with sec.wallBase := some (leAt m.body 1 8), sec.wallAt := d.clock.wall }.answer m 5 0x7E (natLe 1 1)
    else d.spdmError m 0x07)
def execVendorDefinedRequest (m : Message) (s : State) : Host.Outcome State Fault Refusal := s.run (vendorDefinedRequest m)

end Sys2Proof.Machine
end

