-- ==== Sys2Proof/Machine/PebbleScalar.lean ====
section
/-! DEFINITION. The scalar instructions of a pebble (spec/09 R265, R266, R274): arithmetic, branches, memory. -/

namespace Sys2Proof.Machine

/-- IMM32 sign-extended to 64 bits (R246). -/
def SWord.imm (s : SWord) : Word64 := BitVec.ofInt 64 (sgn 32 s.imm32)

/-- Second operand of S.ALU: s[SB] + IMM32 (R266). -/
def aluB (c : PCtx) (s : SWord) : SReg := ⟨(c.sreg s.sb).bits + s.imm, (c.sreg s.sb).poison⟩

/-- One S.ALU operation that writes s[SD] from s[SA] and s[SB] + IMM32 (R266). -/
def sAlu (op peb x cyc : Nat) (f : Word64 → Word64 → Word64) (d : Dev) : Dev :=
  d.issueS peb x cyc 1 op (fun t c s d =>
    let a := c.sreg s.sa
    let b := aluB c s
    d.modPCtx (4 * peb + x) (fun c => c.setS s.sd (t + (PWord.sca s).latency) ⟨f a.bits b.bits, a.poison || b.poison⟩))

/-- Signed minimum and maximum (R266). -/
def sMin64 (a b : Word64) : Word64 := if a.toInt ≤ b.toInt then a else b
def sMax64 (a b : Word64) : Word64 := if a.toInt ≤ b.toInt then b else a

def execSAdd (pebble x cyc : Nat) (s : State) : Host.Outcome State Fault Refusal := s.live (sAlu 0 pebble x cyc (fun a b => a + b))

def execSSub (pebble x cyc : Nat) (s : State) : Host.Outcome State Fault Refusal := s.live (sAlu 1 pebble x cyc (fun a b => a - b))

def execSAnd (pebble x cyc : Nat) (s : State) : Host.Outcome State Fault Refusal := s.live (sAlu 2 pebble x cyc (fun a b => a &&& b))

def execSOr (pebble x cyc : Nat) (s : State) : Host.Outcome State Fault Refusal := s.live (sAlu 3 pebble x cyc (fun a b => a ||| b))

def execSXor (pebble x cyc : Nat) (s : State) : Host.Outcome State Fault Refusal := s.live (sAlu 4 pebble x cyc (fun a b => a ^^^ b))

/-- A shift by 64 or more shifts every bit out (log entry 46). -/
def execSShl (pebble x cyc : Nat) (s : State) : Host.Outcome State Fault Refusal :=
  s.live (sAlu 5 pebble x cyc (fun a b => if 64 ≤ b.toNat then 0 else a <<< b.toNat))

def execSShr (pebble x cyc : Nat) (s : State) : Host.Outcome State Fault Refusal :=
  s.live (sAlu 6 pebble x cyc (fun a b => if 64 ≤ b.toNat then 0 else a >>> b.toNat))

def execSSra (pebble x cyc : Nat) (s : State) : Host.Outcome State Fault Refusal :=
  s.live (sAlu 7 pebble x cyc (fun a b => a.sshiftRight (min 63 b.toNat)))

def execSMul (pebble x cyc : Nat) (s : State) : Host.Outcome State Fault Refusal := s.live (sAlu 8 pebble x cyc (fun a b => a * b))

def execSMin (pebble x cyc : Nat) (s : State) : Host.Outcome State Fault Refusal := s.live (sAlu 9 pebble x cyc sMin64)

def execSMax (pebble x cyc : Nat) (s : State) : Host.Outcome State Fault Refusal := s.live (sAlu 0x0A pebble x cyc sMax64)

/-- R266: LUI sets the high word of s[SD] and keeps the low one. -/
def sLui (peb x cyc : Nat) (d : Dev) : Dev :=
  d.issueS peb x cyc 1 0x0B (fun t c s d =>
    let a := c.sreg s.sd
    d.modPCtx (4 * peb + x) (fun c => c.setS s.sd (t + 1) ⟨BitVec.ofNat 64 (a.bits.toNat % 2 ^ 32 + s.imm32 * 2 ^ 32), a.poison⟩))

def execSLui (pebble x cyc : Nat) (s : State) : Host.Outcome State Fault Refusal := s.live (sLui pebble x cyc)

/-- A taken branch goes to its own address + 8 × IMM32, and the context issues nothing for two cycles (R265, R266). -/
def PCtx.branchTo (c : PCtx) (pc t : Nat) (s : SWord) : PCtx :=
  { c with pc := ((pc : Int) + sgn 32 s.imm32).toNat, wake := t + 3 }

/-- A branch that reads a poisoned scalar stops the context with FAULT (R274). -/
def Dev.branchPoison (d : Dev) (peb x : Nat) : Dev :=
  (((d.raise (d.clusterEv (peb / 8) evPoison 9 (peb % 8) x)).modPebble peb (fun p => { p with poisonSeen := true })).faultPebCtx (4 * peb + x)).noteFault
    (d.holderNo (halfOfUnit (peb / 8))) 3

/-- One compare branch of S.BR (R265, R266). -/
def sBranch (op peb x cyc : Nat) (f : Word64 → Word64 → Bool) (d : Dev) : Dev :=
  d.issueS peb x cyc 2 op (fun t c s d =>
    let a := c.sreg s.sa
    let b := c.sreg s.sb
    if a.poison ∨ b.poison then d.branchPoison peb x
    else if f a.bits b.bits then d.modPCtx (4 * peb + x) (fun k => k.branchTo c.pc t s)
    else d)

/-- Compare the low words as FP32; a NaN compares false (R266). -/
def fp32Less (a b : Word64) : Bool := Val.lt (fp32.decode (a.toNat % 2 ^ 32)) (fp32.decode (b.toNat % 2 ^ 32))
def fp32NotLess (a b : Word64) : Bool :=
  let x := fp32.decode (a.toNat % 2 ^ 32)
  let y := fp32.decode (b.toNat % 2 ^ 32)
  !x.isNan && !y.isNan && !Val.lt x y

def execSBeq (pebble x cyc : Nat) (s : State) : Host.Outcome State Fault Refusal := s.live (sBranch 0 pebble x cyc (fun a b => a == b))

def execSBne (pebble x cyc : Nat) (s : State) : Host.Outcome State Fault Refusal := s.live (sBranch 1 pebble x cyc (fun a b => a != b))

def execSBlt (pebble x cyc : Nat) (s : State) : Host.Outcome State Fault Refusal :=
  s.live (sBranch 2 pebble x cyc (fun a b => decide (a.toInt < b.toInt)))

def execSBge (pebble x cyc : Nat) (s : State) : Host.Outcome State Fault Refusal :=
  s.live (sBranch 3 pebble x cyc (fun a b => decide (b.toInt ≤ a.toInt)))

def execSBltu (pebble x cyc : Nat) (s : State) : Host.Outcome State Fault Refusal :=
  s.live (sBranch 4 pebble x cyc (fun a b => decide (a.toNat < b.toNat)))

def execSBgeu (pebble x cyc : Nat) (s : State) : Host.Outcome State Fault Refusal :=
  s.live (sBranch 5 pebble x cyc (fun a b => decide (b.toNat ≤ a.toNat)))

def execSBflt (pebble x cyc : Nat) (s : State) : Host.Outcome State Fault Refusal := s.live (sBranch 6 pebble x cyc fp32Less)

def execSBfge (pebble x cyc : Nat) (s : State) : Host.Outcome State Fault Refusal := s.live (sBranch 7 pebble x cyc fp32NotLess)

/-- R266: J always branches. -/
def sJ (peb x cyc : Nat) (d : Dev) : Dev :=
  d.issueS peb x cyc 2 8 (fun t c s d => d.modPCtx (4 * peb + x) (fun k => k.branchTo c.pc t s))

def execSJ (pebble x cyc : Nat) (s : State) : Host.Outcome State Fault Refusal := s.live (sJ pebble x cyc)

/-- Address of an S.MEM access: s[SA] + IMM32 modulo 8 MiB, its low three bits cleared (R266, R267). -/
def sAddress (c : PCtx) (s : SWord) : Nat :=
  let a := ((c.sreg s.sa).bits + s.imm).toNat % cmemSize
  a - a % 8

/-- R266, R268: scalar load; the register waits for the grant. -/
def sLd (peb x cyc : Nat) (d : Dev) : Dev :=
  d.issueS peb x cyc 3 0 (fun t c s d =>
    (d.modPCtx (4 * peb + x) (fun c => if s.sd = 0 then c else { c with sReady := tabSet 0 s.sd notGranted c.sReady })).access peb
      ⟨4 * peb + x, true, false, s.sd, sAddress c s, t, 0, false, 64, []⟩)

def execSLd (pebble x cyc : Nat) (s : State) : Host.Outcome State Fault Refusal := s.live (sLd pebble x cyc)

/-- R266, R268: scalar store of s[SD]. -/
def sSt (peb x cyc : Nat) (d : Dev) : Dev :=
  d.issueS peb x cyc 3 1 (fun t c s d =>
    let v := c.sreg s.sd
    d.access peb ⟨4 * peb + x, false, false, 0, sAddress c s, t, 0, false, 64,
      (natLe 8 v.bits.toNat).map (fun b => some ⟨b, v.poison⟩)⟩)

def execSSt (pebble x cyc : Nat) (s : State) : Host.Outcome State Fault Refusal := s.live (sSt pebble x cyc)

end Sys2Proof.Machine
end

