-- ==== Sys2Proof/Machine/PebbleVec.lean ====
section
/-! DEFINITION. The vector instructions (spec/09 R252): each is one operation of its class. -/

namespace Sys2Proof.Machine

/-- R252, R253: V.ADD. -/
def execVAdd (pebble x cyc : Nat) (s : State) : Host.Outcome State Fault Refusal := s.live (vArithOp 0 pebble x cyc)

/-- R252, R253: V.SUB. -/
def execVSub (pebble x cyc : Nat) (s : State) : Host.Outcome State Fault Refusal := s.live (vArithOp 1 pebble x cyc)

/-- R252, R253: V.MUL. -/
def execVMul (pebble x cyc : Nat) (s : State) : Host.Outcome State Fault Refusal := s.live (vArithOp 2 pebble x cyc)

/-- R252, R253: V.FMA. -/
def execVFma (pebble x cyc : Nat) (s : State) : Host.Outcome State Fault Refusal := s.live (vArithOp 3 pebble x cyc)

/-- R252, R253: V.FMS. -/
def execVFms (pebble x cyc : Nat) (s : State) : Host.Outcome State Fault Refusal := s.live (vArithOp 4 pebble x cyc)

/-- R252, R253: V.MIN. -/
def execVMin (pebble x cyc : Nat) (s : State) : Host.Outcome State Fault Refusal := s.live (vArithOp 5 pebble x cyc)

/-- R252, R253: V.MAX. -/
def execVMax (pebble x cyc : Nat) (s : State) : Host.Outcome State Fault Refusal := s.live (vArithOp 6 pebble x cyc)

/-- R252, R253: V.ABS. -/
def execVAbs (pebble x cyc : Nat) (s : State) : Host.Outcome State Fault Refusal := s.live (vArithOp 7 pebble x cyc)

/-- R252, R253: V.NEG. -/
def execVNeg (pebble x cyc : Nat) (s : State) : Host.Outcome State Fault Refusal := s.live (vArithOp 8 pebble x cyc)

/-- R252, R253: V.MOV. -/
def execVMov (pebble x cyc : Nat) (s : State) : Host.Outcome State Fault Refusal := s.live (vArithOp 9 pebble x cyc)

/-- R252, R253: V.AND. -/
def execVAnd (pebble x cyc : Nat) (s : State) : Host.Outcome State Fault Refusal := s.live (vArithOp 10 pebble x cyc)

/-- R252, R253: V.OR. -/
def execVOr (pebble x cyc : Nat) (s : State) : Host.Outcome State Fault Refusal := s.live (vArithOp 11 pebble x cyc)

/-- R252, R253: V.XOR. -/
def execVXor (pebble x cyc : Nat) (s : State) : Host.Outcome State Fault Refusal := s.live (vArithOp 12 pebble x cyc)

/-- R252, R253: V.SHL. -/
def execVShl (pebble x cyc : Nat) (s : State) : Host.Outcome State Fault Refusal := s.live (vArithOp 13 pebble x cyc)

/-- R252, R253: V.SHRA. -/
def execVShra (pebble x cyc : Nat) (s : State) : Host.Outcome State Fault Refusal := s.live (vArithOp 14 pebble x cyc)

/-- R252, R253: V.SHRL. -/
def execVShrl (pebble x cyc : Nat) (s : State) : Host.Outcome State Fault Refusal := s.live (vArithOp 15 pebble x cyc)

/-- R254: V.CMP EQ. -/
def execVCmpEq (pebble x cyc : Nat) (s : State) : Host.Outcome State Fault Refusal := s.live (vCompareOp 0 pebble x cyc)

/-- R254: V.CMP NE. -/
def execVCmpNe (pebble x cyc : Nat) (s : State) : Host.Outcome State Fault Refusal := s.live (vCompareOp 1 pebble x cyc)

/-- R254: V.CMP LT. -/
def execVCmpLt (pebble x cyc : Nat) (s : State) : Host.Outcome State Fault Refusal := s.live (vCompareOp 2 pebble x cyc)

/-- R254: V.CMP LE. -/
def execVCmpLe (pebble x cyc : Nat) (s : State) : Host.Outcome State Fault Refusal := s.live (vCompareOp 3 pebble x cyc)

/-- R254: V.CMP GT. -/
def execVCmpGt (pebble x cyc : Nat) (s : State) : Host.Outcome State Fault Refusal := s.live (vCompareOp 4 pebble x cyc)

/-- R254: V.CMP GE. -/
def execVCmpGe (pebble x cyc : Nat) (s : State) : Host.Outcome State Fault Refusal := s.live (vCompareOp 5 pebble x cyc)

/-- R254: V.CMP UNORD. -/
def execVCmpUnord (pebble x cyc : Nat) (s : State) : Host.Outcome State Fault Refusal := s.live (vCompareOp 6 pebble x cyc)

/-- R252: mask logic MAND. -/
def execVMand (pebble x cyc : Nat) (s : State) : Host.Outcome State Fault Refusal := s.live (vMaskOp 16 pebble x cyc)

/-- R252: mask logic MOR. -/
def execVMor (pebble x cyc : Nat) (s : State) : Host.Outcome State Fault Refusal := s.live (vMaskOp 17 pebble x cyc)

/-- R252: mask logic MXOR. -/
def execVMxor (pebble x cyc : Nat) (s : State) : Host.Outcome State Fault Refusal := s.live (vMaskOp 18 pebble x cyc)

/-- R252: mask logic MANDN. -/
def execVMandn (pebble x cyc : Nat) (s : State) : Host.Outcome State Fault Refusal := s.live (vMaskOp 19 pebble x cyc)

/-- R262, R263: V.SF EXP. -/
def execVExp (pebble x cyc : Nat) (s : State) : Host.Outcome State Fault Refusal := s.live (vSpecialOp 0 pebble x cyc)

/-- R262, R263: V.SF LOG. -/
def execVLog (pebble x cyc : Nat) (s : State) : Host.Outcome State Fault Refusal := s.live (vSpecialOp 1 pebble x cyc)

/-- R262, R263: V.SF RCP. -/
def execVRcp (pebble x cyc : Nat) (s : State) : Host.Outcome State Fault Refusal := s.live (vSpecialOp 2 pebble x cyc)

/-- R262, R263: V.SF RSQRT. -/
def execVRsqrt (pebble x cyc : Nat) (s : State) : Host.Outcome State Fault Refusal := s.live (vSpecialOp 3 pebble x cyc)

/-- R257 to R260: V.CVT. -/
def execVCvt (pebble x cyc : Nat) (s : State) : Host.Outcome State Fault Refusal := s.live (vConvertOp pebble x cyc)

/-- R255: V.RED RSUM. -/
def execVRsum (pebble x cyc : Nat) (s : State) : Host.Outcome State Fault Refusal := s.live (vReduceOp 0 pebble x cyc)

/-- R255: V.RED RMAX. -/
def execVRmax (pebble x cyc : Nat) (s : State) : Host.Outcome State Fault Refusal := s.live (vReduceOp 1 pebble x cyc)

/-- R255: V.RED RMIN. -/
def execVRmin (pebble x cyc : Nat) (s : State) : Host.Outcome State Fault Refusal := s.live (vReduceOp 2 pebble x cyc)

/-- R256: V.PERM SPLAT. -/
def execVSplat (pebble x cyc : Nat) (s : State) : Host.Outcome State Fault Refusal := s.live (vPermOp 0 pebble x cyc)

/-- R256: V.PERM SHUP. -/
def execVShup (pebble x cyc : Nat) (s : State) : Host.Outcome State Fault Refusal := s.live (vPermOp 1 pebble x cyc)

/-- R256: V.PERM SHDN. -/
def execVShdn (pebble x cyc : Nat) (s : State) : Host.Outcome State Fault Refusal := s.live (vPermOp 2 pebble x cyc)

/-- R256: V.PERM SEL. -/
def execVSel (pebble x cyc : Nat) (s : State) : Host.Outcome State Fault Refusal := s.live (vPermOp 3 pebble x cyc)

/-- R256: V.PERM SWAP2. -/
def execVSwap2 (pebble x cyc : Nat) (s : State) : Host.Outcome State Fault Refusal := s.live (vPermOp 4 pebble x cyc)

/-- R256: PACK5. -/
def execVPack5 (pebble x cyc : Nat) (s : State) : Host.Outcome State Fault Refusal := s.live (vPackOp pebble x cyc)

/-- R256: UNPACK5. -/
def execVUnpack5 (pebble x cyc : Nat) (s : State) : Host.Outcome State Fault Refusal := s.live (vUnpackOp pebble x cyc)

/-- R268, R269: V.LD. -/
def execVLd (pebble x cyc : Nat) (s : State) : Host.Outcome State Fault Refusal := s.live (vLoadOp pebble x cyc)

/-- R268, R269: V.ST. -/
def execVSt (pebble x cyc : Nat) (s : State) : Host.Outcome State Fault Refusal := s.live (vStoreOp pebble x cyc)

/-- R264: V.SUM ANY. -/
def execVSumAny (pebble x cyc : Nat) (s : State) : Host.Outcome State Fault Refusal := s.live (vSumOp 0 pebble x cyc)

/-- R264: V.SUM ALL. -/
def execVSumAll (pebble x cyc : Nat) (s : State) : Host.Outcome State Fault Refusal := s.live (vSumOp 1 pebble x cyc)

/-- R264: V.SUM COUNT. -/
def execVSumCount (pebble x cyc : Nat) (s : State) : Host.Outcome State Fault Refusal := s.live (vSumOp 2 pebble x cyc)

/-- R264: V.SUM FIRST. -/
def execVSumFirst (pebble x cyc : Nat) (s : State) : Host.Outcome State Fault Refusal := s.live (vSumOp 3 pebble x cyc)

/-- R264: V.SUM MAX. -/
def execVSumMax (pebble x cyc : Nat) (s : State) : Host.Outcome State Fault Refusal := s.live (vSumMaxOp pebble x cyc)

end Sys2Proof.Machine
end

