-- ==== Sys2Proof/Machine/Sideband.lean ====
section
/-! DEFINITION. The management sideband (R570 to R579): MCTP, PLDM and Lumxa messages, SMBus, firmware recovery (R532); and the TAP chain (R586 to R590). -/

namespace Sys2Proof.Machine

/-! ## MCTP -/

/-- R572: Set Endpoint ID: the body is the operation and the ID. -/
def setEndpointId (m : Message) (d : Dev) : Dev :=
  d.gate (d.serves m 0) (fun d =>
    let op := leAt m.body 0 1 % 4
    let e := leAt m.body 1 1
    let d := if op < 2 ∧ 8 ≤ e ∧ e < 255 then { d with mgmt.eids := tabSet 0 m.transport e d.mgmt.eids } else d
    d.answer m 0 1 (natLe 1 op ++ natLe 1 (d.eid m.transport)))
def execSetEndpointId (m : Message) (s : State) : Host.Outcome State Fault Refusal := s.run (setEndpointId m)

/-- R572: Get Endpoint ID. -/
def getEndpointId (m : Message) (d : Dev) : Dev := d.gate (d.serves m 0) (fun d => d.answer m 0 2 (natLe 1 (d.eid m.transport)))
def execGetEndpointId (m : Message) (s : State) : Host.Outcome State Fault Refusal := s.run (getEndpointId m)

/-- R572: Get Endpoint UUID. -/
def getEndpointUuid (m : Message) (d : Dev) : Dev := d.gate (d.serves m 0) (fun d => d.answer m 0 3 (natLe 8 Config.deviceUid))
def execGetEndpointUuid (m : Message) (s : State) : Host.Outcome State Fault Refusal := s.run (getEndpointUuid m)

/-- R572: Get MCTP Version Support. -/
def getMctpVersionSupport (m : Message) (d : Dev) : Dev := d.gate (d.serves m 0) (fun d => d.answer m 0 4 m.body)
def execGetMctpVersionSupport (m : Message) (s : State) : Host.Outcome State Fault Refusal := s.run (getMctpVersionSupport m)

/-- Message types the device accepts (R572). -/
def mctpTypes : List Nat := [0x00, 0x01, 0x05, 0x06, 0x7E]

/-- R572: Get Message Type Support. -/
def getMessageTypeSupport (m : Message) (d : Dev) : Dev := d.gate (d.serves m 0) (fun d => d.answer m 0 5 (mctpTypes.flatMap (natLe 1)))
def execGetMessageTypeSupport (m : Message) (s : State) : Host.Outcome State Fault Refusal := s.run (getMessageTypeSupport m)

/-- R572: Get Vendor Defined Message Support. -/
def getVendorDefinedMsgSupport (m : Message) (d : Dev) : Dev := d.gate (d.serves m 0) (fun d => d.answer m 0 6 m.body)
def execGetVendorDefinedMsgSupport (m : Message) (s : State) : Host.Outcome State Fault Refusal := s.run (getVendorDefinedMsgSupport m)

/-- The PEC of an SMBus packet: CRC-8 with polynomial 0x07 (R572, log entry 14). -/
def smbPec (bs : List Byte) : Nat := crcRun 8 0x07 0 bs

/-- The MCTP packet of a transport frame, or none where the frame is not one: on SMBus an address, command code 0x0F, byte count and source address
before it and the PEC after it. -/
def mctpFrame (transport : Nat) (bs : List Byte) : Option (List Byte) :=
  if transport = 0 then
    let n := leAt bs 2 1
    if bs.length = n + 4 ∧ 5 ≤ n ∧ leAt bs 1 1 = 0x0F ∧ smbPec (bs.take (n + 3)) = leAt bs (n + 3) 1 then some ((bs.drop 4).take (n - 1)) else none
  else some bs

/-- R572: a packet joins, starts or discards a message in assembly. -/
def mctpPacketReceive (transport : Nat) (bytes : List Byte) (d : Dev) : Dev :=
  d.gate (d.boot.phase.serves 0 && d.transportUp transport) (fun d =>
    match mctpFrame transport bytes with
    | none => d
    | some p =>
      let dest := leAt p 1 1
      let src := leAt p 2 1
      let f := leAt p 3 1
      let body := p.drop 4
      let tag := f % 16
      let last := f.testBit 6
      let mine : Bool := leAt p 0 1 % 16 == 1 && (dest == 0 || dest == 255 || dest == d.eid transport) && decide (body.length ≤ 64) && decide (0 < body.length)
      if !mine then d
      else if f.testBit 7 then
        let t := leAt body 0 1 % 128
        let rest := d.mgmt.assembly.filter (fun a => !(a.transport == transport && a.eid == src && a.mtype == t))
        let ok : Bool := mctpTypes.contains t && (t == 0 || d.eid transport != 0) && (last || body.length == 64)
        let start : Assembly := { transport := transport, eid := src, mtype := t, tag := tag, seq := (fld f 4 2 + 1) % 4, since := d.clock.wall, bytes := body }
        { d with mgmt.assembly := if ok ∧ !last then rest ++ [start] else rest }
      else
        let same := fun (a : Assembly) => a.transport == transport && a.eid == src && a.tag == tag
        match d.mgmt.assembly.find? same with
        | none => d
        | some a =>
          let rest := d.mgmt.assembly.filter (fun x => !same x)
          let good : Bool := a.seq == fld f 4 2 && (last || body.length == 64) && decide (a.bytes.length + body.length ≤ 1024)
          let next : Assembly := { a with seq := (a.seq + 1) % 4, since := d.clock.wall, bytes := a.bytes ++ body }
          { d with mgmt.assembly := if good ∧ !last then rest ++ [next] else rest })
def execMctpPacketReceive (transport : Nat) (bytes : List Byte) (s : State) : Host.Outcome State Fault Refusal := s.run (mctpPacketReceive transport bytes)

/-- R572: a partial message with no packet for 100 ms is discarded. -/
def mctpAssemblyTimeout (transport eid mtype : Nat) (d : Dev) : Dev :=
  { d with mgmt.assembly := d.mgmt.assembly.filter (fun a =>
      !(a.transport == transport && a.eid == eid && a.mtype == mtype && d.due a.since 100000000)) }
def execMctpAssemblyTimeout (transport eid mtype : Nat) (s : State) : Host.Outcome State Fault Refusal := s.run (mctpAssemblyTimeout transport eid mtype)

/-! ## SMBus -/

/-- R570: the device loses arbitration: it tries up to 3 times more, then discards the packet. -/
def smbusArbitrationLoss (d : Dev) : Dev :=
  match d.mgmt.smbQueue with
  | [] => d
  | p :: rest =>
    if d.mgmt.smbTries < 3 then { d with mgmt.smbTries := d.mgmt.smbTries + 1 }.emit (.reply 0 p)
    else { d with mgmt.smbTries := 0, mgmt.smbQueue := rest }
def execSmbusArbitrationLoss (s : State) : Host.Outcome State Fault Refusal := s.run smbusArbitrationLoss

/-- R570, R576: the device returns its address on the Alert Response Address and releases ALERT_N. -/
def smbusAlertResponse (d : Dev) : Dev :=
  d.gate (!d.pins.alertN && d.boot.phase.serves 0) (fun d =>
    { d with pins.alertN := true }.emit (.reply 0 (natLe 1 (2 * (0x58 + d.pins.addrStrap % 8)))))
def execSmbusAlertResponse (s : State) : Host.Outcome State Fault Refusal := s.run smbusAlertResponse

/-! ## PLDM -/

/-- A PLDM request of a type (R571, R574). -/
def Dev.pldm (d : Dev) (m : Message) (type cmd : Nat) (content : Dev → List Byte) : Dev :=
  d.gate (d.serves m (if type = 0 then 1 else if type = 2 then 2 else 3)) (fun d => d.answer m 1 (256 * type + cmd) (content d))

/-- R574: GetTID, GetPLDMVersion, GetPLDMTypes, GetPLDMCommands. -/
def getTid (m : Message) (d : Dev) : Dev := d.pldm m 0 2 (fun _ => [])
def execGetTid (m : Message) (s : State) : Host.Outcome State Fault Refusal := s.run (getTid m)
def getPldmVersion (m : Message) (d : Dev) : Dev := d.pldm m 0 3 (fun _ => m.body)
def execGetPldmVersion (m : Message) (s : State) : Host.Outcome State Fault Refusal := s.run (getPldmVersion m)
def getPldmTypes (m : Message) (d : Dev) : Dev := d.pldm m 0 4 (fun _ => [0, 2, 5].flatMap (natLe 1))
def execGetPldmTypes (m : Message) (s : State) : Host.Outcome State Fault Refusal := s.run (getPldmTypes m)
def getPldmCommands (m : Message) (d : Dev) : Dev := d.pldm m 0 5 (fun _ => m.body)
def execGetPldmCommands (m : Message) (s : State) : Host.Outcome State Fault Refusal := s.run (getPldmCommands m)

/-- R574: SetEventReceiver: the body is the enable, the transport type and the receiver's EID; enable 0 removes it. -/
def setEventReceiver (m : Message) (d : Dev) : Dev :=
  d.gate (d.serves m 2) (fun d =>
    { d with mgmt.eventReceiver := if leAt m.body 0 1 = 0 then none else some (256 * m.transport + leAt m.body 2 1) }.answer m 1 0x204 [])
def execSetEventReceiver (m : Message) (s : State) : Host.Outcome State Fault Refusal := s.run (setEventReceiver m)

/-- What a numeric sensor reads, as 8 bytes, in the order of R575: die sensors, Tj, stacks, rails, P10, CAP_EFF, energies, time above 105 °C. -/
def Dev.sensorReading (d : Dev) (n : Nat) : Option Nat :=
  if n < 48 then some (d.telemTemp (n / 12) (n % 12))
  else if n = 48 then some (fld d.telemThermal 0 16)
  else if n < 69 then some (d.telemStack (n - 49))
  else if n < 183 then some (fld (d.telemRail ((n - 69) / 3)) (16 * ((n - 69) % 3)) 16)
  else if n = 183 then some (d.pow.p10 / 1000)
  else if n = 184 then some d.pow.capEff
  else if n < 193 then some (tabGet 0 (n - 185) d.pow.energy / 1000000000)
  else if n < 201 then some (tabGet 0 (n - 193) d.pow.gravel / 1000000000)
  else if n = 201 then some (d.pow.unassigned / 1000000000)
  else if n = 202 then some d.therm.overLimit
  else none

/-- What a state sensor reads (R575): device, primary Bedrock, mirror STATE, links and stacks. -/
def Dev.stateReading (d : Dev) (n : Nat) : Option Nat :=
  if n = 203 then some (if d.bed.ready then 1 else if d.boot.phase = .bootFailed then 2 else if d.boot.phase = .recovery then 3 else 0)
  else if n = 204 then some d.bed.primary
  else if n = 205 then some d.mirror.regs.state
  else if 206 ≤ n ∧ n < 226 then some (d.getLink (n - 206)).regs.state
  else if 226 ≤ n ∧ n < 246 then some (fld (d.stackStatusReg (n - 226)) 0 2)
  else none

/-- R575: GetSensorReading and GetStateSensorReadings; the body opens with the sensor's number, and an unknown one is answered so. -/
def sensorBytes (n : Nat) (r : Option Nat) : List Byte := natLe 2 n ++ (match r with | some v => natLe 1 0 ++ natLe 8 v | none => natLe 1 0x80)
def getSensorReading (m : Message) (d : Dev) : Dev := d.pldm m 2 0x11 (fun d => sensorBytes (leAt m.body 0 2) (d.sensorReading (leAt m.body 0 2)))
def execGetSensorReading (m : Message) (s : State) : Host.Outcome State Fault Refusal := s.run (getSensorReading m)
def getStateSensorReadings (m : Message) (d : Dev) : Dev := d.pldm m 2 0x21 (fun d => sensorBytes (leAt m.body 0 2) (d.stateReading (leAt m.body 0 2)))
def execGetStateSensorReadings (m : Message) (s : State) : Host.Outcome State Fault Refusal := s.run (getStateSensorReadings m)

/-- R574: the PDR repository with its signature, which changes at every rebuild. -/
def getPdrRepositoryInfo (m : Message) (d : Dev) : Dev := d.pldm m 2 0x50 (fun d => natLe 4 d.mgmt.pdrSignature)
def execGetPdrRepositoryInfo (m : Message) (s : State) : Host.Outcome State Fault Refusal := s.run (getPdrRepositoryInfo m)
def getPdr (m : Message) (d : Dev) : Dev := d.pldm m 2 0x51 (fun d => natLe 4 d.mgmt.pdrSignature ++ m.body)
def execGetPdr (m : Message) (s : State) : Host.Outcome State Fault Refusal := s.run (getPdr m)

/-- R577: QueryDeviceIdentifiers and GetFirmwareParameters are answered at all times; the versions come from the two banks. -/
def queryDeviceIdentifiers (m : Message) (d : Dev) : Dev := d.pldm m 5 1 (fun _ => natLe 8 Config.deviceUid)
def execQueryDeviceIdentifiers (m : Message) (s : State) : Host.Outcome State Fault Refusal := s.run (queryDeviceIdentifiers m)
def Dev.bankVersion (d : Dev) (b : Nat) : Nat :=
  let x := d.flash.bank d.bed.primary b
  if x.present ∧ x.verified then fwVersion x.image else 0
def getFirmwareParameters (m : Message) (d : Dev) : Dev :=
  d.pldm m 5 2 (fun d => natLe 2 1 ++ natLe 4 (d.bankVersion d.flash.activeBank) ++ natLe 4 (d.bankVersion (1 - d.flash.activeBank)))
def execGetFirmwareParameters (m : Message) (s : State) : Host.Outcome State Fault Refusal := s.run (getFirmwareParameters m)

/-- Completion code UNABLE_TO_INITIATE_UPDATE of DSP0267 (R577). -/
def unableToUpdate : Nat := 0x8A

/-- A Type 5 command: outside firmware recovery it is refused by its completion code (R577). -/
def Dev.update (d : Dev) (m : Message) (cmd : Nat) (f : Dev → Dev) : Dev :=
  d.gate (d.serves m 3) (fun d => if d.boot.phase = .recovery then f d else d.answer m 1 (0x500 + cmd) (natLe 1 unableToUpdate))

/-- R577: the other update commands: the body opens with the command. RequestUpdate (0x10) starts afresh, an answer to RequestFirmwareData (0x15) brings
32 to 960 bytes of the image. -/
def pldmUpdateOther (m : Message) (d : Dev) : Dev :=
  let cmd := leAt m.body 0 1
  let data := m.body.drop 1
  d.update m cmd (fun d =>
    if cmd = 0x10 then { d with boot.updateBody := [], boot.updateBytes := 0, boot.updateVerified := false }.answer m 1 0x510 (natLe 1 0)
    else if cmd = 0x15 then
      if data.length < 32 ∨ 960 < data.length then d.answer m 1 0x515 (natLe 1 0x83)
      else { d with boot.updateBody := d.boot.updateBody ++ data, boot.updateBytes := d.boot.updateBytes + data.length }.answer m 1 0x515 (natLe 1 0)
    else d.answer m 1 (0x500 + cmd) m.body)
def execPldmUpdateOther (m : Message) (s : State) : Host.Outcome State Fault Refusal := s.run (pldmUpdateOther m)

/-- R471, R532, R577: TransferComplete: the Geode writes the image into the bank that is not recorded as active and verifies it; VerifyComplete
reports how that went. -/
def transferComplete (m : Message) (d : Dev) : Dev :=
  d.update m 0x16 (fun d =>
    let img := d.boot.updateBody.take (512 + leAt d.boot.updateBody 12 4)
    let b := 1 - d.flash.activeBank
    let ok := (fwFlaw d.fuses.p0 img).isNone
    let d := { d with flash := d.flash.setBank 0 b ⟨img, ok, true⟩, boot.updateVerified := ok }
    (d.answer m 1 0x516 (natLe 1 0)).answer m 1 0x517 (natLe 1 (if ok then 0 else 1)))
def execTransferComplete (m : Message) (s : State) : Host.Outcome State Fault Refusal := s.run (transferComplete m)

/-- R532: ActivateFirmware: the verified bank is recorded as active and the device resets itself with cause RECOVERY. -/
def activateFirmware (m : Message) (d : Dev) : Dev :=
  d.update m 0x1A (fun d =>
    if d.boot.updateVerified then
      let d := d.answer m 1 0x51A (natLe 1 0)
      { d with flash.activeBank := 1 - d.flash.activeBank, flash.activeRec := d.flash.activeRec.commit }.selfReset 5 1
    else d.answer m 1 0x51A (natLe 1 unableToUpdate))
def execActivateFirmware (m : Message) (s : State) : Host.Outcome State Fault Refusal := s.run (activateFirmware m)

/-! ## Lumxa messages -/

/-- A response of R578: the command byte, the status, and data. -/
def Dev.lumxa (d : Dev) (m : Message) (cmd status : Nat) (data : List Byte) : Dev := d.send m.transport (natLe 1 cmd ++ natLe 1 status ++ data)

/-- R578: READ_TELEMETRY. -/
def readTelemetry (m : Message) (d : Dev) : Dev :=
  d.gate (d.serves m 5) (fun d =>
    let o := leAt m.body 0 2
    let n := leAt m.body 2 2
    if o < 0x1000 ∨ n < 8 ∨ 960 < n ∨ n % 8 ≠ 0 ∨ 0x1488 < o + n then d.lumxa m 1 1 []
    else d.lumxa m 1 0 ((d.mmioBytes 0 (o / 8 * 8) (n + 8)).drop (o % 8) |>.take n))
def execReadTelemetry (m : Message) (s : State) : Host.Outcome State Fault Refusal := s.run (readTelemetry m)

/-- A log's part as a response: next SEQ, oldest SEQ held, records; GAP where the first one asked for is gone. -/
def Dev.logReply (d : Dev) (m : Message) (cmd : Nat) (part : Nat → Nat → LogPart) : Dev :=
  d.gate (d.serves m 5) (fun d =>
    let first := leAt m.body 0 4
    let count := leAt m.body 4 1
    if count = 0 ∨ 15 < count then d.lumxa m cmd 1 []
    else
      let p := part first count
      d.lumxa m cmd (if first < p.oldest then 2 else 0) (natLe 4 p.next ++ natLe 4 p.oldest ++ p.records.flatten))

/-- R578: READ_EVENTS and READ_AUDIT. -/
def readEvents (m : Message) (d : Dev) : Dev := d.logReply m 2 (fun f n => d.eventPart f n (fun _ => true))
def execReadEvents (m : Message) (s : State) : Host.Outcome State Fault Refusal := s.run (readEvents m)
def readAudit (m : Message) (d : Dev) : Dev := d.logReply m 4 d.auditPart
def execReadAudit (m : Message) (s : State) : Host.Outcome State Fault Refusal := s.run (readAudit m)

/-- The 32 bytes of a boot record (R547). -/
def BootRec.bytes (r : BootRec) : List Byte :=
  natLe 4 r.seq ++ natLe 1 r.cause ++ natLe 1 r.mode ++ natLe 1 r.lastStage ++ natLe 1 r.result ++ natLe 1 r.attempt ++ natLe 1 r.activeBank
    ++ natLe 1 r.flags ++ natLe 1 r.failDie ++ natLe 4 r.failUnit ++ r.stageMs.flatMap (natLe 2) ++ natLe 2 0

/-- R571, R578: READ_BOOT_RECORD. -/
def readBootRecord (m : Message) (d : Dev) : Dev :=
  d.gate (d.serves m 6) (fun d =>
    let i := leAt m.body 0 1
    match d.boot.records[i]? with
    | some r => if i < 8 then d.lumxa m 3 0 r.bytes else d.lumxa m 3 1 []
    | none => d.lumxa m 3 1 [])
def execReadBootRecord (m : Message) (s : State) : Host.Outcome State Fault Refusal := s.run (readBootRecord m)

/-! ## Test access -/

/-- R586: TRST_N resets the TAPs only: each selects IDCODE. -/
def trstNAssert (d : Dev) : Dev := Dev.each (upTo 4) (fun d p => d.modTap p (fun t => { t with ir := 1 })) d
def execTrstNAssert (s : State) : Host.Outcome State Fault Refusal := s.run trstNAssert

/-- An instruction of a TAP whose scope is not unlocked acts as BYPASS (R487, R587): the scopes are BOUNDARY, BIST, CORE and MEMORY. -/
def Dev.tapDo (d : Dev) (die instruction scope : Nat) (f : Dev → Dev) : Dev :=
  d.gate (decide (die < 4)) (fun d =>
    if d.sec.debugScope.testBit scope then f (d.modTap die (fun t => { t with ir := instruction }))
    else d.modTap die (fun t => { t with ir := 0xFF }))

/-- The link ends of a die (R536). -/
def portOnDie (die n : Nat) : Bool := n / 4 == die && decide (n < 16) || n == 16 + die || n == 16 + (die + 3) % 4

/-- The target of a test is out of service (R589). -/
def Dev.bistFree (d : Dev) (die test target : Nat) : Bool :=
  if test < 2 then decide (target < 2) && (d.holder (2 * die + target)).isNone
  else if test = 2 then decide (target < 5) && (upTo 16).all (fun n => !((d.getRegion (16 * die + n)).valid && (d.getRegion (16 * die + n)).stackBits.testBit target))
  else if test < 5 then portOnDie die target && ((d.getLink target).regs.state == 0 || (d.getLink target).regs.state == 4)
  else false

/-- R589: BIST_RUN starts a test on a target that is out of service, or is refused. -/
def bistRun (die value : Nat) (d : Dev) : Dev :=
  d.tapDo die 0x10 1 (fun d =>
    let test := fld value 0 4
    let target := fld value 4 6
    let ok := fld value 10 22 == 0 && (d.getTap die).state != 1 && d.bistFree die test target
    d.modTap die (fun t =>
      if ok then { t with test := test, target := target, state := 1, refused := false, failures := 0, first := 0 } else { t with refused := true }))
def execBistRun (die value : Nat) (s : State) : Host.Outcome State Fault Refusal := s.live (bistRun die value)

/-- R541, R589: the test ends: SRAM BIST leaves the half zero, and every fault goes to the repair log. -/
def bistDone (die failures first : Nat) (faults : List TestFault) (d : Dev) : Dev :=
  let t := d.getTap die
  d.gate (t.state == 1) (fun d =>
    let d := if t.test = 0 then d.clearSram (2 * die + t.target) else d
    let d := d.logFaults faults
    let d := Dev.each (faults.filter (fun f => f.kind == .hbmRow)) (fun d f =>
      d.logEntry (16 + 5 * f.die + f.index) (2 ^ 31 + f.sub * 2 ^ 24 + fld f.row 0 24)) d
    d.modTap die (fun t => { t with state := if failures = 0 then 2 else 3, failures := min failures 255, first := first % 65536 }))
def execBistDone (die failures first : Nat) (faults : List TestFault) (s : State) : Host.Outcome State Fault Refusal := s.live (bistDone die failures first faults)

/-- What MEM_READ shifts out of an SRAM word (R286, R287, R590): data, check bits uncorrected, and INVALID. The bits of a word with an error are
free. -/
def Dev.rawWord (d : Dev) (dpa : Nat) : Dev × Nat :=
  let w := leNat (d.mem.bytes dpa 8)
  let c := (Config.checkBits (BitVec.ofNat 64 w)).toNat
  match d.mem.errOf (dpa / 8) with
  | .none => (d, w + 2 ^ 64 * c)
  | .poison => (d, w + 2 ^ 64 * (c ^^^ 0xFFFF))
  | .ce => let (n, d) := d.draw; (d, (Config.freeWord n).toNat % 2 ^ 80)
  | .ue => let (n, d) := d.draw; (d, (Config.freeWord n).toNat % 2 ^ 80)

/-- R590: MEM_READ of a DPA of the die, on transport 3. The wait for its bank claim shows nowhere. -/
def memRead (die addr _cyc : Nat) (d : Dev) : Dev :=
  d.tapDo die 0x30 3 (fun d =>
    let sram : Bool := addr / 2 ^ 46 == die && addr % 8 == 0 && (match d.locate addr with
      | .quarry _ _ _ => true
      | .store _ _ _ => true
      | .cluster _ _ _ => true
      | .hbm _ _ _ => false
      | .mmio _ _ => false
      | .unmapped => false)
    let (d, v) := if sram then d.rawWord addr else (d, 2 ^ 80)
    d.emit (.reply 3 (natLe 11 v)))
def execMemRead (die addr cyc : Nat) (s : State) : Host.Outcome State Fault Refusal := s.live (memRead die addr cyc)

/-- R588: the first update of EXTEST, EXTEST_PULSE, EXTEST_TRAIN, CLAMP, HIGHZ or SCAN puts the device into test mode: ring service stops and every link
is lost. -/
def testModeEntry (die instruction : Nat) (d : Dev) : Dev :=
  d.gate ([3, 4, 5, 6, 7, 0x21].contains instruction) (fun d =>
    d.tapDo die instruction (if instruction = 0x21 then 2 else 0) (fun d =>
      if d.test.testMode then d else { d.linksStop with test.testMode := true }))
def execTestModeEntry (die instruction : Nat) (s : State) : Host.Outcome State Fault Refusal := s.live (testModeEntry die instruction)

end Sys2Proof.Machine
end

