-- ==== Sys2Proof/Machine/Dispatch.lean ====
section
/-! DEFINITION. One arm for every command of the table: a direct call of its meaning. -/

namespace Sys2Proof.Machine

def exec (i : Instr) (s : State) : Host.Outcome State Fault Refusal :=
  match i with
  | .deviceInfo c => Sys2Proof.Machine.execDeviceInfo c s
  | .ownershipTake c => Sys2Proof.Machine.execOwnershipTake c s
  | .partitionCreate c => Sys2Proof.Machine.execPartitionCreate c s
  | .partitionFillDone partition => Sys2Proof.Machine.execPartitionFillDone partition s
  | .partitionDestroy c => Sys2Proof.Machine.execPartitionDestroy c s
  | .imageLoad c => Sys2Proof.Machine.execImageLoad c s
  | .jobStart c => Sys2Proof.Machine.execJobStart c s
  | .jobStartBeat partition => Sys2Proof.Machine.execJobStartBeat partition s
  | .jobStop c => Sys2Proof.Machine.execJobStop c s
  | .partitionDrainEnd partition => Sys2Proof.Machine.execPartitionDrainEnd partition s
  | .jobStatus c => Sys2Proof.Machine.execJobStatus c s
  | .noticePost partition => Sys2Proof.Machine.execNoticePost partition s
  | .beatConfig c => Sys2Proof.Machine.execBeatConfig c s
  | .linkConfig c => Sys2Proof.Machine.execLinkConfig c s
  | .fabricPolicySelf c => Sys2Proof.Machine.execFabricPolicySelf c s
  | .fabricPolicyPartition c => Sys2Proof.Machine.execFabricPolicyPartition c s
  | .fabricPolicyBarrierTree c => Sys2Proof.Machine.execFabricPolicyBarrierTree c s
  | .fabricPolicyAperture c => Sys2Proof.Machine.execFabricPolicyAperture c s
  | .routeTableSet c => Sys2Proof.Machine.execRouteTableSet c s
  | .routeDrainDone => Sys2Proof.Machine.execRouteDrainDone s
  | .routeDrainTimeout => Sys2Proof.Machine.execRouteDrainTimeout s
  | .powerPolicyCap c => Sys2Proof.Machine.execPowerPolicyCap c s
  | .powerPolicyShareOrder c => Sys2Proof.Machine.execPowerPolicyShareOrder c s
  | .powerPolicyDeepIdle c => Sys2Proof.Machine.execPowerPolicyDeepIdle c s
  | .powerPolicyGravel c => Sys2Proof.Machine.execPowerPolicyGravel c s
  | .powerPolicyScrub c => Sys2Proof.Machine.execPowerPolicyScrub c s
  | .oppointTableSet c => Sys2Proof.Machine.execOppointTableSet c s
  | .guaranteeSet c => Sys2Proof.Machine.execGuaranteeSet c s
  | .energyRead c => Sys2Proof.Machine.execEnergyRead c s
  | .telemetryRead c => Sys2Proof.Machine.execTelemetryRead c s
  | .logRead c => Sys2Proof.Machine.execLogRead c s
  | .fwStage c => Sys2Proof.Machine.execFwStage c s
  | .fwActivate c => Sys2Proof.Machine.execFwActivate c s
  | .fwActivateTakeover => Sys2Proof.Machine.execFwActivateTakeover s
  | .fwSwitchDie die => Sys2Proof.Machine.execFwSwitchDie die s
  | .fwActivateTimeout => Sys2Proof.Machine.execFwActivateTimeout s
  | .calRun c => Sys2Proof.Machine.execCalRun c s
  | .calRunDone kind index ratioOk => Sys2Proof.Machine.execCalRunDone kind index ratioOk s
  | .unitRetire c => Sys2Proof.Machine.execUnitRetire c s
  | .unitDisable c => Sys2Proof.Machine.execUnitDisable c s
  | .unitEnable c => Sys2Proof.Machine.execUnitEnable c s
  | .unitLeaveService kind index sub => Sys2Proof.Machine.execUnitLeaveService kind index sub s
  | .pebbleRemap cluster name => Sys2Proof.Machine.execPebbleRemap cluster name s
  | .hbmRetireCopyDone stack => Sys2Proof.Machine.execHbmRetireCopyDone stack s
  | .hbmChRetireEffect stack channel => Sys2Proof.Machine.execHbmChRetireEffect stack channel s
  | .mirrorPair c => Sys2Proof.Machine.execMirrorPair c s
  | .mirrorHandshake uid h => Sys2Proof.Machine.execMirrorHandshake uid h s
  | .mirrorHandshakeTimeout => Sys2Proof.Machine.execMirrorHandshakeTimeout s
  | .cairnSet c => Sys2Proof.Machine.execCairnSet c s
  | .assayConfig c => Sys2Proof.Machine.execAssayConfig c s
  | .fuseProgram c => Sys2Proof.Machine.execFuseProgram c s
  | .regAccess c => Sys2Proof.Machine.execRegAccess c s
  | .debugUnlock c => Sys2Proof.Machine.execDebugUnlock c s
  | .descriptorFetch ring fetched => Sys2Proof.Machine.execDescriptorFetch ring fetched s
  | .mbxDoorbell a ring value => Sys2Proof.Machine.execMbxDoorbell a ring value s
  | .mbxCplDoorbell a ring value => Sys2Proof.Machine.execMbxCplDoorbell a ring value s
  | .mbxEnableSet a ring value => Sys2Proof.Machine.execMbxEnableSet a ring value s
  | .mbxEnableClear a ring value => Sys2Proof.Machine.execMbxEnableClear a ring value s
  | .evtDoorbell a value => Sys2Proof.Machine.execEvtDoorbell a value s
  | .evtEnableSet a value => Sys2Proof.Machine.execEvtEnableSet a value s
  | .assayFeedByte a die unit value => Sys2Proof.Machine.execAssayFeedByte a die unit value s
  | .assayFeedFinish a die unit value => Sys2Proof.Machine.execAssayFeedFinish a die unit value s
  | .registerWrite a offset size value => Sys2Proof.Machine.execRegisterWrite a offset size value s
  | .apertureAccess a write offset bytes => Sys2Proof.Machine.execApertureAccess a write offset bytes s
  | .perstAssert hostPort => Sys2Proof.Machine.execPerstAssert hostPort s
  | .functionLevelReset a => Sys2Proof.Machine.execFunctionLevelReset a s
  | .resetNAssert => Sys2Proof.Machine.execResetNAssert s
  | .resetNRelease lowNs hotSensor => Sys2Proof.Machine.execResetNRelease lowNs hotSensor s
  | .selfReset cause => Sys2Proof.Machine.execSelfReset cause s
  | .selfResetHoldEnd => Sys2Proof.Machine.execSelfResetHoldEnd s
  | .pwrFailAssert => Sys2Proof.Machine.execPwrFailAssert s
  | .pwrFailDeassert => Sys2Proof.Machine.execPwrFailDeassert s
  | .stageAlwaysOnDone ms railsOk fusesOk cacheDays tj => Sys2Proof.Machine.execStageAlwaysOnDone ms railsOk fusesOk cacheDays tj s
  | .stageFirmwareDone ms => Sys2Proof.Machine.execStageFirmwareDone ms s
  | .stageDiesDone ms diePos bodyFails => Sys2Proof.Machine.execStageDiesDone ms diePos bodyFails s
  | .stageBistDone ms ranFull faults => Sys2Proof.Machine.execStageBistDone ms ranFull faults s
  | .stageHbmDone ms ranFull faults => Sys2Proof.Machine.execStageHbmDone ms ranFull faults s
  | .stageSerdesDone ms ranFull faults => Sys2Proof.Machine.execStageSerdesDone ms ranFull faults s
  | .stageConfigDone ms => Sys2Proof.Machine.execStageConfigDone ms s
  | .bootStageDeadline => Sys2Proof.Machine.execBootStageDeadline s
  | .beatEdge slips => Sys2Proof.Machine.execBeatEdge slips s
  | .beatHeaderReceive port payload fecOk err => Sys2Proof.Machine.execBeatHeaderReceive port payload fecOk err s
  | .alignStep => Sys2Proof.Machine.execAlignStep s
  | .headersMissingCount => Sys2Proof.Machine.execHeadersMissingCount s
  | .parentSwitch => Sys2Proof.Machine.execParentSwitch s
  | .joinTimeout => Sys2Proof.Machine.execJoinTimeout s
  | .joinRestart => Sys2Proof.Machine.execJoinRestart s
  | .masterConflictExpiry => Sys2Proof.Machine.execMasterConflictExpiry s
  | .beatInEdge offset => Sys2Proof.Machine.execBeatInEdge offset s
  | .beatInMissing => Sys2Proof.Machine.execBeatInMissing s
  | .holdRequestTimer => Sys2Proof.Machine.execHoldRequestTimer s
  | .hold p => Sys2Proof.Machine.execHold p s
  | .deepIdleEntry => Sys2Proof.Machine.execDeepIdleEntry s
  | .deepIdleTransitionDone => Sys2Proof.Machine.execDeepIdleTransitionDone s
  | .deepIdleAwakeExpiry => Sys2Proof.Machine.execDeepIdleAwakeExpiry s
  | .seamChangeStart die => Sys2Proof.Machine.execSeamChangeStart die s
  | .seamChangeEnd die => Sys2Proof.Machine.execSeamChangeEnd die s
  | .oppointChange partition => Sys2Proof.Machine.execOppointChange partition s
  | .pass slab x cyc => Sys2Proof.Machine.execPass slab x cyc s
  | .passComplete slab x cyc => Sys2Proof.Machine.execPassComplete slab x cyc s
  | .streak slab x cyc => Sys2Proof.Machine.execStreak slab x cyc s
  | .streakUnitFree slab cyc => Sys2Proof.Machine.execStreakUnitFree slab cyc s
  | .streakComplete slab x cyc => Sys2Proof.Machine.execStreakComplete slab x cyc s
  | .drain slab x cyc => Sys2Proof.Machine.execDrain slab x cyc s
  | .drainComplete slab x cyc => Sys2Proof.Machine.execDrainComplete slab x cyc s
  | .dma slab x cyc => Sys2Proof.Machine.execDma slab x cyc s
  | .sync slab x cyc => Sys2Proof.Machine.execSync slab x cyc s
  | .barrier slab x cyc => Sys2Proof.Machine.execBarrier slab x cyc s
  | .base slab x cyc => Sys2Proof.Machine.execBase slab x cyc s
  | .loop slab x cyc => Sys2Proof.Machine.execLoop slab x cyc s
  | .nop slab x cyc => Sys2Proof.Machine.execNop slab x cyc s
  | .slabEnd slab x cyc => Sys2Proof.Machine.execSlabEnd slab x cyc s
  | .slabTaskFinish slab x cyc => Sys2Proof.Machine.execSlabTaskFinish slab x cyc s
  | .dmaDescStart slab channel cyc => Sys2Proof.Machine.execDmaDescStart slab channel cyc s
  | .dmaDescComplete slab channel cyc => Sys2Proof.Machine.execDmaDescComplete slab channel cyc s
  | .slotEntryFire tile entry cyc => Sys2Proof.Machine.execSlotEntryFire tile entry cyc s
  | .hbmScheduledRead tile entry cyc => Sys2Proof.Machine.execHbmScheduledRead tile entry cyc s
  | .gravelWindow slab cyc => Sys2Proof.Machine.execGravelWindow slab cyc s
  | .vAdd pebble x cyc => Sys2Proof.Machine.execVAdd pebble x cyc s
  | .vSub pebble x cyc => Sys2Proof.Machine.execVSub pebble x cyc s
  | .vMul pebble x cyc => Sys2Proof.Machine.execVMul pebble x cyc s
  | .vFma pebble x cyc => Sys2Proof.Machine.execVFma pebble x cyc s
  | .vFms pebble x cyc => Sys2Proof.Machine.execVFms pebble x cyc s
  | .vMin pebble x cyc => Sys2Proof.Machine.execVMin pebble x cyc s
  | .vMax pebble x cyc => Sys2Proof.Machine.execVMax pebble x cyc s
  | .vAbs pebble x cyc => Sys2Proof.Machine.execVAbs pebble x cyc s
  | .vNeg pebble x cyc => Sys2Proof.Machine.execVNeg pebble x cyc s
  | .vMov pebble x cyc => Sys2Proof.Machine.execVMov pebble x cyc s
  | .vAnd pebble x cyc => Sys2Proof.Machine.execVAnd pebble x cyc s
  | .vOr pebble x cyc => Sys2Proof.Machine.execVOr pebble x cyc s
  | .vXor pebble x cyc => Sys2Proof.Machine.execVXor pebble x cyc s
  | .vShl pebble x cyc => Sys2Proof.Machine.execVShl pebble x cyc s
  | .vShra pebble x cyc => Sys2Proof.Machine.execVShra pebble x cyc s
  | .vShrl pebble x cyc => Sys2Proof.Machine.execVShrl pebble x cyc s
  | .vCmpEq pebble x cyc => Sys2Proof.Machine.execVCmpEq pebble x cyc s
  | .vCmpNe pebble x cyc => Sys2Proof.Machine.execVCmpNe pebble x cyc s
  | .vCmpLt pebble x cyc => Sys2Proof.Machine.execVCmpLt pebble x cyc s
  | .vCmpLe pebble x cyc => Sys2Proof.Machine.execVCmpLe pebble x cyc s
  | .vCmpGt pebble x cyc => Sys2Proof.Machine.execVCmpGt pebble x cyc s
  | .vCmpGe pebble x cyc => Sys2Proof.Machine.execVCmpGe pebble x cyc s
  | .vCmpUnord pebble x cyc => Sys2Proof.Machine.execVCmpUnord pebble x cyc s
  | .vMand pebble x cyc => Sys2Proof.Machine.execVMand pebble x cyc s
  | .vMor pebble x cyc => Sys2Proof.Machine.execVMor pebble x cyc s
  | .vMxor pebble x cyc => Sys2Proof.Machine.execVMxor pebble x cyc s
  | .vMandn pebble x cyc => Sys2Proof.Machine.execVMandn pebble x cyc s
  | .vExp pebble x cyc => Sys2Proof.Machine.execVExp pebble x cyc s
  | .vLog pebble x cyc => Sys2Proof.Machine.execVLog pebble x cyc s
  | .vRcp pebble x cyc => Sys2Proof.Machine.execVRcp pebble x cyc s
  | .vRsqrt pebble x cyc => Sys2Proof.Machine.execVRsqrt pebble x cyc s
  | .vCvt pebble x cyc => Sys2Proof.Machine.execVCvt pebble x cyc s
  | .vRsum pebble x cyc => Sys2Proof.Machine.execVRsum pebble x cyc s
  | .vRmax pebble x cyc => Sys2Proof.Machine.execVRmax pebble x cyc s
  | .vRmin pebble x cyc => Sys2Proof.Machine.execVRmin pebble x cyc s
  | .vSplat pebble x cyc => Sys2Proof.Machine.execVSplat pebble x cyc s
  | .vShup pebble x cyc => Sys2Proof.Machine.execVShup pebble x cyc s
  | .vShdn pebble x cyc => Sys2Proof.Machine.execVShdn pebble x cyc s
  | .vSel pebble x cyc => Sys2Proof.Machine.execVSel pebble x cyc s
  | .vSwap2 pebble x cyc => Sys2Proof.Machine.execVSwap2 pebble x cyc s
  | .vPack5 pebble x cyc => Sys2Proof.Machine.execVPack5 pebble x cyc s
  | .vUnpack5 pebble x cyc => Sys2Proof.Machine.execVUnpack5 pebble x cyc s
  | .vLd pebble x cyc => Sys2Proof.Machine.execVLd pebble x cyc s
  | .vSt pebble x cyc => Sys2Proof.Machine.execVSt pebble x cyc s
  | .vSumAny pebble x cyc => Sys2Proof.Machine.execVSumAny pebble x cyc s
  | .vSumAll pebble x cyc => Sys2Proof.Machine.execVSumAll pebble x cyc s
  | .vSumCount pebble x cyc => Sys2Proof.Machine.execVSumCount pebble x cyc s
  | .vSumFirst pebble x cyc => Sys2Proof.Machine.execVSumFirst pebble x cyc s
  | .vSumMax pebble x cyc => Sys2Proof.Machine.execVSumMax pebble x cyc s
  | .sAdd pebble x cyc => Sys2Proof.Machine.execSAdd pebble x cyc s
  | .sSub pebble x cyc => Sys2Proof.Machine.execSSub pebble x cyc s
  | .sAnd pebble x cyc => Sys2Proof.Machine.execSAnd pebble x cyc s
  | .sOr pebble x cyc => Sys2Proof.Machine.execSOr pebble x cyc s
  | .sXor pebble x cyc => Sys2Proof.Machine.execSXor pebble x cyc s
  | .sShl pebble x cyc => Sys2Proof.Machine.execSShl pebble x cyc s
  | .sShr pebble x cyc => Sys2Proof.Machine.execSShr pebble x cyc s
  | .sSra pebble x cyc => Sys2Proof.Machine.execSSra pebble x cyc s
  | .sMul pebble x cyc => Sys2Proof.Machine.execSMul pebble x cyc s
  | .sMin pebble x cyc => Sys2Proof.Machine.execSMin pebble x cyc s
  | .sMax pebble x cyc => Sys2Proof.Machine.execSMax pebble x cyc s
  | .sLui pebble x cyc => Sys2Proof.Machine.execSLui pebble x cyc s
  | .sBeq pebble x cyc => Sys2Proof.Machine.execSBeq pebble x cyc s
  | .sBne pebble x cyc => Sys2Proof.Machine.execSBne pebble x cyc s
  | .sBlt pebble x cyc => Sys2Proof.Machine.execSBlt pebble x cyc s
  | .sBge pebble x cyc => Sys2Proof.Machine.execSBge pebble x cyc s
  | .sBltu pebble x cyc => Sys2Proof.Machine.execSBltu pebble x cyc s
  | .sBgeu pebble x cyc => Sys2Proof.Machine.execSBgeu pebble x cyc s
  | .sBflt pebble x cyc => Sys2Proof.Machine.execSBflt pebble x cyc s
  | .sBfge pebble x cyc => Sys2Proof.Machine.execSBfge pebble x cyc s
  | .sJ pebble x cyc => Sys2Proof.Machine.execSJ pebble x cyc s
  | .sLd pebble x cyc => Sys2Proof.Machine.execSLd pebble x cyc s
  | .sSt pebble x cyc => Sys2Proof.Machine.execSSt pebble x cyc s
  | .waitC pebble x cyc => Sys2Proof.Machine.execWaitC pebble x cyc s
  | .waitO pebble x cyc => Sys2Proof.Machine.execWaitO pebble x cyc s
  | .sSignal pebble x cyc => Sys2Proof.Machine.execSSignal pebble x cyc s
  | .sBarrier pebble x cyc => Sys2Proof.Machine.execSBarrier pebble x cyc s
  | .fence pebble x cyc => Sys2Proof.Machine.execFence pebble x cyc s
  | .sEnd pebble x cyc => Sys2Proof.Machine.execSEnd pebble x cyc s
  | .sNop pebble x cyc => Sys2Proof.Machine.execSNop pebble x cyc s
  | .stream pebble x cyc => Sys2Proof.Machine.execStream pebble x cyc s
  | .fenceSatisfied pebble x cyc => Sys2Proof.Machine.execFenceSatisfied pebble x cyc s
  | .pebbleTaskFinish pebble x cyc => Sys2Proof.Machine.execPebbleTaskFinish pebble x cyc s
  | .streamDescStart cluster channel cyc => Sys2Proof.Machine.execStreamDescStart cluster channel cyc s
  | .streamDescComplete cluster channel cyc => Sys2Proof.Machine.execStreamDescComplete cluster channel cyc s
  | .cairnWaitTimeout tile id => Sys2Proof.Machine.execCairnWaitTimeout tile id s
  | .signalAckTimeout tag => Sys2Proof.Machine.execSignalAckTimeout tag s
  | .barrierRoundRelease die channel cyc => Sys2Proof.Machine.execBarrierRoundRelease die channel cyc s
  | .barrierLate die channel => Sys2Proof.Machine.execBarrierLate die channel s
  | .barrierTimeout die channel => Sys2Proof.Machine.execBarrierTimeout die channel s
  | .routedPacketArrive router inPort cyc p => Sys2Proof.Machine.execRoutedPacketArrive router inPort cyc p s
  | .write router cyc p => Sys2Proof.Machine.execWrite router cyc p s
  | .read router cyc p => Sys2Proof.Machine.execRead router cyc p s
  | .data router cyc p => Sys2Proof.Machine.execData router cyc p s
  | .ack router cyc p => Sys2Proof.Machine.execAck router cyc p s
  | .signal router cyc p => Sys2Proof.Machine.execSignal router cyc p s
  | .reduce router cyc p => Sys2Proof.Machine.execReduce router cyc p s
  | .escapeTimer router inPort vc cyc => Sys2Proof.Machine.execEscapeTimer router inPort vc cyc s
  | .routedTimeout tag => Sys2Proof.Machine.execRoutedTimeout tag s
  | .reduceTagTimeout hub group tag => Sys2Proof.Machine.execReduceTagTimeout hub group tag s
  | .controlRingMessage die src dest id uncorrectable => Sys2Proof.Machine.execControlRingMessage die src dest id uncorrectable s
  | .flitReceive port slot bytes => Sys2Proof.Machine.execFlitReceive port slot bytes s
  | .nak port payload => Sys2Proof.Machine.execNak port payload s
  | .replay port payload => Sys2Proof.Machine.execReplay port payload s
  | .nakResendTimer port => Sys2Proof.Machine.execNakResendTimer port s
  | .schedFlitRelease port slot => Sys2Proof.Machine.execSchedFlitRelease port slot s
  | .linkTxSlot port slot => Sys2Proof.Machine.execLinkTxSlot port slot s
  | .cdrLoss port => Sys2Proof.Machine.execCdrLoss port s
  | .trainingBlockReceive port lane bytes localTime localDone => Sys2Proof.Machine.execTrainingBlockReceive port lane bytes localTime localDone s
  | .trainingStageDeadline port => Sys2Proof.Machine.execTrainingStageDeadline port s
  | .widthConfirmTimeout port => Sys2Proof.Machine.execWidthConfirmTimeout port s
  | .portActive port => Sys2Proof.Machine.execPortActive port s
  | .portDownRetry port => Sys2Proof.Machine.execPortDownRetry port s
  | .peerSilence port => Sys2Proof.Machine.execPeerSilence port s
  | .matePortSwitch => Sys2Proof.Machine.execMatePortSwitch s
  | .eccWriteback => Sys2Proof.Machine.execEccWriteback s
  | .patrolScrubRead die word found => Sys2Proof.Machine.execPatrolScrubRead die word found s
  | .scrubPassEnd die hbm => Sys2Proof.Machine.execScrubPassEnd die hbm s
  | .softRepair stack pc bank row ok => Sys2Proof.Machine.execSoftRepair stack pc bank row ok s
  | .autoRetire stack pc => Sys2Proof.Machine.execAutoRetire stack pc s
  | .hbmChannelRetrain stack channel => Sys2Proof.Machine.execHbmChannelRetrain stack channel s
  | .hbmRetrainAttemptEnd stack trained => Sys2Proof.Machine.execHbmRetrainAttemptEnd stack trained s
  | .powerEstimateTick raw gravel activity sensed => Sys2Proof.Machine.execPowerEstimateTick raw gravel activity sensed s
  | .coeffRecal energies => Sys2Proof.Machine.execCoeffRecal energies s
  | .controlStep => Sys2Proof.Machine.execControlStep s
  | .throttleRepeat => Sys2Proof.Machine.execThrottleRepeat s
  | .holdLimitExpiry => Sys2Proof.Machine.execHoldLimitExpiry s
  | .guaranteeWindowEnd partition kind => Sys2Proof.Machine.execGuaranteeWindowEnd partition kind s
  | .marginReading half margin => Sys2Proof.Machine.execMarginReading half margin s
  | .marginEmergency half => Sys2Proof.Machine.execMarginEmergency half s
  | .avsSetpointTimeout half => Sys2Proof.Machine.execAvsSetpointTimeout half s
  | .tempSample readings => Sys2Proof.Machine.execTempSample readings s
  | .stackTempRead readings => Sys2Proof.Machine.execStackTempRead readings s
  | .thermalCapTick => Sys2Proof.Machine.execThermalCapTick s
  | .overLimitTick => Sys2Proof.Machine.execOverLimitTick s
  | .thermalTrip stack unit temp => Sys2Proof.Machine.execThermalTrip stack unit temp s
  | .thermalTripLog => Sys2Proof.Machine.execThermalTripLog s
  | .energyCommit => Sys2Proof.Machine.execEnergyCommit s
  | .eventLogFlush => Sys2Proof.Machine.execEventLogFlush s
  | .heartbeatTick => Sys2Proof.Machine.execHeartbeatTick s
  | .primaryWatchdogExpiry => Sys2Proof.Machine.execPrimaryWatchdogExpiry s
  | .takeoverResume => Sys2Proof.Machine.execTakeoverResume s
  | .standbyRestartDone ok => Sys2Proof.Machine.execStandbyRestartDone ok s
  | .subdieWatchdogExpiry die => Sys2Proof.Machine.execSubdieWatchdogExpiry die s
  | .subdieRestartDone die => Sys2Proof.Machine.execSubdieRestartDone die s
  | .subdieRestartTimeout die => Sys2Proof.Machine.execSubdieRestartTimeout die s
  | .sessionIdleTimeout maker => Sys2Proof.Machine.execSessionIdleTimeout maker s
  | .getVersion m => Sys2Proof.Machine.execGetVersion m s
  | .getCapabilities m => Sys2Proof.Machine.execGetCapabilities m s
  | .negotiateAlgorithms m => Sys2Proof.Machine.execNegotiateAlgorithms m s
  | .getDigests m => Sys2Proof.Machine.execGetDigests m s
  | .getCertificate m => Sys2Proof.Machine.execGetCertificate m s
  | .challenge m => Sys2Proof.Machine.execChallenge m s
  | .getMeasurements m => Sys2Proof.Machine.execGetMeasurements m s
  | .keyExchange m => Sys2Proof.Machine.execKeyExchange m s
  | .finish m => Sys2Proof.Machine.execFinish m s
  | .endSession m => Sys2Proof.Machine.execEndSession m s
  | .keyUpdate m => Sys2Proof.Machine.execKeyUpdate m s
  | .vendorDefinedRequest m => Sys2Proof.Machine.execVendorDefinedRequest m s
  | .setEndpointId m => Sys2Proof.Machine.execSetEndpointId m s
  | .getEndpointId m => Sys2Proof.Machine.execGetEndpointId m s
  | .getEndpointUuid m => Sys2Proof.Machine.execGetEndpointUuid m s
  | .getMctpVersionSupport m => Sys2Proof.Machine.execGetMctpVersionSupport m s
  | .getMessageTypeSupport m => Sys2Proof.Machine.execGetMessageTypeSupport m s
  | .getVendorDefinedMsgSupport m => Sys2Proof.Machine.execGetVendorDefinedMsgSupport m s
  | .mctpAssemblyTimeout transport eid mtype => Sys2Proof.Machine.execMctpAssemblyTimeout transport eid mtype s
  | .smbusArbitrationLoss => Sys2Proof.Machine.execSmbusArbitrationLoss s
  | .smbusAlertResponse => Sys2Proof.Machine.execSmbusAlertResponse s
  | .getTid m => Sys2Proof.Machine.execGetTid m s
  | .getPldmVersion m => Sys2Proof.Machine.execGetPldmVersion m s
  | .getPldmTypes m => Sys2Proof.Machine.execGetPldmTypes m s
  | .getPldmCommands m => Sys2Proof.Machine.execGetPldmCommands m s
  | .setEventReceiver m => Sys2Proof.Machine.execSetEventReceiver m s
  | .getSensorReading m => Sys2Proof.Machine.execGetSensorReading m s
  | .getStateSensorReadings m => Sys2Proof.Machine.execGetStateSensorReadings m s
  | .getPdrRepositoryInfo m => Sys2Proof.Machine.execGetPdrRepositoryInfo m s
  | .getPdr m => Sys2Proof.Machine.execGetPdr m s
  | .queryDeviceIdentifiers m => Sys2Proof.Machine.execQueryDeviceIdentifiers m s
  | .getFirmwareParameters m => Sys2Proof.Machine.execGetFirmwareParameters m s
  | .pldmUpdateOther m => Sys2Proof.Machine.execPldmUpdateOther m s
  | .transferComplete m => Sys2Proof.Machine.execTransferComplete m s
  | .activateFirmware m => Sys2Proof.Machine.execActivateFirmware m s
  | .readTelemetry m => Sys2Proof.Machine.execReadTelemetry m s
  | .readEvents m => Sys2Proof.Machine.execReadEvents m s
  | .readBootRecord m => Sys2Proof.Machine.execReadBootRecord m s
  | .readAudit m => Sys2Proof.Machine.execReadAudit m s
  | .trstNAssert => Sys2Proof.Machine.execTrstNAssert s
  | .bistRun die value => Sys2Proof.Machine.execBistRun die value s
  | .bistDone die failures first faults => Sys2Proof.Machine.execBistDone die failures first faults s
  | .memRead die addr cyc => Sys2Proof.Machine.execMemRead die addr cyc s
  | .testModeEntry die instruction => Sys2Proof.Machine.execTestModeEntry die instruction s
  | .mirrorStartRecord check startBeat => Sys2Proof.Machine.execMirrorStartRecord check startBeat s
  | .mirrorIntervalEnd => Sys2Proof.Machine.execMirrorIntervalEnd s
  | .mirrorCommit payload => Sys2Proof.Machine.execMirrorCommit payload s
  | .mirrorCommitTimeout => Sys2Proof.Machine.execMirrorCommitTimeout s
  | .mirrorForwardWrite p => Sys2Proof.Machine.execMirrorForwardWrite p s
  | .mirrorSeqSkip => Sys2Proof.Machine.execMirrorSeqSkip s
  | .mirrorCommitAnswer => Sys2Proof.Machine.execMirrorCommitAnswer s
  | .resyncPassEnd => Sys2Proof.Machine.execResyncPassEnd s
  | .assayIntervalClose die unit => Sys2Proof.Machine.execAssayIntervalClose die unit s
  | .powerLoss => Sys2Proof.Machine.execPowerLoss s
  | .perstRelease hostPort => Sys2Proof.Machine.execPerstRelease hostPort s
  | .resetNHoldExpiry => Sys2Proof.Machine.execResetNHoldExpiry s
  | .mctpPacketReceive transport bytes => Sys2Proof.Machine.execMctpPacketReceive transport bytes s

end Sys2Proof.Machine
end

