-- ==== Sys2Proof/Safety.lean ====
section
/-! DEFINITION. What counts as a safe run, and the terms that the statements use: how a command completes, which pebble or slab command issues, and
what a command leaves alone. -/

namespace Sys2Proof.Machine

/-- The device never holds a beat number above its high-water mark (R33). -/
def BeatSafe (s : State) : Prop := s.dev.beat.number ≤ s.dev.beat.highWater

/-- Memory is in canonical form (log entry 12). -/
def MemSafe (s : State) : Prop := s.dev.mem.wf = true

/-- A step goes on: it ends in a next state (18 R548 to R553 give no stop). -/
def GoesOn (s : State) : Prop := ∃ t, step s = .next t

/-- A command completes: it answers a next state, of which `E` holds. -/
def Completes (i : Instr) (s : State) (E : State → Prop) : Prop := ∃ t, exec i s = .next t ∧ E t

/-- A command completes, leaves the queue, and gives this device but for the high-water mark, which follows the beat number (R33). -/
def Gives (i : Instr) (s : State) (d : Dev) : Prop := exec i s = .next { s with dev := settle d }

/-- The device runs, and a command finds it so, its outputs emptied (log entry 5). -/
abbrev Live (s : State) : Prop := s.dev.boot.phase.live = true

/-- The device as a command finds it: its outputs start empty (log entry 5). -/
abbrev State.found (s : State) : Dev := s.dev.fresh

/-! ## Pebbles -/

/-- The job cycle at which a command acts on a pebble. -/
def pebTime (s : State) (p cyc : Nat) : Nat := s.dev.now (halfOfUnit (p / 8)) cyc

/-- The device as a pebble's command finds it: its cluster and the cairns of its half have run up to the cycle (R269, R323). -/
def pebDev (s : State) (p cyc : Nat) : Dev := (s.dev.fresh.clusterRun (p / 8) (pebTime s p cyc)).cairnFlush (halfOfUnit (p / 8)) (pebTime s p cyc)

/-- A context of a pebble as its command finds it. -/
def pebCtx (s : State) (p x cyc : Nat) : PCtx := (pebDev s p cyc).getPCtx (4 * p + x)

/-- The half of a pebble works at the cycle, which has not passed in its cluster. -/
def pebRuns (s : State) (p cyc : Nat) : Bool :=
  s.dev.boot.phase.live && s.dev.working (halfOfUnit (p / 8)) cyc && decide ((s.dev.getCluster (p / 8)).cur ≤ pebTime s p cyc)

/-- An instruction of a context issues at a cycle (R239, R240): it is the word at the context's pc, its copy is sound, and the pebble picks the context. -/
def issues (s : State) (p x cyc : Nat) (w : PWord) : Bool :=
  pebRuns s p cyc && decide (decodeP (((pebDev s p cyc).getPebble p).word (pebCtx s p x cyc).pc) = some w)
  && ((pebDev s p cyc).issuePick p (pebTime s p cyc) == some x) && !((pebDev s p cyc).getPebble p).imemErr.contains (pebCtx s p x cyc).pc

/-- The extension word behind an instruction (R244). -/
def pebExt (s : State) (p x cyc : Nat) : Nat := ((pebDev s p cyc).getPebble p).word ((pebCtx s p x cyc).pc + 1)

/-- What an instruction that writes registers leaves alone: everything but its context and its pebble's issue record; the clusters stay too. -/
def PebFrame (s t : State) (p x cyc : Nat) : Prop :=
  t.pending = s.pending ∧ t.dev = settle { pebDev s p cyc with peb := t.dev.peb } ∧ t.dev.peb.clusters = (pebDev s p cyc).peb.clusters
  ∧ (∀ k, k ≠ 4 * p + x → t.dev.getPCtx k = (pebDev s p cyc).getPCtx k) ∧ (∀ k, k ≠ p → t.dev.getPebble k = (pebDev s p cyc).getPebble k)

/-- The context goes on behind a word that has issued; its other fields are as `c` has them. -/
def PCtx.past (c : PCtx) (w : PWord) : PCtx := { c with pc := c.pc + w.size }

/-- An instruction has written one scalar register and nothing else of its context; s0 discards what is written to it (R237). -/
def ScalarWritten (c : PCtx) (w : PWord) (sd : Nat) (v : SReg) (c' : PCtx) : Prop :=
  c' = { c.past w with s := c'.s, sReady := c'.sReady } ∧ c'.sreg sd = (if sd = 0 then {} else v) ∧ ∀ j, j ≠ sd → c'.sreg j = c.sreg j

/-- An instruction has written one vector register of its context; beside it only the LFSR and the counters of R283 may have changed. -/
def VectorWritten (c : PCtx) (w : PWord) (vd : Nat) (v : VReg) (lfsr : Word32) (n : FpAdd) (c' : PCtx) : Prop :=
  c' = { c.past w with
    v := c'.v, vReady := c'.vReady, lfsr := lfsr, satCount := satAdd 24 c.satCount n.sat, nanCount := satAdd 24 c.nanCount n.nan
    tritInvalid := satAdd 16 c.tritInvalid n.trit }
  ∧ c'.vreg vd = v ∧ ∀ j, j ≠ vd → c'.vreg j = c.vreg j

/-- An instruction has written one vector register and nothing else of its context. -/
def VectorOnly (c : PCtx) (w : PWord) (vd : Nat) (v : VReg) (c' : PCtx) : Prop :=
  c' = { c.past w with v := c'.v, vReady := c'.vReady } ∧ c'.vreg vd = v ∧ ∀ j, j ≠ vd → c'.vreg j = c.vreg j

/-- An instruction has written one mask register and nothing else of its context; m0 cannot be written (R237). -/
def MaskWritten (c : PCtx) (w : PWord) (md : Nat) (v : MaskReg) (c' : PCtx) : Prop :=
  c' = { c.past w with m := c'.m, mReady := c'.mReady } ∧ c'.mreg md = (if md = 0 then BitVec.allOnes 256 else v)
  ∧ ∀ j, j ≠ md → c'.mreg j = c.mreg j

/-! ## Slabs -/

/-- The job cycle at which a command acts on a slab. -/
def slabTime (s : State) (k cyc : Nat) : Nat := s.dev.now (halfOfUnit k) cyc

/-- The device with a slab's engines run up to the cycle. -/
def slabRun (s : State) (k cyc : Nat) : Dev := s.dev.fresh.slabRun k (slabTime s k cyc)

/-- The device as a slab context's command finds it: the cairns of the half have run too (R323). -/
def slabDev (s : State) (k cyc : Nat) : Dev := (slabRun s k cyc).cairnFlush (halfOfUnit k) (slabTime s k cyc)

/-- A context of a slab as its command finds it. -/
def slabCtx (s : State) (k x cyc : Nat) : SCtx := (slabDev s k cyc).getSCtx (2 * k + x)

/-- The half of a slab works at the cycle, which has not passed in the slab. -/
def slabRuns (s : State) (k cyc : Nat) : Bool :=
  s.dev.boot.phase.live && s.dev.working (halfOfUnit k) cyc && decide ((s.dev.getSlab k).seq.cur ≤ slabTime s k cyc)

/-- A command is the head of its context, its copy is sound, and order and its wait let it dispatch at the cycle (R203). -/
def dispatches (s : State) (k x cyc : Nat) (h : SlabCmd) : Bool :=
  slabRuns s k cyc && ((slabCtx s k x cyc).head == some h) && !(slabCtx s k x cyc).codeErr.contains (slabCtx s k x cyc).pc
  && (slabCtx s k x cyc).canDispatch h (slabTime s k cyc)

/-! ## Mailbox commands -/

/-- A mailbox command has passed steps 1 to 3 of R448 and the check of R449: Bedrock serves its idle ring, which may issue it, its session is valid, no
reserved field is set, and no host or flash access of it fails. -/
def mbxReady (s : State) (sp : MbxSpec) (c : MbxCmd) : Prop :=
  Live s ∧ s.found.serving = true ∧ c.opcode = sp.opcode ∧ c.ring < 66 ∧ (s.found.getRing c.ring).executing = false ∧ s.found.mustPark c = false
  ∧ sp.roles.testBit (ringRole c.ring) = true ∧ (c.ring < 64 → s.found.granted c.ring = some c.part)
  ∧ (64 ≤ c.ring → sp.opcode ≠ 2 → (s.found.ringSession c.ring).isOpen = true ∧ (s.found.ringSession c.ring).id = c.session
    ∧ c.seq = (s.found.ringSession c.ring).nextSeq ∧ authOk c (s.found.ringSession c.ring).key sp.inBuf = true)
  ∧ reservedOf c sp = none ∧ (sp.reads = false → s.found.conflictRing sp c = none) ∧ c.readFail = none ∧ c.auditFails = false

/-- A ring takes the completion of its command (R441, R443). -/
def ringTakes (s : State) (c : MbxCmd) : Prop := (s.found.getRing c.ring).state = 1 ∧ (s.found.getRing c.ring).discard = false ∧ c.cplFails = false

/-- The completion entry of a command that is not audited, as host memory receives it (R441, R446). -/
def completionOf (s : State) (c : MbxCmd) (r : Reply) : Out :=
  let q := s.found.getRing c.ring
  .hostWrite (q.cplBase + 32 * q.cplTail) (cplEntry c.opcode r.status (b2n q.phase) c.tag q.head s.dev.beat.number r)

/-- A command waits for its own event (R451). -/
def waitsFor (t : State) (c : MbxCmd) : Prop := ∃ w ∈ t.dev.host.waiting, w.ring = c.ring ∧ w.opcode = c.opcode ∧ w.tag = c.tag ∧ w.a0 = c.a0

/-! ## Fields of encoded words -/

/-- Every value of a list fits the width at its place. -/
def fieldsFit (widths values : List Nat) : Prop := widths.length = values.length ∧ ∀ x ∈ widths.zip values, x.2 < 2 ^ x.1

/-- The fields of an instruction word fit their places, and its class is of its layout (R244 to R246). -/
def PWord.fits : PWord → Prop
  | .sca w => 1 ≤ w.cls ∧ w.cls ≤ 5 ∧ fieldsFit scaWidths [w.cls, w.op, w.sd, w.sa, w.sb, 0, w.imm32]
  | .vec w => 8 ≤ w.cls ∧ fieldsFit vecWidths
      [w.cls, w.op, w.vd, w.va, w.vb, w.vc, w.type, w.type2, w.mask, b2n w.mz, b2n w.imm, w.rmode, b2n w.nonSat, w.sd, w.aux, 0]

/-- The fields of a stream descriptor fit their places; ROWS counts from 1 (R270). -/
def SDesc.fits (e : SDesc) : Prop :=
  1 ≤ e.rows ∧ fieldsFit q0Widths [e.kind, b2n e.sigEn, e.sigCairn, e.sigInc, e.rows - 1, e.rowBytes, 0]
  ∧ fieldsFit q1Widths [e.cmemAddr, 0, e.cmemStride] ∧ fieldsFit q2Widths [e.dpa, 0] ∧ fieldsFit q3Widths [e.dpaStride, 0]

/-- The fields of an operation fit their places; its counts start at 1 (R208 to R215). -/
def SlabOp.fits : SlabOp → Prop
  | .pass p => 1 ≤ p.kv ∧ 1 ≤ p.nv ∧ 1 ≤ p.m ∧ fieldsFit passWidths
      [p.afmt, p.wfmt, p.mode, p.tile, p.kv - 1, p.nv - 1, p.m - 1, p.arrays, b2n p.combine, p.wbank, p.abank, p.accRow, p.accSel]
  | .streak k => 1 ≤ k.k ∧ 1 ≤ k.n ∧ 1 ≤ k.m ∧ fieldsFit streakWidths1
      [k.afmt, k.wfmt, k.k - 1, k.n - 1, k.m - 1, b2n k.rowq, k.abank, b2n k.combine, k.accRow, k.accSel, 0]
      ∧ fieldsFit streakWidths2 [k.waddr, k.wSel, 0]
  | .drain d => 1 ≤ d.rows ∧ 1 ≤ d.nv ∧ fieldsFit drainWidths1
      [d.accRow, d.accSel, d.rows - 1, d.arrays, d.nv - 1, d.outFmt, d.rmode, b2n d.nonSat, d.table, d.reduce, b2n d.smallest, b2n d.merge,
        b2n d.clear, d.dst, d.bank, 0]
      ∧ fieldsFit drainWidths2 [d.dstAddr, d.dstSel, d.auxAddr, d.auxSel, 0] ∧ fieldsFit drainWidths3 [d.scale, d.colBase]
  | .dma i a b c => fieldsFit dmaWidths [i, a, b, c, 0]
  | .barrier ch r => fieldsFit barrierWidths [ch, b2n r, 0]
  | .base r v s => fieldsFit baseWidths [r, 0, v] ∧ fieldsFit baseWidths2 [s, 0]
  | .loop n b m => 1 ≤ n ∧ fieldsFit loopWidths [n - 1, b, m, 0]
  | .sync => True
  | .nop => True
  | .finish => True

/-- The fields of a slab command fit their places (R206). -/
def SlabCmd.fits (c : SlabCmd) : Prop :=
  c.at_.waitCairn < 1024 ∧ c.at_.waitN < 65536 ∧ c.at_.sigCairn < 1024 ∧ c.at_.sigInc < 256 ∧ c.op.fits

/-- The fields of a DMA descriptor fit their places; its counts start at 1 (R225). -/
def Desc.fits (e : Desc) : Prop :=
  1 ≤ e.kv ∧ 1 ≤ e.nv ∧ 1 ≤ e.m ∧ 1 ≤ e.klen
  ∧ fieldsFit d0Widths [e.kind, e.src, e.dst, e.fmt, e.pfmt, e.tile, e.kv - 1, e.nv - 1, e.m - 1, e.bank, e.arrays, b2n e.trans, 0]
  ∧ fieldsFit d48Widths [e.srcAddr, 0] ∧ fieldsFit d48Widths [e.srcSaddr, 0] ∧ fieldsFit d32Widths [e.rowStride, e.srowStride]
  ∧ fieldsFit d32Widths [e.arrayStride, e.arraySstride] ∧ fieldsFit d5Widths [e.k0, e.klen - 1, 0] ∧ fieldsFit d48Widths [e.dstAddr, 0]
  ∧ fieldsFit d32Widths [e.bytes, 0]

end Sys2Proof.Machine
end

