-- ==== Sys2Proof/WellFormed.lean ====
section
/-! DEFINITION. Which commands are well formed: every operand lies in the range that the spec gives its kind. -/

namespace Sys2Proof

/-- A mailbox command comes on one of the 66 command rings with a 64-byte descriptor (R430, R445). -/
def mbxOk (c : MbxCmd) : Bool := decide (c.ring < 66) && decide (c.desc.length = 64)

/-- A routed packet fits its fields and carries LEN + 1 flits of 240 bytes (R352). -/
def packetOk (p : Packet) : Bool :=
  decide (p.dest < 4194304) && decide (p.src < 4194304) && decide (p.part < 8) && decide (p.kind < 8)
  && decide (p.vc < 4) && decide (p.len < 16) && decide (p.payload.length = 240 * (p.len + 1))

/-- A PCIe access comes through host port 0 or 2 and the PF or one of 16 VFs (R424, R425). -/
def accessOk (a : Access) : Bool := (a.port == 0 || a.port == 2) && decide (a.fn < 17)

/-- A management message names a transport of R572 and fits the assembled size. -/
def messageOk (m : Message) : Bool := decide (m.transport < 3) && decide (m.eid < 256) && decide (m.body.length ≤ 1024)

/-- Every operand in range. -/
def wellFormed : Instr → Bool
  | .deviceInfo c => mbxOk c
  | .ownershipTake c => mbxOk c
  | .partitionCreate c => mbxOk c
  | .partitionFillDone partition => decide (partition < 8)
  | .partitionDestroy c => mbxOk c
  | .imageLoad c => mbxOk c
  | .jobStart c => mbxOk c
  | .jobStartBeat partition => decide (partition < 8)
  | .jobStop c => mbxOk c
  | .partitionDrainEnd partition => decide (partition < 8)
  | .jobStatus c => mbxOk c
  | .noticePost partition => decide (partition < 8)
  | .beatConfig c => mbxOk c
  | .linkConfig c => mbxOk c
  | .fabricPolicySelf c => mbxOk c
  | .fabricPolicyPartition c => mbxOk c
  | .fabricPolicyBarrierTree c => mbxOk c
  | .fabricPolicyAperture c => mbxOk c
  | .routeTableSet c => mbxOk c
  | .routeDrainDone => true
  | .routeDrainTimeout => true
  | .powerPolicyCap c => mbxOk c
  | .powerPolicyShareOrder c => mbxOk c
  | .powerPolicyDeepIdle c => mbxOk c
  | .powerPolicyGravel c => mbxOk c
  | .powerPolicyScrub c => mbxOk c
  | .oppointTableSet c => mbxOk c
  | .guaranteeSet c => mbxOk c
  | .energyRead c => mbxOk c
  | .telemetryRead c => mbxOk c
  | .logRead c => mbxOk c
  | .fwStage c => mbxOk c
  | .fwActivate c => mbxOk c
  | .fwActivateTakeover => true
  | .fwSwitchDie die => decide (die < 4)
  | .fwActivateTimeout => true
  | .calRun c => mbxOk c
  | .calRunDone kind _ _ => decide (kind < 3)
  | .unitRetire c => mbxOk c
  | .unitDisable c => mbxOk c
  | .unitEnable c => mbxOk c
  | .unitLeaveService kind _ _ => decide (kind < 6)
  | .pebbleRemap cluster name => decide (cluster < 32) && decide (name < 8)
  | .hbmRetireCopyDone stack => decide (stack < 20)
  | .hbmChRetireEffect stack channel => decide (stack < 20) && decide (channel < 32)
  | .mirrorPair c => mbxOk c
  | .mirrorHandshake _ _ => true
  | .mirrorHandshakeTimeout => true
  | .cairnSet c => mbxOk c
  | .assayConfig c => mbxOk c
  | .fuseProgram c => mbxOk c
  | .regAccess c => mbxOk c
  | .debugUnlock c => mbxOk c
  | .descriptorFetch ring _ => decide (ring < 66)
  | .mbxDoorbell a ring _ => accessOk a && decide (ring < 66)
  | .mbxCplDoorbell a ring _ => accessOk a && decide (ring < 66)
  | .mbxEnableSet a ring _ => accessOk a && decide (ring < 66)
  | .mbxEnableClear a ring _ => accessOk a && decide (ring < 66)
  | .evtDoorbell a _ => accessOk a
  | .evtEnableSet a _ => accessOk a
  | .assayFeedByte a die unit _ => accessOk a && decide (die < 4) && decide (unit < 8)
  | .assayFeedFinish a die unit _ => accessOk a && decide (die < 4) && decide (unit < 8)
  | .registerWrite a _ _ _ => accessOk a
  | .apertureAccess a _ _ _ => accessOk a
  | .perstAssert hostPort => decide (hostPort < 3)
  | .functionLevelReset a => accessOk a
  | .resetNAssert => true
  | .resetNRelease _ _ => true
  | .selfReset _ => true
  | .selfResetHoldEnd => true
  | .pwrFailAssert => true
  | .pwrFailDeassert => true
  | .stageAlwaysOnDone _ _ _ _ _ => true
  | .stageFirmwareDone _ => true
  | .stageDiesDone _ _ _ => true
  | .stageBistDone _ _ _ => true
  | .stageHbmDone _ _ _ => true
  | .stageSerdesDone _ _ _ => true
  | .stageConfigDone _ => true
  | .bootStageDeadline => true
  | .beatEdge _ => true
  | .beatHeaderReceive port _ _ _ => decide (port < 20)
  | .alignStep => true
  | .headersMissingCount => true
  | .parentSwitch => true
  | .joinTimeout => true
  | .joinRestart => true
  | .masterConflictExpiry => true
  | .beatInEdge _ => true
  | .beatInMissing => true
  | .holdRequestTimer => true
  | .hold p => packetOk p
  | .deepIdleEntry => true
  | .deepIdleTransitionDone => true
  | .deepIdleAwakeExpiry => true
  | .seamChangeStart die => decide (die < 4)
  | .seamChangeEnd die => decide (die < 4)
  | .oppointChange partition => decide (partition < 8)
  | .pass slab x cyc => decide (slab < 32) && decide (x < 2) && decide (cyc < 1224)
  | .passComplete slab x cyc => decide (slab < 32) && decide (x < 2) && decide (cyc < 1224)
  | .streak slab x cyc => decide (slab < 32) && decide (x < 2) && decide (cyc < 1224)
  | .streakUnitFree slab cyc => decide (slab < 32) && decide (cyc < 1224)
  | .streakComplete slab x cyc => decide (slab < 32) && decide (x < 2) && decide (cyc < 1224)
  | .drain slab x cyc => decide (slab < 32) && decide (x < 2) && decide (cyc < 1224)
  | .drainComplete slab x cyc => decide (slab < 32) && decide (x < 2) && decide (cyc < 1224)
  | .dma slab x cyc => decide (slab < 32) && decide (x < 2) && decide (cyc < 1224)
  | .sync slab x cyc => decide (slab < 32) && decide (x < 2) && decide (cyc < 1224)
  | .barrier slab x cyc => decide (slab < 32) && decide (x < 2) && decide (cyc < 1224)
  | .base slab x cyc => decide (slab < 32) && decide (x < 2) && decide (cyc < 1224)
  | .loop slab x cyc => decide (slab < 32) && decide (x < 2) && decide (cyc < 1224)
  | .nop slab x cyc => decide (slab < 32) && decide (x < 2) && decide (cyc < 1224)
  | .slabEnd slab x cyc => decide (slab < 32) && decide (x < 2) && decide (cyc < 1224)
  | .slabTaskFinish slab x cyc => decide (slab < 32) && decide (x < 2) && decide (cyc < 1224)
  | .dmaDescStart slab channel cyc => decide (slab < 32) && decide (channel < 2) && decide (cyc < 1224)
  | .dmaDescComplete slab channel cyc => decide (slab < 32) && decide (channel < 2) && decide (cyc < 1224)
  | .slotEntryFire tile entry cyc => decide (tile < 128) && decide (entry < 1024) && decide (cyc < 1224)
  | .hbmScheduledRead tile entry cyc => decide (tile < 128) && decide (entry < 1024) && decide (cyc < 1224)
  | .gravelWindow slab cyc => decide (slab < 32) && decide (cyc < 1224)
  | .vAdd pebble x cyc => decide (pebble < 256) && decide (x < 4) && decide (cyc < 1224)
  | .vSub pebble x cyc => decide (pebble < 256) && decide (x < 4) && decide (cyc < 1224)
  | .vMul pebble x cyc => decide (pebble < 256) && decide (x < 4) && decide (cyc < 1224)
  | .vFma pebble x cyc => decide (pebble < 256) && decide (x < 4) && decide (cyc < 1224)
  | .vFms pebble x cyc => decide (pebble < 256) && decide (x < 4) && decide (cyc < 1224)
  | .vMin pebble x cyc => decide (pebble < 256) && decide (x < 4) && decide (cyc < 1224)
  | .vMax pebble x cyc => decide (pebble < 256) && decide (x < 4) && decide (cyc < 1224)
  | .vAbs pebble x cyc => decide (pebble < 256) && decide (x < 4) && decide (cyc < 1224)
  | .vNeg pebble x cyc => decide (pebble < 256) && decide (x < 4) && decide (cyc < 1224)
  | .vMov pebble x cyc => decide (pebble < 256) && decide (x < 4) && decide (cyc < 1224)
  | .vAnd pebble x cyc => decide (pebble < 256) && decide (x < 4) && decide (cyc < 1224)
  | .vOr pebble x cyc => decide (pebble < 256) && decide (x < 4) && decide (cyc < 1224)
  | .vXor pebble x cyc => decide (pebble < 256) && decide (x < 4) && decide (cyc < 1224)
  | .vShl pebble x cyc => decide (pebble < 256) && decide (x < 4) && decide (cyc < 1224)
  | .vShra pebble x cyc => decide (pebble < 256) && decide (x < 4) && decide (cyc < 1224)
  | .vShrl pebble x cyc => decide (pebble < 256) && decide (x < 4) && decide (cyc < 1224)
  | .vCmpEq pebble x cyc => decide (pebble < 256) && decide (x < 4) && decide (cyc < 1224)
  | .vCmpNe pebble x cyc => decide (pebble < 256) && decide (x < 4) && decide (cyc < 1224)
  | .vCmpLt pebble x cyc => decide (pebble < 256) && decide (x < 4) && decide (cyc < 1224)
  | .vCmpLe pebble x cyc => decide (pebble < 256) && decide (x < 4) && decide (cyc < 1224)
  | .vCmpGt pebble x cyc => decide (pebble < 256) && decide (x < 4) && decide (cyc < 1224)
  | .vCmpGe pebble x cyc => decide (pebble < 256) && decide (x < 4) && decide (cyc < 1224)
  | .vCmpUnord pebble x cyc => decide (pebble < 256) && decide (x < 4) && decide (cyc < 1224)
  | .vMand pebble x cyc => decide (pebble < 256) && decide (x < 4) && decide (cyc < 1224)
  | .vMor pebble x cyc => decide (pebble < 256) && decide (x < 4) && decide (cyc < 1224)
  | .vMxor pebble x cyc => decide (pebble < 256) && decide (x < 4) && decide (cyc < 1224)
  | .vMandn pebble x cyc => decide (pebble < 256) && decide (x < 4) && decide (cyc < 1224)
  | .vExp pebble x cyc => decide (pebble < 256) && decide (x < 4) && decide (cyc < 1224)
  | .vLog pebble x cyc => decide (pebble < 256) && decide (x < 4) && decide (cyc < 1224)
  | .vRcp pebble x cyc => decide (pebble < 256) && decide (x < 4) && decide (cyc < 1224)
  | .vRsqrt pebble x cyc => decide (pebble < 256) && decide (x < 4) && decide (cyc < 1224)
  | .vCvt pebble x cyc => decide (pebble < 256) && decide (x < 4) && decide (cyc < 1224)
  | .vRsum pebble x cyc => decide (pebble < 256) && decide (x < 4) && decide (cyc < 1224)
  | .vRmax pebble x cyc => decide (pebble < 256) && decide (x < 4) && decide (cyc < 1224)
  | .vRmin pebble x cyc => decide (pebble < 256) && decide (x < 4) && decide (cyc < 1224)
  | .vSplat pebble x cyc => decide (pebble < 256) && decide (x < 4) && decide (cyc < 1224)
  | .vShup pebble x cyc => decide (pebble < 256) && decide (x < 4) && decide (cyc < 1224)
  | .vShdn pebble x cyc => decide (pebble < 256) && decide (x < 4) && decide (cyc < 1224)
  | .vSel pebble x cyc => decide (pebble < 256) && decide (x < 4) && decide (cyc < 1224)
  | .vSwap2 pebble x cyc => decide (pebble < 256) && decide (x < 4) && decide (cyc < 1224)
  | .vPack5 pebble x cyc => decide (pebble < 256) && decide (x < 4) && decide (cyc < 1224)
  | .vUnpack5 pebble x cyc => decide (pebble < 256) && decide (x < 4) && decide (cyc < 1224)
  | .vLd pebble x cyc => decide (pebble < 256) && decide (x < 4) && decide (cyc < 1224)
  | .vSt pebble x cyc => decide (pebble < 256) && decide (x < 4) && decide (cyc < 1224)
  | .vSumAny pebble x cyc => decide (pebble < 256) && decide (x < 4) && decide (cyc < 1224)
  | .vSumAll pebble x cyc => decide (pebble < 256) && decide (x < 4) && decide (cyc < 1224)
  | .vSumCount pebble x cyc => decide (pebble < 256) && decide (x < 4) && decide (cyc < 1224)
  | .vSumFirst pebble x cyc => decide (pebble < 256) && decide (x < 4) && decide (cyc < 1224)
  | .vSumMax pebble x cyc => decide (pebble < 256) && decide (x < 4) && decide (cyc < 1224)
  | .sAdd pebble x cyc => decide (pebble < 256) && decide (x < 4) && decide (cyc < 1224)
  | .sSub pebble x cyc => decide (pebble < 256) && decide (x < 4) && decide (cyc < 1224)
  | .sAnd pebble x cyc => decide (pebble < 256) && decide (x < 4) && decide (cyc < 1224)
  | .sOr pebble x cyc => decide (pebble < 256) && decide (x < 4) && decide (cyc < 1224)
  | .sXor pebble x cyc => decide (pebble < 256) && decide (x < 4) && decide (cyc < 1224)
  | .sShl pebble x cyc => decide (pebble < 256) && decide (x < 4) && decide (cyc < 1224)
  | .sShr pebble x cyc => decide (pebble < 256) && decide (x < 4) && decide (cyc < 1224)
  | .sSra pebble x cyc => decide (pebble < 256) && decide (x < 4) && decide (cyc < 1224)
  | .sMul pebble x cyc => decide (pebble < 256) && decide (x < 4) && decide (cyc < 1224)
  | .sMin pebble x cyc => decide (pebble < 256) && decide (x < 4) && decide (cyc < 1224)
  | .sMax pebble x cyc => decide (pebble < 256) && decide (x < 4) && decide (cyc < 1224)
  | .sLui pebble x cyc => decide (pebble < 256) && decide (x < 4) && decide (cyc < 1224)
  | .sBeq pebble x cyc => decide (pebble < 256) && decide (x < 4) && decide (cyc < 1224)
  | .sBne pebble x cyc => decide (pebble < 256) && decide (x < 4) && decide (cyc < 1224)
  | .sBlt pebble x cyc => decide (pebble < 256) && decide (x < 4) && decide (cyc < 1224)
  | .sBge pebble x cyc => decide (pebble < 256) && decide (x < 4) && decide (cyc < 1224)
  | .sBltu pebble x cyc => decide (pebble < 256) && decide (x < 4) && decide (cyc < 1224)
  | .sBgeu pebble x cyc => decide (pebble < 256) && decide (x < 4) && decide (cyc < 1224)
  | .sBflt pebble x cyc => decide (pebble < 256) && decide (x < 4) && decide (cyc < 1224)
  | .sBfge pebble x cyc => decide (pebble < 256) && decide (x < 4) && decide (cyc < 1224)
  | .sJ pebble x cyc => decide (pebble < 256) && decide (x < 4) && decide (cyc < 1224)
  | .sLd pebble x cyc => decide (pebble < 256) && decide (x < 4) && decide (cyc < 1224)
  | .sSt pebble x cyc => decide (pebble < 256) && decide (x < 4) && decide (cyc < 1224)
  | .waitC pebble x cyc => decide (pebble < 256) && decide (x < 4) && decide (cyc < 1224)
  | .waitO pebble x cyc => decide (pebble < 256) && decide (x < 4) && decide (cyc < 1224)
  | .sSignal pebble x cyc => decide (pebble < 256) && decide (x < 4) && decide (cyc < 1224)
  | .sBarrier pebble x cyc => decide (pebble < 256) && decide (x < 4) && decide (cyc < 1224)
  | .fence pebble x cyc => decide (pebble < 256) && decide (x < 4) && decide (cyc < 1224)
  | .sEnd pebble x cyc => decide (pebble < 256) && decide (x < 4) && decide (cyc < 1224)
  | .sNop pebble x cyc => decide (pebble < 256) && decide (x < 4) && decide (cyc < 1224)
  | .stream pebble x cyc => decide (pebble < 256) && decide (x < 4) && decide (cyc < 1224)
  | .fenceSatisfied pebble x cyc => decide (pebble < 256) && decide (x < 4) && decide (cyc < 1224)
  | .pebbleTaskFinish pebble x cyc => decide (pebble < 256) && decide (x < 4) && decide (cyc < 1224)
  | .streamDescStart cluster channel cyc => decide (cluster < 32) && decide (channel < 3) && decide (cyc < 1224)
  | .streamDescComplete cluster channel cyc => decide (cluster < 32) && decide (channel < 3) && decide (cyc < 1224)
  | .cairnWaitTimeout tile id => decide (tile < 64) && decide (id < 32)
  | .signalAckTimeout tag => decide (tag < 65536)
  | .barrierRoundRelease die channel cyc => decide (die < 4) && decide (channel < 16) && decide (cyc < 1224)
  | .barrierLate die channel => decide (die < 4) && decide (channel < 16)
  | .barrierTimeout die channel => decide (die < 4) && decide (channel < 16)
  | .routedPacketArrive router inPort cyc p => decide (router < 1024) && decide (inPort < 96) && decide (cyc < 1224) && packetOk p
  | .write router cyc p => decide (router < 1024) && decide (cyc < 1224) && packetOk p
  | .read router cyc p => decide (router < 1024) && decide (cyc < 1224) && packetOk p
  | .data router cyc p => decide (router < 1024) && decide (cyc < 1224) && packetOk p
  | .ack router cyc p => decide (router < 1024) && decide (cyc < 1224) && packetOk p
  | .signal router cyc p => decide (router < 1024) && decide (cyc < 1224) && packetOk p
  | .reduce router cyc p => decide (router < 1024) && decide (cyc < 1224) && packetOk p
  | .escapeTimer router inPort vc cyc => decide (router < 1024) && decide (inPort < 96) && decide (vc < 4) && decide (cyc < 1224)
  | .routedTimeout tag => decide (tag < 65536)
  | .reduceTagTimeout hub group tag => decide (hub < 32) && decide (group < 256) && decide (tag < 65536)
  | .controlRingMessage die src dest _ _ => decide (die < 4) && decide (src < 26) && decide (dest < 26)
  | .flitReceive port slot _ => decide (port < 20) && decide (slot < 1280)
  | .nak port _ => decide (port < 20)
  | .replay port _ => decide (port < 20)
  | .nakResendTimer port => decide (port < 20)
  | .schedFlitRelease port slot => decide (port < 20) && decide (slot < 1280)
  | .linkTxSlot port slot => decide (port < 20) && decide (slot < 1280)
  | .cdrLoss port => decide (port < 20)
  | .trainingBlockReceive port lane _ _ _ => decide (port < 20) && decide (lane < 32)
  | .trainingStageDeadline port => decide (port < 20)
  | .widthConfirmTimeout port => decide (port < 20)
  | .portActive port => decide (port < 20)
  | .portDownRetry port => decide (port < 20)
  | .peerSilence port => decide (port < 20)
  | .matePortSwitch => true
  | .eccWriteback => true
  | .patrolScrubRead die _ _ => decide (die < 4)
  | .scrubPassEnd die _ => decide (die < 4)
  | .softRepair stack pc _ _ _ => decide (stack < 20) && decide (pc < 64)
  | .autoRetire stack pc => decide (stack < 20) && decide (pc < 64)
  | .hbmChannelRetrain stack channel => decide (stack < 20) && decide (channel < 32)
  | .hbmRetrainAttemptEnd stack _ => decide (stack < 20)
  | .powerEstimateTick _ _ _ _ => true
  | .coeffRecal _ => true
  | .controlStep => true
  | .throttleRepeat => true
  | .holdLimitExpiry => true
  | .guaranteeWindowEnd partition kind => decide (partition < 8) && decide (kind < 4)
  | .marginReading half _ => decide (half < 8)
  | .marginEmergency half => decide (half < 8)
  | .avsSetpointTimeout half => decide (half < 8)
  | .tempSample _ => true
  | .stackTempRead _ => true
  | .thermalCapTick => true
  | .overLimitTick => true
  | .thermalTrip _ unit _ => decide (unit < 48)
  | .thermalTripLog => true
  | .energyCommit => true
  | .eventLogFlush => true
  | .heartbeatTick => true
  | .primaryWatchdogExpiry => true
  | .takeoverResume => true
  | .standbyRestartDone _ => true
  | .subdieWatchdogExpiry die => decide (die < 4)
  | .subdieRestartDone die => decide (die < 4)
  | .subdieRestartTimeout die => decide (die < 4)
  | .sessionIdleTimeout _ => true
  | .getVersion m => messageOk m
  | .getCapabilities m => messageOk m
  | .negotiateAlgorithms m => messageOk m
  | .getDigests m => messageOk m
  | .getCertificate m => messageOk m
  | .challenge m => messageOk m
  | .getMeasurements m => messageOk m
  | .keyExchange m => messageOk m
  | .finish m => messageOk m
  | .endSession m => messageOk m
  | .keyUpdate m => messageOk m
  | .vendorDefinedRequest m => messageOk m
  | .setEndpointId m => messageOk m
  | .getEndpointId m => messageOk m
  | .getEndpointUuid m => messageOk m
  | .getMctpVersionSupport m => messageOk m
  | .getMessageTypeSupport m => messageOk m
  | .getVendorDefinedMsgSupport m => messageOk m
  | .mctpAssemblyTimeout transport _ _ => decide (transport < 3)
  | .smbusArbitrationLoss => true
  | .smbusAlertResponse => true
  | .getTid m => messageOk m
  | .getPldmVersion m => messageOk m
  | .getPldmTypes m => messageOk m
  | .getPldmCommands m => messageOk m
  | .setEventReceiver m => messageOk m
  | .getSensorReading m => messageOk m
  | .getStateSensorReadings m => messageOk m
  | .getPdrRepositoryInfo m => messageOk m
  | .getPdr m => messageOk m
  | .queryDeviceIdentifiers m => messageOk m
  | .getFirmwareParameters m => messageOk m
  | .pldmUpdateOther m => messageOk m
  | .transferComplete m => messageOk m
  | .activateFirmware m => messageOk m
  | .readTelemetry m => messageOk m
  | .readEvents m => messageOk m
  | .readBootRecord m => messageOk m
  | .readAudit m => messageOk m
  | .trstNAssert => true
  | .bistRun die _ => decide (die < 4)
  | .bistDone die _ _ _ => decide (die < 4)
  | .memRead die _ cyc => decide (die < 4) && decide (cyc < 1224)
  | .testModeEntry die instruction => decide (die < 4) && decide (instruction < 256)
  | .mirrorStartRecord _ _ => true
  | .mirrorIntervalEnd => true
  | .mirrorCommit _ => true
  | .mirrorCommitTimeout => true
  | .mirrorForwardWrite p => packetOk p
  | .mirrorSeqSkip => true
  | .mirrorCommitAnswer => true
  | .resyncPassEnd => true
  | .assayIntervalClose die unit => decide (die < 4) && decide (unit < 8)
  | .powerLoss => true
  | .perstRelease hostPort => decide (hostPort < 3)
  | .resetNHoldExpiry => true
  | .mctpPacketReceive transport _ => decide (transport < 3)

end Sys2Proof
end

