-- ==== Sys2Proof/Certificates/Slice0/Obligations.lean ====
section
/-! DEFINITION. The statements for the provers. -/

open Sys2Proof Sys2Proof.Machine

/-- R237, R265, R266: each S.ALU instruction that issues writes its result of s[SA] and s[SB] + IMM32 to s[SD]; a result is poisoned where an operand
is. The results of shifts by 64 or more are the model's choice (log entry 46). -/
def Obligations.ScalarAluResults : Prop :=
  ∀ (s : State) (p x cyc : Nat) (w : SWord), issues s p x cyc (.sca w) = true → w.cls = 1 →
    let c := pebCtx s p x cyc
    let a := (c.sreg w.sa).bits
    let b := (c.sreg w.sb).bits + BitVec.ofInt 64 (sgn 32 w.imm32)
    let writes := fun (i : Instr) (v : Word64) => Completes i s (fun t => PebFrame s t p x cyc
      ∧ ScalarWritten c (.sca w) w.sd ⟨v, (c.sreg w.sa).poison || (c.sreg w.sb).poison⟩ (t.dev.getPCtx (4 * p + x)))
    (w.op = 0 → writes (.sAdd p x cyc) (a + b)) ∧ (w.op = 1 → writes (.sSub p x cyc) (a - b))
    ∧ (w.op = 2 → writes (.sAnd p x cyc) (a &&& b)) ∧ (w.op = 3 → writes (.sOr p x cyc) (a ||| b))
    ∧ (w.op = 4 → writes (.sXor p x cyc) (a ^^^ b))
    ∧ (w.op = 5 → writes (.sShl p x cyc) (if 64 ≤ b.toNat then 0 else a <<< b.toNat))
    ∧ (w.op = 6 → writes (.sShr p x cyc) (if 64 ≤ b.toNat then 0 else a >>> b.toNat))
    ∧ (w.op = 7 → writes (.sSra p x cyc) (a.sshiftRight (min 63 b.toNat)))
    ∧ (w.op = 8 → writes (.sMul p x cyc) (a * b))
    ∧ (w.op = 9 → writes (.sMin p x cyc) (if a.toInt ≤ b.toInt then a else b))
    ∧ (w.op = 10 → writes (.sMax p x cyc) (if a.toInt ≤ b.toInt then b else a))
    ∧ (w.op = 11 → Completes (.sLui p x cyc) s (fun t => PebFrame s t p x cyc ∧ ScalarWritten c (.sca w) w.sd
        ⟨BitVec.ofNat 64 ((c.sreg w.sd).bits.toNat % 2 ^ 32 + w.imm32 * 2 ^ 32), (c.sreg w.sd).poison⟩ (t.dev.getPCtx (4 * p + x))))

/-- R265, R266: each S.BR instruction that issues with sound operands goes to its own index + IMM32 and issues nothing before the third cycle after it,
if its condition holds, and else goes on behind itself; it changes nothing else. J always branches. -/
def Obligations.ScalarBranchResults : Prop :=
  ∀ (s : State) (p x cyc : Nat) (w : SWord), issues s p x cyc (.sca w) = true → w.cls = 2 →
    let c := pebCtx s p x cyc
    let a := (c.sreg w.sa).bits
    let b := (c.sreg w.sb).bits
    let goes := fun (i : Instr) (taken : Bool) => Completes i s (fun t => PebFrame s t p x cyc
      ∧ t.dev.getPCtx (4 * p + x) = (if taken then { c with pc := ((c.pc : Int) + sgn 32 w.imm32).toNat, wake := pebTime s p cyc + 3 }
          else { c with pc := c.pc + 1 }))
    (w.op = 8 → goes (.sJ p x cyc) true)
    ∧ ((c.sreg w.sa).poison = false → (c.sreg w.sb).poison = false →
      (w.op = 0 → goes (.sBeq p x cyc) (decide (a = b))) ∧ (w.op = 1 → goes (.sBne p x cyc) (decide (a ≠ b)))
      ∧ (w.op = 2 → goes (.sBlt p x cyc) (decide (a.toInt < b.toInt))) ∧ (w.op = 3 → goes (.sBge p x cyc) (decide (b.toInt ≤ a.toInt)))
      ∧ (w.op = 4 → goes (.sBltu p x cyc) (decide (a.toNat < b.toNat))) ∧ (w.op = 5 → goes (.sBgeu p x cyc) (decide (b.toNat ≤ a.toNat)))
      ∧ (w.op = 6 → goes (.sBflt p x cyc) (fp32Less a b)) ∧ (w.op = 7 → goes (.sBfge p x cyc) (fp32NotLess a b)))

/-- R249 to R253: each V.ARITH instruction that issues writes its result to v[VD]; beside it only the LFSR of R260 and the counters of R283 change. -/
def Obligations.VectorArithResults : Prop :=
  ∀ (s : State) (p x cyc : Nat) (w : VWord), issues s p x cyc (.vec w) = true → w.cls = 8 →
    let c := pebCtx s p x cyc
    let r := vArith w (vOperands c w (pebExt s p x cyc)) c.lfsr
    let writes := fun (i : Instr) => Completes i s (fun t => PebFrame s t p x cyc
      ∧ VectorWritten c (.vec w) w.vd r.reg r.lfsr r.cnt (t.dev.getPCtx (4 * p + x)))
    (w.op = 0 → writes (.vAdd p x cyc)) ∧ (w.op = 1 → writes (.vSub p x cyc)) ∧ (w.op = 2 → writes (.vMul p x cyc))
    ∧ (w.op = 3 → writes (.vFma p x cyc)) ∧ (w.op = 4 → writes (.vFms p x cyc)) ∧ (w.op = 5 → writes (.vMin p x cyc))
    ∧ (w.op = 6 → writes (.vMax p x cyc)) ∧ (w.op = 7 → writes (.vAbs p x cyc)) ∧ (w.op = 8 → writes (.vNeg p x cyc))
    ∧ (w.op = 9 → writes (.vMov p x cyc)) ∧ (w.op = 10 → writes (.vAnd p x cyc)) ∧ (w.op = 11 → writes (.vOr p x cyc))
    ∧ (w.op = 12 → writes (.vXor p x cyc)) ∧ (w.op = 13 → writes (.vShl p x cyc)) ∧ (w.op = 14 → writes (.vShra p x cyc))
    ∧ (w.op = 15 → writes (.vShrl p x cyc))

/-- R237, R252, R254: each V.CMP instruction that issues writes one mask register; m0 stays all ones. -/
def Obligations.MaskResults : Prop :=
  ∀ (s : State) (p x cyc : Nat) (w : VWord), issues s p x cyc (.vec w) = true → w.cls = 9 →
    let c := pebCtx s p x cyc
    let writes := fun (i : Instr) (m : MaskReg) => Completes i s (fun t => PebFrame s t p x cyc
      ∧ MaskWritten c (.vec w) (w.vd % 8) m (t.dev.getPCtx (4 * p + x)))
    let cmp := vCompare w (vOperands c w (pebExt s p x cyc)) (c.mreg (w.vd % 8))
    let logic := vMaskLogic w (c.mreg (w.va % 8)) (c.mreg (w.vb % 8)) (c.mreg w.mask) (c.mreg (w.vd % 8))
    (w.op = 0 → writes (.vCmpEq p x cyc) cmp) ∧ (w.op = 1 → writes (.vCmpNe p x cyc) cmp) ∧ (w.op = 2 → writes (.vCmpLt p x cyc) cmp)
    ∧ (w.op = 3 → writes (.vCmpLe p x cyc) cmp) ∧ (w.op = 4 → writes (.vCmpGt p x cyc) cmp) ∧ (w.op = 5 → writes (.vCmpGe p x cyc) cmp)
    ∧ (w.op = 6 → writes (.vCmpUnord p x cyc) cmp) ∧ (w.op = 16 → writes (.vMand p x cyc) logic) ∧ (w.op = 17 → writes (.vMor p x cyc) logic)
    ∧ (w.op = 18 → writes (.vMxor p x cyc) logic) ∧ (w.op = 19 → writes (.vMandn p x cyc) logic)

/-- R252, R255, R256, R262 to R264: each V.SF, V.RED, V.PERM and V.SUM instruction that issues writes its destination: v[VD], and s[SD] for V.SUM. -/
def Obligations.VectorOtherResults : Prop :=
  ∀ (s : State) (p x cyc : Nat) (w : VWord), issues s p x cyc (.vec w) = true →
    let c := pebCtx s p x cyc
    let e := pebExt s p x cyc
    let o := vOperands c w e
    let plain := vOperands c { w with imm := false } e
    let writes := fun (i : Instr) (v : VReg) (n : FpAdd) => Completes i s (fun t => PebFrame s t p x cyc
      ∧ VectorWritten c (.vec w) w.vd v c.lfsr n (t.dev.getPCtx (4 * p + x)))
    let sets := fun (i : Instr) (v : SReg) => Completes i s (fun t => PebFrame s t p x cyc
      ∧ ScalarWritten c (.vec w) w.sd v (t.dev.getPCtx (4 * p + x)))
    let sf := fun (i : Instr) => writes i (vSpecial w o).1 (vSpecial w o).2
    let red := fun (i : Instr) => writes i (vReduce w plain).1 (vReduce w plain).2
    let moves := fun (i : Instr) (v : VReg) => Completes i s (fun t => PebFrame s t p x cyc
      ∧ VectorOnly c (.vec w) w.vd v (t.dev.getPCtx (4 * p + x)))
    let perm := fun (i : Instr) => moves i (vPerm w e plain)
    (w.cls = 10 → (w.op = 0 → sf (.vExp p x cyc)) ∧ (w.op = 1 → sf (.vLog p x cyc)) ∧ (w.op = 2 → sf (.vRcp p x cyc))
      ∧ (w.op = 3 → sf (.vRsqrt p x cyc)))
    ∧ (w.cls = 12 → (w.op = 0 → red (.vRsum p x cyc)) ∧ (w.op = 1 → red (.vRmax p x cyc)) ∧ (w.op = 2 → red (.vRmin p x cyc)))
    ∧ (w.cls = 13 → (w.op = 0 → perm (.vSplat p x cyc)) ∧ (w.op = 1 → perm (.vShup p x cyc)) ∧ (w.op = 2 → perm (.vShdn p x cyc))
      ∧ (w.op = 3 → perm (.vSel p x cyc)) ∧ (w.op = 4 → perm (.vSwap2 p x cyc))
      ∧ (w.op = 5 → moves (.vPack5 p x cyc) (vPack5 (c.vreg w.va)))
      ∧ (w.op = 6 → writes (.vUnpack5 p x cyc) (vUnpack5 w plain).1 ⟨0, 0, (vUnpack5 w plain).2⟩))
    ∧ (w.cls = 15 →
      let n := fun (op : Nat) => vSumMask op w.type (c.mreg (w.va % 8)) (c.mreg w.mask)
      (w.op = 0 → sets (.vSumAny p x cyc) ⟨BitVec.ofNat 64 (n 0), false⟩) ∧ (w.op = 1 → sets (.vSumAll p x cyc) ⟨BitVec.ofNat 64 (n 1), false⟩)
      ∧ (w.op = 2 → sets (.vSumCount p x cyc) ⟨BitVec.ofNat 64 (n 2), false⟩)
      ∧ (w.op = 3 → sets (.vSumFirst p x cyc) ⟨BitVec.ofNat 64 (n 3), false⟩)
      ∧ (w.op = 4 → sets (.vSumMax p x cyc) ⟨BitVec.ofNat 64 (vSumMax w.type (c.vreg w.va) (c.mreg w.mask)),
          enabledPoison w.type (c.vreg w.va) (c.mreg w.mask)⟩))

/-- R257 to R261: V.CVT writes v[VD], and s[SD] at most; of the context it may also change the LFSR and the counters of R283. -/
def Obligations.ConvertResult : Prop :=
  ∀ (s : State) (p x cyc : Nat) (w : VWord), issues s p x cyc (.vec w) = true → w.cls = 11 → w.op = 0 →
    let c := pebCtx s p x cyc
    let r := vConvert w ⟨cvtSrc c w, {}, {}, c.vreg w.vd, c.mreg w.mask⟩ (if w.imm then pebExt s p x cyc else (c.sreg w.sd).bits.toNat)
      (if w.imm then some (pebExt s p x cyc) else none) c.lfsr
    Completes (.vCvt p x cyc) s (fun t => PebFrame s t p x cyc ∧
      let c' := t.dev.getPCtx (4 * p + x)
      c' = { c.past (.vec w) with
          v := c'.v, vReady := c'.vReady, s := c'.s, sReady := c'.sReady, lfsr := r.1.lfsr, satCount := satAdd 24 c.satCount r.1.cnt.sat
          nanCount := satAdd 24 c.nanCount r.1.cnt.nan, tritInvalid := satAdd 16 c.tritInvalid r.1.cnt.trit }
      ∧ (c'.vreg w.vd).bits = r.1.reg.bits ∧ (∀ j, j ≠ w.vd → c'.vreg j = c.vreg j)
      ∧ (∀ b, r.2 = some b → w.sd ≠ 0 → (c'.sreg w.sd).bits = BitVec.ofNat 64 b) ∧ (∀ j, j ≠ w.sd ∨ r.2 = none → c'.sreg j = c.sreg j))

/-- R250, R266 to R269: each memory instruction that issues puts one access, at its effective address modulo 8 MiB and aligned to 8 or 64 bytes, among
the claims of its cluster; no byte of memory and no register changes before the access is granted. -/
def Obligations.MemoryAccessIssue : Prop :=
  ∀ (s : State) (p x cyc : Nat) (w : PWord), issues s p x cyc w = true →
    let c := pebCtx s p x cyc
    let d := pebDev s p cyc
    let u := pebTime s p cyc
    let claims := fun (i : Instr) (a : MemAcc) => Completes i s (fun t =>
      t.pending = s.pending ∧ t.dev = settle { d with peb := t.dev.peb }
      ∧ t.dev.getCluster (p / 8) = { d.getCluster (p / 8) with pend := insertAcc a (d.getCluster (p / 8)).pend }
      ∧ (∀ k, k ≠ p / 8 → t.dev.getCluster k = d.getCluster k) ∧ (∀ k, k ≠ 4 * p + x → t.dev.getPCtx k = d.getPCtx k)
      ∧ (∀ k, k ≠ p → t.dev.getPebble k = d.getPebble k)
      ∧ t.dev.getPCtx (4 * p + x) = { c.past w with sReady := (t.dev.getPCtx (4 * p + x)).sReady, vReady := (t.dev.getPCtx (4 * p + x)).vReady }
      ∧ ∀ a, t.dev.mem.byte a = d.mem.byte a)
    (∀ i : SWord, w = .sca i → i.cls = 3 →
      let a := ((c.sreg i.sa).bits + BitVec.ofInt 64 (sgn 32 i.imm32)).toNat % 8388608
      let v := c.sreg i.sd
      (i.op = 0 → claims (.sLd p x cyc) ⟨4 * p + x, true, false, i.sd, a - a % 8, u, 0, false, 64, []⟩)
      ∧ (i.op = 1 → claims (.sSt p x cyc) ⟨4 * p + x, false, false, 0, a - a % 8, u, 0, false, 64,
          (natLe 8 v.bits.toNat).map (fun b => some ⟨b, v.poison⟩)⟩))
    ∧ (∀ i : VWord, w = .vec i → i.cls = 14 →
      let a := ((c.sreg i.sd).bits.toNat + unsgn 64 (sgn 32 (pebExt s p x cyc % 2 ^ 32))) % 8388608
      (i.op = 0 → claims (.vLd p x cyc) ⟨4 * p + x, true, true, i.vd, a - a % 64, u, c.mreg i.mask, i.mz, laneW i.type, []⟩)
      ∧ (i.op = 1 → claims (.vSt p x cyc) ⟨4 * p + x, false, true, 0, a - a % 64, u, 0, false, 8, storeBytes c i⟩))

/-- R241, R243, R266, R322, R327, R328, R334: what each instruction of S.SYNC that issues does: a wait registers and parks, SIGNAL and BARRIER act on the
cairns and the channel, a signal to the own tile entering port 1 of its cairn, FENCE parks while stores or streams are outstanding, END stops issue, NOP takes a slot only. -/
def Obligations.PebbleSyncResults : Prop :=
  ∀ (s : State) (p x cyc : Nat) (w : SWord), issues s p x cyc (.sca w) = true → w.cls = 4 →
    let c := pebCtx s p x cyc
    let d := pebDev s p cyc
    let u := pebTime s p cyc
    let tile := tileOfCluster (p / 8)
    let id := 4 * (p % 8) + x
    let after := fun (i : Instr) (c' : PCtx) => Completes i s (fun t => PebFrame s t p x cyc ∧ t.dev.getPCtx (4 * p + x) = c')
    let waits := fun (i : Instr) (observe : Bool) => Completes i s (fun t => t.pending = s.pending
      ∧ t.dev = settle { d with peb := t.dev.peb, cairn.waiters := insertWaiter ⟨tile, id, mapIndex (d.mapEntry tile id (fld w.imm32 0 10)),
          fld w.imm32 0 10, fld w.imm32 10 16, observe, d.ctxLimit tile id, 0, some u⟩ d.cairn.waiters }
      ∧ t.dev.getPCtx (4 * p + x) = { c.past (.sca w) with state := 2, park := 1 })
    (w.op = 0 → waits (.waitC p x cyc) false) ∧ (w.op = 1 → waits (.waitO p x cyc) true)
    ∧ (w.op = 2 → Gives (.sSignal p x cyc) s ((d.takeSlot p x u (.sca w)).raiseSignal tile id (fld w.imm32 0 10) (fld w.imm32 10 8) (u + 2)))
    ∧ (w.op = 2 → mapRemote (d.mapEntry tile id (fld w.imm32 0 10)) = false →
      16 * mapDie (d.mapEntry tile id (fld w.imm32 0 10)) + mapTile (d.mapEntry tile id (fld w.imm32 0 10)) = tile →
      Gives (.sSignal p x cyc) s { d.takeSlot p x u (.sca w) with cairn.ops := d.cairn.ops ++
        [⟨u + 2, tile, mapIndex (d.mapEntry tile id (fld w.imm32 0 10)), 1, id, 0, fld w.imm32 10 8,
          endpointOf d.fab.selfDevice (dieOfTile tile) (unitOfTile tile)⟩] })
    ∧ (w.op = 3 → Gives (.sBarrier p x cyc) s
        (((d.takeSlot p x u (.sca w)).modPCtx (4 * p + x) (fun c => { c with state := 2, park := 2 })).arrive tile id (fld w.imm32 0 4) (w.imm32.testBit 4) u))
    ∧ (w.op = 4 → after (.fence p x cyc) (if d.pebQuiet p x u then c.past (.sca w) else { c.past (.sca w) with state := 2, park := 3 }))
    ∧ (w.op = 5 → after (.sEnd p x cyc) { c.past (.sca w) with endIssued := true })
    ∧ (w.op = 6 → after (.sNop p x cyc) (c.past (.sca w)))

/-- R241, R243, R266, R270, R271: STREAM queues its descriptor with its effective addresses; a channel takes the next queued descriptor from the cycle
after its dispatch; a moved descriptor completes; FENCE ends once the context is quiet; a task finishes once its results are usable and nothing of it is
outstanding. -/
def Obligations.PebbleStreamAndTaskResults : Prop :=
  (∀ (s : State) (p x cyc : Nat) (w : SWord) (e : SDesc), issues s p x cyc (.sca w) = true → w.cls = 5 → w.op = 0 →
    ((pebDev s p cyc).getCluster (p / 8)).desc (w.imm32 % 256) = some e →
    ((pebDev s p cyc).getCluster (p / 8)).descErr.contains (w.imm32 % 256) = false →
    let c := pebCtx s p x cyc
    let d := pebDev s p cyc
    let ch := (d.getCluster (p / 8)).chan e.channel
    let j : StreamJob := ⟨4 * p + x, e, (e.cmemAddr + (c.sreg w.sa).bits.toNat) % 8388608, (e.dpa + (c.sreg w.sb).bits.toNat) % 2 ^ 64,
      pebTime s p cyc, none, 0, none, []⟩
    Completes (.stream p x cyc) s (fun t => t.pending = s.pending ∧ t.dev = settle { d with peb := t.dev.peb }
      ∧ t.dev.getCluster (p / 8) = (d.getCluster (p / 8)).setChan e.channel { ch with queue := ch.queue ++ [j] }
      ∧ t.dev.getPCtx (4 * p + x) = { c.past (.sca w) with streams := c.streams + 1 }))
  ∧ (∀ (s : State) (p x cyc : Nat), pebRuns s p cyc = true →
    let c := pebCtx s p x cyc
    let d := pebDev s p cyc
    (c.state = 2 → c.park = 3 → d.pebQuiet p x (pebTime s p cyc) = true →
      Gives (.fenceSatisfied p x cyc) s (d.modPCtx (4 * p + x) (fun c => { c with state := 1, park := 0, wake := pebTime s p cyc + 2 })))
    ∧ (c.bound = true → c.state = 1 → c.endIssued = true → c.ended = false → c.settled (pebTime s p cyc) = true →
      d.pebQuiet p x (pebTime s p cyc) = true → d.signalsOpen (tileOfCluster (p / 8)) (4 * (p % 8) + x) (pebTime s p cyc) = false →
      Gives (.pebbleTaskFinish p x cyc) s ((d.modPCtx (4 * p + x) (fun c => { c with state := 0, ended := true })).endIfDone
        (d.holderNo (halfOfUnit (p / 8))))))
  ∧ (∀ (s : State) (k ch cyc : Nat) (j : StreamJob), Live s → s.dev.working (halfOfUnit k) cyc = true →
    (s.dev.getCluster k).cur ≤ s.dev.now (halfOfUnit k) cyc →
    let u := s.dev.now (halfOfUnit k) cyc
    let d := s.dev.fresh.clusterRun k u
    let q := (d.getCluster k).chan ch
    (∀ rest, ch < 2 → q.run = none → q.queue = j :: rest → j.at_ < u → q.free ≤ u →
      Gives (.streamDescStart k ch cyc) s (d.modCluster k (fun c => c.setChan ch { q with run := some { j with started := some u }, queue := rest })))
    ∧ (ch = 2 → ∀ rest, q.run = none → q.queue = j :: rest → j.at_ < u → q.free ≤ u →
      Gives (.streamDescStart k ch cyc) s ((d.modCluster k (fun c =>
        c.setChan 2 { q with run := some { j with started := some u }, queue := rest })).streamSend k cyc { j with started := some u }))
    ∧ (q.run = some j → (if ch = 2 then j.tags = [] else ∃ v, j.done = some v ∧ v ≤ u) → j.desc.sigEn = false →
      Gives (.streamDescComplete k ch cyc) s ((d.modCluster k (fun c => c.setChan ch { q with run := none, free := u })).modPCtx j.ctx
        (fun c => { c with streams := c.streams - 1 })))
    ∧ (q.run = some j → (if ch = 2 then j.tags = [] else ∃ v, j.done = some v ∧ v ≤ u) → j.desc.sigEn = true → d.streamRides k j = none →
      Gives (.streamDescComplete k ch cyc) s (((d.modCluster k (fun c => c.setChan ch { q with run := none, free := u })).modPCtx j.ctx
        (fun c => { c with streams := c.streams - 1 })).raiseSignal (tileOfCluster k) (j.ctx % 32) j.desc.sigCairn j.desc.sigInc (u + 1))))

/-- R203, R204, R216, R334: what each command that needs no engine does when it dispatches: the next command becomes the head, its own effect on the
context takes place, and its signal applies in the next cycle. -/
def Obligations.SlabPlainCommandResults : Prop :=
  ∀ (s : State) (k x cyc : Nat) (h : SlabCmd), dispatches s k x cyc h = true →
    let u := slabTime s k cyc
    let d := slabDev s k cyc
    let c := slabCtx s k x cyc
    let key := 2 * k + x
    let next := d.dispatchSlab key u
    (h.op = .sync → Gives (.sync k x cyc) s (next.cmdSignal key h.at_ u))
    ∧ (h.op = .nop → Gives (.nop k x cyc) s (next.cmdSignal key h.at_ u))
    ∧ (∀ r v st, h.op = .base r v st → Gives (.base k x cyc) s ((next.modSCtx key (fun c =>
        { c with baseVal := tabSet 0 r v c.baseVal, baseStride := tabSet 0 r st c.baseStride })).cmdSignal key h.at_ u))
    ∧ (∀ n body mask, h.op = .loop n body mask → Gives (.loop k x cyc) s ((next.modSCtx key (fun c =>
        { c with loops := ⟨c.pc, c.pc + body - 1, n, mask⟩ :: c.loops })).cmdSignal key h.at_ u))
    ∧ (∀ ch rebase, h.op = .barrier ch rebase → c.arrived = false → Gives (.barrier k x cyc) s
        ((d.modSCtx key (fun c => { c with arrived := true })).arrive (tileOfSlab k) x ch rebase u))
    ∧ (h.op = .finish → Gives (.slabEnd k x cyc) s ((d.modSCtx key (fun c => { c with ended := true, lastDispatch := some u })).cmdSignal key h.at_ u))

/-- R106 to R108, R134, R194, R213, R203, R227: what each engine command does when it issues: a pass starts the stream of its operands and counts, a
Streak command and a drain take their unit, and DMA queues its descriptor with its effective addresses. -/
def Obligations.SlabEngineIssueResults : Prop :=
  ∀ (s : State) (k x cyc : Nat) (h : SlabCmd), dispatches s k x cyc h = true →
    let u := slabTime s k cyc
    let d := slabDev s k cyc
    let c := slabCtx s k x cyc
    let key := 2 * k + x
    (∀ p sel, h.op = .pass p → (d.getSlab k).seq.selected = some sel → d.passMay k x u (p.resolve c) sel = true →
      Gives (.pass k x cyc) s (d.passIssue k x u (p.resolve c) h.at_ sel)
      ∧ ((d.passIssue k x u (p.resolve c) h.at_ sel).getSlab k).seq.active = some ⟨x, u, (p.resolve c).dur, tileK p.tile⟩
      ∧ ((d.passIssue k x u (p.resolve c) h.at_ sel).getSlab k).regs.passes = (d.getSlab k).regs.passes + 1)
    ∧ (∀ o, h.op = .streak o → (d.selectStreak k u).streakMay k x u (o.resolve c) = true →
      Gives (.streak k x cyc) s ((d.selectStreak k u).streakIssue k x u (o.resolve c) h.at_))
    ∧ (∀ o, h.op = .drain o → d.drainCan k x u = true → ((d.getSlab k).seq.lastDrain ≠ x ∨ d.drainCan k (1 - x) u = false) →
      Gives (.drain k x cyc) s (d.drainIssue k x u (o.resolve c) h.at_))
    ∧ (∀ i src dst ssrc e, h.op = .dma i src dst ssrc → c.codeErr.contains (descErrKey i) = false → (c.descs[i]?).bind decodeDesc = some e →
      (d.getSlab k).seq.queued x < 16 → Gives (.dma k x cyc) s ((d.modSlab k (fun s =>
        { s with seq.dmaQ := s.seq.dmaQ ++ [⟨x, e.resolve c src dst ssrc, h.at_, u, none, none, [], []⟩] })).dispatchSlab key u))

/-- R196, R204, R224, R227: completions and free units of a slab at their cycles. -/
def Obligations.SlabCompletionResults : Prop :=
  ∀ (s : State) (k x cyc : Nat), slabRuns s k cyc = true →
    let u := slabTime s k cyc
    let d := slabRun s k cyc
    let key := 2 * k + x
    let ends := fun (i : Instr) (kind : Nat) => ∀ f, (d.getSlab k).seq.inflight.find? (fun f => f.x == x && f.kind == kind && decide (f.done ≤ u)) = some f →
      Gives i s ((d.modSlab k (fun s => { s with seq.inflight := s.seq.inflight.erase f })).cmdSignal key f.at_ u)
    ends (.passComplete k x cyc) 0 ∧ ends (.streakComplete k x cyc) 1 ∧ ends (.drainComplete k x cyc) 2
    ∧ Gives (.streakUnitFree k cyc) s (d.selectStreak k u)
    ∧ (∀ ch j, (d.getSlab k).seq.nextDesc (ch == 1) = some j → (d.getSlab k).seq.mayStart (ch == 1) u j = true → j.desc.src ≠ 2 →
      Gives (.dmaDescStart k ch cyc) s (d.modSlab k (fun s => { s with seq := { s.seq with
        dmaQ := s.seq.dmaQ.erase j, dmaRun := s.seq.dmaRun ++ [{ j with started := some u, got := [] }]
        lastMem := if ch == 1 then s.seq.lastMem else j.x, lastMesh := if ch == 1 then j.x else s.seq.lastMesh } })))
    ∧ (∀ ch j, (d.getSlab k).seq.dmaRun.find? (fun j => j.finished (ch == 1) u) = some j → j.desc.kind ≠ 3 →
      Gives (.dmaDescComplete k ch cyc) s ((d.modSlab k (fun s => { s with
        mem := j.desc.fill j.got s.mem, seq.dmaRun := s.seq.dmaRun.erase j, seq.meshFree := if ch == 1 then u else s.seq.meshFree })).cmdSignal
          (2 * k + j.x) j.at_ u))
    ∧ (let e := slabDev s k cyc
      let c := e.getSCtx key
      c.bound = true → c.ended = true → c.endDone = false → c.stopped = false → (e.getSlab k).allDone x = true →
      e.signalsOpen (tileOfSlab k) x u = false →
      Gives (.slabTaskFinish k x cyc) s ((e.modSCtx key (fun c => { c with endDone := true })).endIfDone (e.holderNo (halfOfUnit k))))

/-- R77 to R79, R301, R302, R513 to R515: a slot entry that fires on the job beat of its half's holder and covers the cycle moves its lanes, after its tile's
own unit has worked up to the cycle; a scheduled HBM read issues 128 + 8 FREQ cycles before the delivery, and what it read waits for that cycle. At a window
of 64 job cycles a slab that streamed takes G0 and G from its streamed cycles; one that did not moves its level. -/
def Obligations.MeshAndGravelResults : Prop :=
  (∀ (s : State) (tile entry cyc n : Nat), Live s → s.found.holder (tHalf tile) = some n →
      let d := s.found
      let half := tHalf tile
      let e := (tabGet 0 (entryKey tile entry) d.mesh.slots).toNat
      let job := (d.getPart n).job
      let lead := cyc + hbmLead (d.getHalf half).freq
      let len := beatCycles (d.getHalf half).freq
      (d.working half cyc = true → eFires e job.jobBeat = true → eCovers e cyc = true →
        Gives (.slotEntryFire tile entry cyc) s (((d.runTile tile (d.now half cyc)).moveLanes tile entry e cyc (d.now half cyc)).afterCycle tile entry e cyc
          (d.now half cyc)))
      ∧ ((d.getPart n).running = true → d.working half cyc = true → cyc < len → lead < len → job.waitStart = false → tCol tile = 0 → eIn e = 0 →
        eFires e job.jobBeat = true → eCovers e lead = true →
        let m := (eLanePairs tile e).length
        let c := d.cursor tile entry
        let r := d.hbmPieces tile (cursorDpa tile (c.base + c.pos + (lead - eStart e) * m * 64)) m
        Completes (.hbmScheduledRead tile entry cyc) s (fun t =>
          t.dev.mesh.prefetch = tabSet [] (entryKey tile entry) (tabGet [] (entryKey tile entry) d.mesh.prefetch ++ [⟨d.now half lead, r.1⟩]) d.mesh.prefetch
          ∧ t.dev.mesh.cursors = d.mesh.cursors ∧ t.dev.mesh.slots = d.mesh.slots)))
  ∧ (∀ (s : State) (slab cyc : Nat), Live s →
      let d := s.found
      let u := d.now (halfOfUnit slab) cyc
      let r := (d.getSlab slab).regs
      let n := streamedIn u (d.getSlab slab).pow.activity
      r.gravelEn = true → u % 64 = 0 → 0 < u → cyc < d.cyclesOf (halfOfUnit slab) →
      (0 < n → Completes (.gravelWindow slab cyc) s (fun t =>
        (t.dev.getSlab slab).regs.gravelG0 = n / 4 ∧ (t.dev.getSlab slab).regs.gravelG = n / 4 ∧ ∀ k, k ≠ slab → t.dev.getSlab k = s.dev.getSlab k))
      ∧ (n = 0 → (d.getSlab slab).pow.gravelAt + 64 * (d.gravelPace (halfOfUnit slab)).2 ≤ u → Completes (.gravelWindow slab cyc) s (fun t =>
        (t.dev.getSlab slab).regs.gravelG = d.gravelNext slab cyc ∧ (t.dev.getSlab slab).regs.gravelOn = decide (0 < d.gravelNext slab cyc)
        ∧ (t.dev.getSlab slab).regs.gravelG0 = r.gravelG0)))

/-- R325, R326, R332, R335, R336, R340 to R342: a wait or an acknowledgement that reaches its limit is counted as lost: the flags of the tile, the event, and
the context's stop; no cairn changes. The members of a complete barrier round are released at their cycle, and with the last of them the channel goes
on to the next; a lockstep round that is late
sets LATE_SEEN, and a round whose timer ran out sets TIMEOUT_SEEN and DEAD. -/
def Obligations.CairnAndBarrierResults : Prop :=
  (∀ (s : State), Live s →
      (∀ tile id w, let d := s.found.cairnFlush (halfOfTile tile) (s.found.now (halfOfTile tile) 0 + 1)
        d.cairn.waiters.find? (fun w => w.tile == tile && w.id == id) = some w → w.limit ≤ w.elapsed →
        Completes (.cairnWaitTimeout tile id) s (fun t => (t.dev.getCairnTile tile).timeoutSeen = true
          ∧ t.dev.cairn.values = d.cairn.values
          ∧ (isSlabTile tile = true → (t.dev.getSCtx (2 * keyOfTile tile + id)).stopped = true ∧ (t.dev.getSlab (keyOfTile tile)).regs.stopCause = 3)))
      ∧ (∀ tag o, s.dev.cairn.signals.find? (fun o => o.tag == tag) = some o → o.limit ≤ o.elapsed →
        Completes (.signalAckTimeout tag) s (fun t => (t.dev.getCairnTile o.tile).signalLost = true ∧ t.dev.cairn.waiters = s.dev.cairn.waiters
          ∧ ∀ q ∈ t.dev.cairn.signals, q.tag ≠ tag)))
  ∧ (∀ (s : State) (die ch : Nat), Live s →
      let d := s.found
      let key := 16 * die + ch
      let c := d.getChan key
      (∀ cyc, let u := d.now (d.chanHalf die ch) cyc
        let go := d.dueNow die ch u
        go ≠ [] → c.dead = false →
        Completes (.barrierRoundRelease die ch cyc) s (fun t =>
          (t.dev.getChan key).round = (if go.length = (d.openArrivals die ch).length then c.round + 1 else c.round)
          ∧ t.dev.cairn.values = s.dev.cairn.values ∧ ∀ k, k ≠ key → t.dev.getChan k = s.dev.getChan k))
      ∧ (d.lockChan die ch = true → 0 < d.releaseBeats die ch → d.doneBefore die ch = false →
        (∃ a ∈ d.openArrivals die ch, a.beat + d.releaseBeats die ch ≤ d.chanBeat die ch) →
        Gives (.barrierLate die ch) s (((d.barrierEv die ch 2).modChan key (fun c => { c with lateSeen := true })).stopPartition c.partition 6))
      ∧ (c.dead = false → d.roundDone die ch = false → (∃ x ∈ c.timer, x.1 = c.round ∧ d.chanLimit die ch ≤ x.2) →
        Completes (.barrierTimeout die ch) s (fun t => (t.dev.getChan key).dead = true ∧ (t.dev.getChan key).timeoutSeen = true
          ∧ (t.dev.getChan key).round = c.round)))

/-- R42, R49 to R54, R64: a valid header on a listening port of a follower is used by its state. While ALIGNING, after 64 good headers, the parent's next
one gives the number, if it is above the high-water mark; while LOCKED the parent's gives the master's data, and an error within 3 ns keeps the lock. -/
def Obligations.BeatHeaderResults : Prop :=
  ∀ (s : State) (port : Nat) (payload : List Byte) (err : Int) (h : Header), Live s → readHeader payload = some h →
    let d := s.found
    d.beat.role = 2 → d.portListens port = true → d.headerValid port h = true → (d.getBPort port).gotThis = false →
    (d.beat.state = bsSearching → Gives (.beatHeaderReceive port payload true err) s (d.searchHeader port h err))
    ∧ (d.beat.state = bsAligning → port = d.beat.parentPort → d.aux.alignGood = 64 → d.beat.highWater < h.number →
      Completes (.beatHeaderReceive port payload true err) s (fun t => t.dev.beat.state = bsLocked ∧ t.dev.beat.number = h.number
        ∧ t.dev.beat.highWater = h.number ∧ t.dev.beat.configGen = h.gen ∧ t.dev.beat.fwdHoldCap = h.cap))
    ∧ (d.beat.state = bsLocked → port = d.beat.parentPort → err.natAbs ≤ 192 → h.hop ≤ 15 →
      Completes (.beatHeaderReceive port payload true err) s (fun t => t.dev.beat.state = bsLocked ∧ t.dev.beat.number = d.beat.number
        ∧ t.dev.beat.hop = h.hop + 1 ∧ t.dev.aux.missing = 0 ∧ (t.dev.getBPort port).expected = some h.number))
    ∧ (d.beat.state = bsLocked → port ≠ d.beat.parentPort →
      Completes (.beatHeaderReceive port payload true err) s (fun t => t.dev.beat = { d.beat with ports := t.dev.beat.ports, highWater := t.dev.beat.highWater }
        ∧ (t.dev.getBPort port).gotThis = true))

/-- R47, R51 to R54, R58, R62: what the beat's own commands do where their conditions hold: an alignment step of one fine-phase step, the loss of the
beat, a new parent, the end and the restart of a join, a master conflict, a BEAT_IN edge and its absence. -/
def Obligations.BeatCommandResults : Prop :=
  ∀ (s : State), Live s →
    let d := s.found
    let sum := d.aux.alignErrs.foldl (· + ·) 0
    (d.beat.state = bsLocked → d.aux.alignErrs.length = 16 → 512 < sum.natAbs → 64 ≤ d.clock.wall - d.aux.alignWait →
      Completes .alignStep s (fun t => t.dev.aux.edgePhase = d.aux.edgePhase + (if 0 < sum then 1 else -1) ∧ t.dev.aux.alignErrs = []
        ∧ t.dev.beat.number = d.beat.number))
    ∧ (d.beat.role = 2 → d.beat.state = bsLocked → 4 ≤ d.aux.missing + b2n (!d.heardBeat) →
      Completes .headersMissingCount s (fun t => t.dev.beat.state = bsLost ∧ t.dev.beat.lossCause = 1 ∧ t.dev.beat.lossSeen = true
        ∧ t.dev.beat.number = d.beat.number))
    ∧ (∀ n, d.beat.state = bsLocked → 2 ≤ (d.getBPort d.beat.parentPort).misses + b2n (!(d.getBPort d.beat.parentPort).gotThis) →
      d.chooseParent (some d.beat.parentPort) = some n → Completes .parentSwitch s (fun t => t.dev.aux.parentNext = some n ∧ t.dev.beat = (settle d).beat))
    ∧ (d.beat.role = 2 → d.beat.state = bsAligning → 1024 ≤ d.clock.wall - d.aux.joinSince →
      Completes .joinTimeout s (fun t => t.dev.beat.state = bsLost ∧ t.dev.beat.lossCause = d.joinCause ∧ t.dev.aux.lostByJoin = true))
    ∧ (d.beat.role = 2 → d.beat.state = bsLost → d.aux.lostByJoin = true → 1024 ≤ d.clock.wall - d.aux.lossSince →
      Completes .joinRestart s (fun t => t.dev.beat.state = bsSearching ∧ t.dev.beat.ports = [] ∧ t.dev.aux.joinSince = d.clock.wall))
    ∧ (d.beat.state = bsSearching → d.aux.conflictRaised = false → 4 ≤ d.aux.conflictBeats + b2n d.aux.conflictNow →
      Completes .masterConflictExpiry s (fun t => t.dev.beat.state = bsSearching ∧ t.dev.beat.lossCause = 3 ∧ t.dev.beat.lossSeen = true))
    ∧ (∀ offset, d.beat.role = 1 → d.beat.source = 1 → offset.natAbs ≤ 128 → d.followsIn = true →
      Completes (.beatInEdge offset) s (fun t => t.dev.aux.edgePhase = d.aux.edgePhase + gridSteps offset
        ∧ t.dev.aux.beatInIgnored = 0 ∧ t.dev.aux.beatInGood = d.aux.beatInGood + 1 ∧ t.dev.beat = (settle d).beat))
    ∧ (d.beat.role = 1 → d.beat.source = 1 → d.beat.state = bsMaster →
      Completes .beatInMissing s (fun t => t.dev.aux.beatInIgnored = d.aux.beatInIgnored + 1 ∧ t.dev.aux.beatInGood = 0
        ∧ (d.aux.beatInIgnored = 3 → t.dev.beat.beatInOk = false ∧ t.dev.beat.lossCause = 5)))

/-- R58, R59, R506: the master takes the request of a HOLD packet in place of the sender's earlier one, and N = 0 cancels it; a device whose level calls for
holds asks for them. -/
def Obligations.HoldRequestResults : Prop :=
  ∀ (s : State), Live s →
    let d := s.found
    (∀ p : Packet, p.kind = 5 → d.beat.state = bsMaster →
      let device := leAt p.payload 0 2
      let n := leAt p.payload 2 1
      Completes (.hold p) s (fun t => t.dev.beat.number = d.beat.number
        ∧ (n = 0 → ∀ r ∈ t.dev.beat.requests, r.device ≠ device)
        ∧ (n ≠ 0 → ∃ r ∈ t.dev.beat.requests, r.device = device ∧ r.n = n ∧ r.s = leAt p.payload 3 1 % 16
          ∧ ∀ q ∈ t.dev.beat.requests, q.device = device → q = r)
        ∧ ∀ r, r.device ≠ device → (r ∈ t.dev.beat.requests ↔ r ∈ d.beat.requests)))
    ∧ (0 < d.pow.hold → let k := 16 / d.pow.hold - 1
      Gives .holdRequestTimer s (d.askHolds (cdiv 148 (k + 1)) k))

/-- R35, R43, R56: a beat edge of a running device ends the beat of its halves and begins the next; a device held in reset or without power only counts
the time. -/
def Obligations.BeatEdgeCompletes : Prop :=
  ∀ (s : State) (slips : List Nat),
    (Live s → Gives (.beatEdge slips) s (s.found.liveEdge slips))
    ∧ (s.dev.boot.phase.live = false → Completes (.beatEdge slips) s (fun t => t.dev.clock.wall = s.dev.clock.wall + 1
      ∧ t.dev.boot = s.dev.boot ∧ t.dev.mem = s.dev.mem ∧ t.dev.beat.number = s.dev.beat.number))

/-- R33, R35, R46, R61: what a beat edge makes of the beat number: a counting device adds one, a master that is due starts at its number, and the hold
count rises on a held beat alone. -/
def Obligations.BeatNumberAtEdge : Prop :=
  ∀ (d : Dev),
    (d.aux.startPending = none → d.inBeat = true → d.beatLogic.beat.number = wrapAdd 56 d.beat.number 1)
    ∧ (d.aux.startPending = none → d.inBeat = false → d.beatLogic.beat.number = d.beat.number ∧ d.beatLogic.beat.holdCount = d.beat.holdCount)
    ∧ (∀ n, d.aux.startPending = some n → d.beat.source = 0 ∨ 16 ≤ d.aux.beatInGood →
      d.beatLogic.beat.number = n ∧ d.beatLogic.beat.state = bsMaster ∧ d.beatLogic.beat.hop = 0 ∧ d.beatLogic.aux.startPending = none)

/-- R89, R233, R499: a frequency change that waits begins at its edge with the Seam CHANGING, and ends 14 beats later in MESO or ASYNC by the two
frequencies; a point of the image takes effect in its job beat. -/
def Obligations.FrequencyChangeResults : Prop :=
  ∀ (s : State), Live s →
    let d := s.found
    (∀ die r rest, (d.getSeam die).current = none → (d.getSeam die).queue = r :: rest →
      (d.getSeam die).changes = 0 ∨ (d.getSeam die).changeAt + 14 < d.clock.wall →
      Completes (.seamChangeStart die) s (fun t => t.dev.getSeam die =
          { d.getSeam die with current := some r, queue := rest, mode := 2, changeAt := d.clock.wall }
        ∧ (∀ k, k ≠ die → t.dev.getSeam k = d.getSeam k) ∧ ∀ h, t.dev.getHalf h = d.getHalf h))
    ∧ (∀ die, (d.getSeam die).current.isSome = true → (d.getSeam die).changeAt + 14 ≤ d.clock.wall →
      Completes (.seamChangeEnd die) s (fun t =>
        (t.dev.getSeam die).mode = (if (d.getHalf (2 * die)).freq = (d.getHalf (2 * die + 1)).freq then 0 else 1)
        ∧ (t.dev.getSeam die).changes = wrapAdd 16 (d.getSeam die).changes 1 ∧ (t.dev.getSeam die).current = none
        ∧ (∀ k, k ≠ die → t.dev.getSeam k = d.getSeam k) ∧ ∀ h, t.dev.getHalf h = d.getHalf h))
    ∧ (∀ n i k, (d.getPart n).image = some i → i.pointAt (d.getPart n).job.jobBeat = some k → (d.getPart n).running = true →
      (d.getPart n).job.waitStart = false → (d.getPart n).job.oppIndex ≠ k →
      let e := d.modPart n (fun p => { p with job.oppIndex := k })
      let f := (e.pointNow n).freq
      Gives (.oppointChange n) s (if (e.halvesToMove n f).isEmpty then e.offsetEdge n else e.askFrequency n f))

/-- R33, R523, R526 to R528, R551, R565, R594, R603, R604: what a whole reset, RESET_N and a loss of power leave: the phase, the pins, empty memory, and the
high-water mark where R33 keeps it. PWR_FAIL_N stops a ready device's jobs with cause FAULT at the next edge and its flash writes, and it ends a boot; its
return changes the pin alone. -/
def Obligations.WholeResetResults : Prop :=
  (∀ (s : State),
      let d := s.found
      let clean := fun (t : State) => t.dev.mem = Dev.reset.mem ∧ t.dev.parts = Dev.reset.parts ∧ t.dev.slab = Dev.reset.slab ∧ t.dev.peb = Dev.reset.peb
        ∧ t.dev.cairn = Dev.reset.cairn ∧ t.dev.links = Dev.reset.links ∧ t.dev.beat.number = 0 ∧ t.dev.fuses = s.dev.fuses ∧ t.pending = s.pending
      (Live s → d.bed.ready = true → d.d2dDown = true → Completes (.selfReset 3) s (fun t => clean t ∧ t.dev.boot.phase = .selfReset
        ∧ t.dev.boot.record.cause = 3 ∧ t.dev.beat.highWater = s.dev.beat.highWater ∧ t.dev.pins.addrStrap = s.dev.pins.addrPins))
      ∧ (d.boot.phase = .selfReset → d.due d.boot.since 1000000 = true → Completes .selfResetHoldEnd s (fun t =>
        t.dev.boot.phase = .stage 0 ∧ t.dev.boot.since = d.clock.wall))
      ∧ (d.boot.phase ≠ .noPower → Completes .resetNAssert s (fun t => clean t ∧ t.dev.boot.phase = .heldReset ∧ t.dev.pins.resetN = false
        ∧ t.dev.pins.resetActed = true ∧ t.dev.beat.highWater = s.dev.beat.highWater ∧ t.dev.therm.tripped = s.dev.therm.tripped))
      ∧ (∀ ns, d.pins.resetN = false → d.pins.resetActed = true → 10000 ≤ ns → Completes (.resetNRelease ns none) s (fun t => clean t
        ∧ t.dev.boot.phase = .stage 0 ∧ t.dev.pins.resetN = true ∧ t.dev.pins.thermTripN = true ∧ t.dev.beat.highWater = 0
        ∧ t.dev.boot.record.cause = (if d.boot.phase = .noPower then 0 else 1) ∧ t.dev.boot.record.attempt = 1))
      ∧ (d.pins.resetWait = true → d.pins.resetN = true → Completes .resetNHoldExpiry s (fun t => clean t ∧ t.dev.boot.phase = .stage 0
        ∧ t.dev.pins.resetWait = false))
      ∧ Completes .powerLoss s (fun t => clean t ∧ t.dev.boot.phase = .noPower ∧ t.dev.pins.resetN = false ∧ t.dev.beat.highWater = 0))
  ∧ (∀ (s : State),
      let d := s.found
      let stopped : Dev := { d with pins.pwrFailN := false, pins.stopped := true, flash.writesOff := true }
      (d.boot.phase = .ready → Gives .pwrFailAssert s (stopped.stopAllJobs 3))
      ∧ (∀ n, d.boot.phase = .stage n → Gives .pwrFailAssert s (stopped.enter .powerFail))
      ∧ (d.boot.phase = .noPower ∨ d.boot.phase = .heldReset → Gives .pwrFailAssert s { d with pins.pwrFailN := false })
      ∧ Gives .pwrFailDeassert s { d with pins.pwrFailN := true })

/-- R530 to R547: each boot stage that ends well begins the next, records its duration, and leaves what its rule gives; stage 6 leaves the device Ready. -/
def Obligations.BootStageResults : Prop :=
  ∀ (s : State) (ms : Nat),
    let d := s.found
    let begun := fun (n : Nat) (t : State) => t.dev.boot.phase = .stage n ∧ t.dev.boot.since = d.clock.wall ∧ t.dev.boot.record.lastStage = n
      ∧ t.dev.fuses = d.fuses
    (∀ days tj, d.boot.phase = .stage 0 → Completes (.stageAlwaysOnDone ms true true days tj) s (fun t => begun 1 t ∧ t.dev.therm.tj = tj
      ∧ t.dev.boot.fast = d.fastNow days tj ∧ t.dev.bed.owned = d.ownedNow))
    ∧ (d.boot.phase = .stage 1 → Completes (.stageFirmwareDone ms) s (fun t =>
      (∀ b, d.bootBank = some b → begun 2 t ∧ t.dev.bed.activeBank = b ∧ t.dev.boot.record.activeBank = b)
      ∧ (d.bootBank = none → d.boot.record.attempt < 2 → t.dev.boot.phase = .selfReset ∧ t.dev.boot.record.cause = 4)))
    ∧ (d.boot.phase = .stage 2 → Completes (.stageDiesDone ms [some 0, some 1, some 2, some 3] []) s (fun t => begun 3 t
      ∧ t.dev.bed.standbyOk = d.standbyFits))
    ∧ (∀ full faults, d.boot.phase = .stage 3 → (∀ f ∈ faults, f.kind ≠ .essential) → Completes (.stageBistDone ms full faults) s (fun t => begun 4 t
      ∧ t.dev.mem = d.mem))
    ∧ (∀ full, d.boot.phase = .stage 4 → Completes (.stageHbmDone ms full []) s (begun 5))
    ∧ (∀ full, d.boot.phase = .stage 5 → d.d2dActive = true → Completes (.stageSerdesDone ms full []) s (begun 6))
    ∧ (d.boot.phase = .stage 6 → Completes (.stageConfigDone ms) s (fun t => t.dev.boot.phase = .ready ∧ t.dev.bed.ready = true
      ∧ t.dev.boot.record.result = 0 ∧ t.dev.caps.generation = 1))

/-- R530, R531: a stage that reaches its deadline ends with its failure: a second attempt after a self-initiated whole reset; stages 4 and 6 go on. -/
def Obligations.BootDeadlineResults : Prop :=
  ∀ (s : State) (n : Nat),
    let d := s.found
    d.boot.phase = .stage n → d.due d.boot.since (1000000 * stageLimit n) = true →
    (n ≤ 3 → d.boot.record.attempt < 2 → Completes .bootStageDeadline s (fun t => t.dev.boot.phase = .selfReset ∧ t.dev.boot.record.cause = 4
      ∧ t.dev.boot.record.attempt = 2 ∧ (t.dev.boot.records.head?.map (·.result)) = some ([1, 3, 4, 6].getD n 0)))
    ∧ (n = 2 → 2 ≤ d.boot.record.attempt → Completes .bootStageDeadline s (fun t => t.dev.boot.phase = .bootFailed))
    ∧ (n = 4 → Completes .bootStageDeadline s (fun t => t.dev.boot.phase = .stage 5))
    ∧ (n = 6 → Completes .bootStageDeadline s (fun t => t.dev.boot.phase = .ready))

/-- R307, R323, R328, R331, R353, R366, R369, R372 to R374: what a packet does where it is delivered: a WRITE writes its bytes, raises its signal in the
cycle after and is acknowledged; a READ is answered with what it read; DATA and ACK end the request they answer; a SIGNAL applies on port 2; a REDUCE at
its DEST is written. -/
def Obligations.DeliveryResults : Prop :=
  ∀ (s : State) (router cyc : Nat) (p : Packet), Live s → routerOf p.dest = router → formatOk p = true →
    let d := s.found
    let u := d.now (halfOfRouter router) cyc
    let a := d.takeLocal router cyc p
    (p.kind = 0 → d.hbmWaits (pAddr p) = false → d.fwdPacket p = false →
      let w := a.writeMem (pAddr p) (pData p) .other
      Gives (.write router cyc p) s ((((if pSig p then w.signalAt p (u + 1) else w).spread router cyc p).answerOk router cyc p 0 []).pumpLinks))
    ∧ (p.kind = 1 → d.hbmWaits (pAddr p) = false →
      let r := a.readMem (pAddr p) (pBytes p)
      Gives (.read router cyc p) s ((r.2.answerOk router cyc p 0 r.1).pumpLinks))
    ∧ (∀ r, p.kind = 2 → a.requestOf p = some r → Gives (.data router cyc p) s ((a.answered r (pData p) false).pumpLinks))
    ∧ (∀ r, p.kind = 3 → a.requestOf p = some r → Gives (.ack router cyc p) s (((a.answered r [] false).forwardWrites cyc).pumpLinks))
    ∧ (p.kind = 2 → a.requestOf p = none → Gives (.data router cyc p) s
      ((a.modDrop router (fun c => { c with late := satAdd 16 c.late 1 })).pumpLinks))
    ∧ (∀ c, p.kind = 4 → cairnOfUnit (epUnit p.dest) = some c →
      let st := if (d.cairnOwner (16 * epDie p.dest + c) (pSigIndex p)).isSome then 0 else 2
      Gives (.signal router cyc p) s ((((a.routedSignal (16 * epDie p.dest + c) (pSigIndex p) (pInc p) p.src u).spread router cyc p).answerOk router cyc p
        st []).pumpLinks))
    ∧ (p.kind = 6 → d.nodeSlot router p = none → d.hbmWaits (pAddr p) = false →
      Gives (.reduce router cyc p) s (((a.writeMem (pAddr p) (pData p) .other).answerOk router cyc p 0 []).pumpLinks))

/-- R372 to R374: a REDUCE that fills its slot at a node waits there while a slot is empty, and the last one sends the sum of the slots onward. -/
def Obligations.ReductionNodeResults : Prop :=
  ∀ (s : State) (router cyc : Nat) (p : Packet) (i k : Nat), Live s → s.found.nodeSlot router p = some (i, k) → formatOk p = true →
    let d := s.found
    let hub := hubKey router
    let a := d.takeLocal router cyc p
    let mine := d.fab.nodes.filter (fun n => n.hub == hub && n.entry == i)
    let old := (mine.find? (fun n => n.tag == pTag p)).getD ⟨hub, i, pGroup p, pTag p, p.part, d.clock.wall, []⟩
    let node : RedNode := { old with slots := tabInsert k p old.slots }
    let slots := node.slots.map (fun x => x.2)
    let others := a.fab.nodes.filter (fun n => !(n.hub == hub && n.entry == i && n.tag == pTag p))
    d.fab.closedTags.contains (hub, pGroup p, pTag p) = false →
    (mine.filter (fun n => n.tag != pTag p && n.slots.any (fun s => s.1 == k))).length < 2 →
    (node.slots.length < a.reduceSlots hub i → Gives (.reduce router cyc p) s (({ a with fab.nodes := others ++ [node] } : Dev).pumpLinks))
    ∧ (a.reduceSlots hub i ≤ node.slots.length → redMismatch slots = false →
      Gives (.reduce router cyc p) s ((({ a with fab.nodes := others } : Dev).nodeSend router cyc node (redSum slots)).pumpLinks))

/-- R355, R360, R361, R367, R374: how a packet goes on in the plane, by lookup or by the escape route, and what a request or a reduction TAG does that
times out. -/
def Obligations.RoutedPlaneResults : Prop :=
  ∀ (s : State), Live s →
    let d := s.found
    (∀ router port cyc p q, d.upstream router port p = some q → q.outPort = atInput →
      Gives (.routedPacketArrive router port cyc p) s (({ d with fab.queue := d.fab.queue.erase q }.arrivePkt router port cyc p).pumpLinks))
    ∧ (∀ router port cyc p q, d.upstream router port p = some q → q.outPort ≠ atInput →
      d.nextOf q.router q.outPort (fun v => decide (d.bufferUse router port v < 8)) = some q → d.seamOpen q.router q.outPort = true →
      Gives (.routedPacketArrive router port cyc p) s (((d.leave q (p.len + 1) cyc).arrivePkt router port cyc p).pumpLinks))
    ∧ (∀ router port cyc q, d.fab.queue.find? (fun q => q.router == router && q.inPort == port && q.pkt.vc == 0 && decide (q.outPort < 128)) = some q →
      d.route router port { q.pkt with vc := 3, esc := true } = .out 0 → q.sent = 0 → 256 ≤ d.stampAge router q.since cyc →
      let e := { d with fab.queue := d.fab.queue.erase q }.modPortCnt (countKey router q.outPort 0) (fun c => { c with depth := c.depth - (q.pkt.len + 1) })
      Gives (.escapeTimer router port 0 cyc) s ((((e.freeBuffer router port 0 (q.pkt.len + 1)).freeBuffer router port 3 (63 - q.pkt.len)).enqueue
        { q with outPort := 0, pkt := { q.pkt with vc := 3, esc := true } }).pumpLinks))
    ∧ (∀ tag r, d.fab.requests.find? (fun r => r.tag == tag && d.due r.since (1000 * (d.getPartFab r.part).timeoutUs)
        && !d.fab.queue.any (fun q => q.outPort == atSource && q.pkt.src == r.src && pTag q.pkt == r.tag)) = some r →
      Gives (.routedTimeout tag) s (((d.raise { evTilePoison (epDie r.src) (epUnit r.src) 6 with
        endpoint := r.dest, addr := r.addr, partition := r.part }).answered r (poisonBytes (if r.kind = 1 then r.bytes else 0)) true).pumpLinks))
    ∧ (∀ hub group tag n k p rest, d.fab.nodes.find? (fun n => n.hub == hub && n.group == group && n.tag == tag) = some n → n.slots = (k, p) :: rest →
      d.due n.since (1000 * (d.getPartFab n.part).timeoutUs) = true →
      let r := 256 * (hub / 8) + unitHub (hub % 8)
      let e := { d with fab.nodes := d.fab.nodes.erase n, fab.closedTags := d.fab.closedTags ++ [(hub, group, tag)] }
      Gives (.reduceTagTimeout hub group tag) s (((e.nodeSend r 0 n (poisonBytes (pBytes p))).raise (evTilePoison (rDie r) (rUnit r) 8)).pumpLinks))

/-- R392, R395, R396, R410, R412, R414, R415: what a link end does with a flit of a slot, and what its slots take and release. A bad flit in a routed slot is counted
and named in a NAK; a good one in a scheduled slot waits for its release; a TX slot takes 240 bytes; a release fills the inbound FIFO. -/
def Obligations.LinkFlitResults : Prop :=
  ∀ (s : State) (port slot : Nat), Live s →
    let d := s.found
    let link := d.getLink port
    (∀ bytes fixed, d.linkUp port = true → bytes.length = 272 → readFlit bytes = (none, fixed) → 8 ≤ slot → d.schedSlot port (rxDir port) slot = false →
      Completes (.flitReceive port slot bytes) s (fun t =>
        (t.dev.getLink (linkReg port)).regs.crcFail = satAdd 16 (d.getLink (linkReg port)).regs.crcFail 1
        ∧ ⟨d.beat.number, slot, d.clock.wall, 1⟩ ∈ (t.dev.getLink port).routed.naks))
    ∧ (∀ bytes fixed f, d.linkUp port = true → bytes.length = 272 → readFlit bytes = (some f, fixed) → 8 ≤ slot →
      d.schedSlot port (rxDir port) slot = true → hKind (flitHeader f) = 7 → hSub (flitHeader f) = subSched →
      Completes (.flitReceive port slot bytes) s (fun t => (t.dev.getLink port).sched.rx = link.sched.rx ++ [⟨d.allotBeat port, slot,
        (upTo flitPayload).map (fun i => ⟨((f.drop 16).take flitPayload).getD i 0, (hPoison (flitHeader f)).testBit (i / 8)⟩)⟩]))
    ∧ (d.schedSlot port (txDir port) slot = true → Completes (.linkTxSlot port slot) s (fun t =>
      (t.dev.getLink port).sched.outFifo = link.sched.outFifo.drop flitPayload
      ∧ (d.linkUp port = true → slot < 40 * (d.getLink (linkReg port)).regs.width → ∃ b, Out.flit port slot b ∈ t.dev.clock.out)))
    ∧ (∀ a r, link.sched.allot = some a → (d.getPart link.sched.owner).running = true → tRel a port slot < 65280 →
      a.claims (rxDir port) slot (d.allotBeat port) = true → link.sched.rx.find? (fun r => r.slot == slot && r.beat == d.allotBeat port) = some r →
      Completes (.schedFlitRelease port slot) s (fun t => (t.dev.getLink port).sched.inFifo = (fifoPut link.sched.inFifo r.bytes).1
        ∧ ∀ q ∈ (t.dev.getLink port).sched.rx, q.slot ≠ slot ∨ q.beat ≠ d.allotBeat port))

/-- R395, R396: NAK and REPLAY: the flits of the named VC from the bad one on are sent again in order; a REPLAY discards what was held of its VC, and lets
the other held flits go on once no NAK is open; an unanswered NAK is repeated. -/
def Obligations.ReplayResults : Prop :=
  ∀ (s : State) (port : Nat) (payload : List Byte), Live s →
    let d := s.found
    let r := (d.getLink port).routed
    let b := leAt payload 2 7
    let n := leAt payload 9 2
    (∀ f, d.linkUp port = true → payload.length = 240 → leAt payload 0 2 = 0x0C01 → r.record.find? (fun f => f.beat == b && f.slot == n) = some f → f.tries < 8 →
      let before := r.record.takeWhile (fun x => !(x.beat == b && x.slot == n))
      let after := r.record.drop before.length
      let again := (after.filter (fun x => x.vc == f.vc)).map (fun (x : SentFlit) => if x = f then { x with tries := x.tries + 1 } else x)
      let e := d.modLink (linkReg port) (fun l => { l with regs.replays := satAdd 16 l.regs.replays 1 })
      Gives (.nak port payload) s (((e.modLink port (fun l => { l with routed := { l.routed with
        record := before ++ after.filter (fun x => x.vc != f.vc)
        resend := l.routed.resend ++ again } })).sendCtrl port (ctrlPayload 0x0C02 b n (f.vc.getD 0))).pumpLinks))
    ∧ (d.linkUp port = true → payload.length = 240 → leAt payload 0 2 = 0x0C02 → (∃ x ∈ r.naks, x.beat ≠ b ∨ x.slot ≠ n) →
      Completes (.replay port payload) s (fun t =>
        (t.dev.getLink port).routed.naks = r.naks.filter (fun x => !(x.beat == b && x.slot == n))
        ∧ (t.dev.getLink port).routed.held = (if leAt payload 11 1 = 0xFF then r.held else r.held.filter (fun f => f.vc != leAt payload 11 1))
        ∧ t.dev.fab = d.fab))
    ∧ (∀ x, r.naks.find? (fun x => d.due x.since 4000) = some x → 3 ≤ x.tries → Gives (.nakResendTimer port) s (d.retrain (linkReg port) 1))
    ∧ (∀ x, r.naks.find? (fun x => d.due x.since 4000) = some x → x.tries < 3 → Completes (.nakResendTimer port) s (fun t =>
      (t.dev.getLink port).routed.naks = r.naks.map (fun (y : OpenNak) => if y = x then { y with tries := y.tries + 1, since := d.clock.wall } else y)))

/-- R398, R403, R404, R406 to R409, R418: training: a good block of an ACTIVE port's peer starts it again, one that ends its stage on both sides moves it
on; deadlines, the width exchange, ACTIVE, DOWN and retry, a silent peer, and the mate port in use. -/
def Obligations.LinkTrainingResults : Prop :=
  ∀ (s : State) (port : Nat), Live s →
    let d := s.found
    let n := linkReg port
    let l := d.getLink n
    let set := fun (t : State) => t.dev.getLink n
    (∀ lane bytes time, d.boot.phase = .ready → n < 20 → bytes.length = 64 → leAt bytes 0 2 = 0x7E81 → crc32c (bytes.take 60) = leAt bytes 60 4 →
      (l.regs.state = 3 → Completes (.trainingBlockReceive port lane bytes time false) s (fun t => (set t).regs.state = 2 ∧ (set t).regs.lastCause = 4
        ∧ (set t).train.stage = 1 ∧ (set t).regs.width = 0))
      ∧ (l.regs.state = 2 → l.train.stage = 1 → leAt bytes 2 1 = 1 → (leAt bytes 7 1).testBit 0 = true →
        Completes (.trainingBlockReceive port lane bytes time true) s (fun t => (set t).regs.state = 2 ∧ (set t).train.stage = 2
          ∧ (set t).train.ownDone = false)))
    ∧ (l.regs.state = 2 → d.due l.train.since (stageNs l.train.stage l.train.fullEq) = true →
      Completes (.trainingStageDeadline port) s (fun t => (set t).regs.lastCause = 6
        ∧ (l.regs.attempt < 3 → (set t).regs.state = 2 ∧ (set t).regs.attempt = l.regs.attempt + 1) ∧ (3 ≤ l.regs.attempt → (set t).regs.state = 4)))
    ∧ (l.regs.state = 2 → l.train.stage = 5 → l.train.ownDone = false → d.due l.train.since 1000000 = true →
      Completes (.widthConfirmTimeout port) s (fun t => (l.train.round = 1 → (set t).train.round = 2 ∧ (set t).regs = l.regs)
        ∧ (l.train.round ≠ 1 → l.ownMask n % 16 = 15 → (set t).train.width = 4 ∧ (set t).train.used = 0xF ∧ (set t).train.stage = 6
          ∧ (set t).regs.fallback = true ∧ (set t).regs.mismatchSeen = true)))
    ∧ (l.regs.state = 2 → l.train.stage = 7 → Completes (.portActive port) s (fun t => (set t).regs.state = 3 ∧ (set t).regs.width = l.train.width
      ∧ (set t).regs.used = l.train.used ∧ (t.dev.getBPort n).expected = none))
    ∧ (l.regs.state = 4 → l.regs.autoRetry = true → d.due l.train.downSince 10000000000 = true →
      Gives (.portDownRetry port) s (d.beginAttempt n 1 true))
    ∧ (l.regs.state = 3 → Completes (.peerSilence port) s (fun t => (set t).regs.state = 1 ∧ (set t).regs.width = 0 ∧ (set t).regs.degradedSeen = true))
    ∧ (l.regs.state = 3 → Completes (.cdrLoss port) s (fun t => (set t).regs.state = 2 ∧ (set t).regs.lastCause = 3 ∧ (set t).regs.attempt = 1
      ∧ (set t).train.stage = 1))
    ∧ (∀ m, d.mirror.matePort = some m → (d.getLink m).regs.state ≠ 3 →
      Completes .matePortSwitch s (fun t => t.dev.mirror.matePort = d.mateInUse))

/-- R48, R55, R66, R339, R351, R356, R364, R375, R417, R419, R435: what the accepted commands on the beat and the fabric set. A routing change begins to
drain; the tables stay until it has. -/
def Obligations.FabricCommandResults : Prop :=
  ∀ (s : State) (c : MbxCmd),
    let d := s.found
    let sel := fld c.a0 0 4
    let n := fld c.a0 8 5
    (mbxReady s beatConfigSpec c → d.lockBusy = false → (fld c.a0 0 2 = 2 ∨ fld c.a0 0 2 = 0) →
      Completes (.beatConfig c) s (fun t => t.dev.beat.role = fld c.a0 0 2 ∧ t.dev.beat.domain = fld c.a0 16 16 ∧ t.dev.beat.maskVein = fld c.a0 32 16
        ∧ t.dev.beat.maskD2d = fld c.a0 48 4 ∧ t.dev.beat.number = d.beat.number))
    ∧ (mbxReady s linkConfigSpec c → fld c.a0 0 5 < 16 → c.a1.testBit 3 = false → d.portOut (fld c.a0 0 5) = false → d.lockSlot (fld c.a0 0 5) = none →
      let g := fun (t : State) => (t.dev.getLink (fld c.a0 0 5)).regs
      Completes (.linkConfig c) s (fun t => (g t).enable = c.a1.testBit 0 ∧ (g t).maxWidth = fld c.a1 1 2 ∧ (g t).mate = false
        ∧ (g t).autoRetry = c.a1.testBit 4 ∧ (c.a1.testBit 0 = false → (d.getLink (fld c.a0 0 5)).regs.state ≠ 0 → (g t).state = 0)))
    ∧ (mbxReady s fabricSelfSpec c → sel = 0 → fld c.a1 0 12 < 0xF00 →
      Completes (.fabricPolicySelf c) s (fun t => t.dev.fab.selfDevice = fld c.a1 0 12 ∧ t.dev.fab.selfValid = true))
    ∧ (mbxReady s fabricPartitionSpec c → sel = 1 → n < 8 → 100 ≤ fld c.a1 8 24 → fld c.a1 8 24 ≤ 100000 → (d.getPart n).busy = false →
      Completes (.fabricPolicyPartition c) s (fun t => t.dev.getPartFab n = { priority := c.a1.testBit 0, timeoutUs := fld c.a1 8 24 }))
    ∧ (mbxReady s fabricTreeSpec c → sel = 2 → n < 16 → c.a1.testBit 0 = false ∨ c.a1.testBit 1 = true → d.lockChannel n = false →
      Completes (.fabricPolicyBarrierTree c) s (fun t => t.dev.getTree n =
        { enabled := c.a1.testBit 0, root := c.a1.testBit 1, parentPort := fld c.a1 2 4, children := fld c.a1 6 16 }))
    ∧ (mbxReady s fabricApertureSpec c → sel = 3 → Completes (.fabricPolicyAperture c) s (fun t =>
      t.dev.getWindow n = { valid := c.a1.testBit 0, write := c.a1.testBit 1, base := fld c.a1 24 24 } ∧ ∀ k, k ≠ n → t.dev.getWindow k = d.getWindow k))
    ∧ (mbxReady s routeTableSpec c → fld c.a0 0 2 = 0 → c.bufLen = 4 * fld c.a1 0 16 → fld c.a0 16 16 + fld c.a1 0 16 ≤ 4096 → 100 ≤ drainUs c.a1 →
      drainUs c.a1 ≤ 1000000 → d.fab.change = none →
      (∀ i, i < c.buffer.length / 4 → entryFlaw 0 (fld c.a0 16 16 + i) (leAt c.buffer (4 * i) 4) = none) →
      Completes (.routeTableSet c) s (fun t => t.dev.fab.device = d.fab.device ∧ waitsFor t c ∧ t.dev.fab.change = some
        { table := 0, sel := 0, first := fld c.a0 16 16, values := tableValues 0 c.buffer, drainUs := drainUs c.a1, since := d.clock.wall, held := [] }))

/-- R375: a routing change takes force once no affected traffic is left, and not at all if that lasts too long. -/
def Obligations.RouteDrainResults : Prop :=
  ∀ (s : State) (x : RouteChange), Live s → s.dev.fab.change = some x →
    (s.found.affectedLeft x = false → x.table = 0 → x.held = [] → Completes .routeDrainDone s (fun t => t.dev.fab.change = none
      ∧ (∀ i, i < x.values.length → t.dev.routeDevice (x.first + i) = x.values.getD i 0)
      ∧ ∀ n, n < x.first ∨ x.first + x.values.length ≤ n → t.dev.routeDevice n = s.dev.routeDevice n))
    ∧ (s.found.due x.since (1000 * x.drainUs) = true → x.held = [] → Completes .routeDrainTimeout s (fun t => t.dev.fab.change = none
      ∧ t.dev.fab.device = s.dev.fab.device ∧ t.dev.fab.locals = s.dev.fab.locals ∧ t.dev.fab.reduce = s.dev.fab.reduce))

/-- R90, R312, R498, R502, R509: what the accepted commands on power set: a policy or a guarantee waits for the next control step, the scrub settings for
the next pass, the points stand at once. -/
def Obligations.PowerCommandResults : Prop :=
  ∀ (s : State) (c : MbxCmd),
    let d := s.found
    let sel := fld c.a0 0 4
    let pends := fun (k a2 : Nat) (t : State) => t.dev.pow.pend = d.pow.pend ++ [(k, c.a1, a2)] ∧ t.dev.pow.capW = d.pow.capW
      ∧ t.dev.pow.order = d.pow.order ∧ t.dev.pow.slope = d.pow.slope ∧ t.dev.idle = d.idle
    (mbxReady s powerCapSpec c → sel = 0 → 1000 ≤ c.a1 → c.a1 ≤ 2400 → Completes (.powerPolicyCap c) s (pends 0 0))
    ∧ (mbxReady s powerOrderSpec c → sel = 1 → (∀ m, m < 3 → m ∈ [fld c.a1 0 2, fld c.a1 2 2, fld c.a1 4 2]) →
      Completes (.powerPolicyShareOrder c) s (pends 1 0))
    ∧ (mbxReady s powerIdleSpec c → sel = 2 → Completes (.powerPolicyDeepIdle c) s (pends 2 0))
    ∧ (mbxReady s powerGravelSpec c → sel = 3 → 1 ≤ fld c.a2 0 9 → fld c.a2 0 9 ≤ 300 → Completes (.powerPolicyGravel c) s (pends 3 c.a2))
    ∧ (mbxReady s powerScrubSpec c → sel = 4 → 1 ≤ fld c.a1 0 8 → fld c.a1 0 8 ≤ 168 → 12 ≤ fld c.a1 8 10 → fld c.a1 8 10 ≤ 720 →
      Completes (.powerPolicyScrub c) s (fun t => ∀ p, p < 4 →
        (t.dev.getScrub p).pending = some (fld c.a1 0 8, fld c.a1 8 10, c.a1.testBit 18, c.a1.testBit 19)
        ∧ (t.dev.getScrub p).sramHours = (d.getScrub p).sramHours ∧ (t.dev.getScrub p).hbmHours = (d.getScrub p).hbmHours))
    ∧ (mbxReady s oppointSpec c → let m := fld c.a0 0 5
      1 ≤ m → m ≤ 16 → c.bufLen = 8 * m → d.pointsUsed = [] → firstEntry m 8 (pointReserved c.buffer) = none →
      firstEntry m 8 (fun i => pointRange (pointAt c.buffer i)) = none →
      Completes (.oppointTableSet c) s (fun t => t.dev.pow.points = (upTo m).map (fun i => (i, pointAt c.buffer i))))
    ∧ (let kind := fld c.a0 4 2
      let v := guarValues kind c.a1
      mbxReady s (guaranteeSpec kind) c → c.part < 8 → (d.getPart c.part).live = true → (d.getPart c.part).image = none → fld c.a0 8 8 ≠ 0 →
      guarRange kind v.1 v.2 = none → Completes (.guaranteeSet c) s (fun t =>
        (t.dev.getGuar (4 * c.part + kind)).pend = some (fld c.a0 8 8, v.1, v.2)
        ∧ (t.dev.getGuar (4 * c.part + kind)).rank = (d.getGuar (4 * c.part + kind)).rank))

/-- R441, R445, R450, R451, R453, R516, R578: a command that only reads posts its results, changes no memory, and is not audited. -/
def Obligations.ReadCommandResults : Prop :=
  ∀ (s : State) (c : MbxCmd), ringTakes s c →
    let d := s.found
    let posts := fun (r : Reply) (t : State) => completionOf s c r ∈ t.dev.clock.out ∧ t.dev.mem = d.mem ∧ t.dev.parts = d.parts ∧ t.dev.flash = d.flash
    let p := d.getPart c.part
    (mbxReady s deviceInfoSpec c → 4096 ≤ c.bufLen → Completes (.deviceInfo c) s (posts { r0 := vitalId, r1 := d.bedrockStatus + 2 ^ 32 * d.activeVersion }))
    ∧ (mbxReady s jobStatusSpec c → c.part < 8 → p.live = true → c.bufLen = 0 →
      Completes (.jobStatus c) s (posts { r0 := p.result0, r1 := p.result1 }))
    ∧ (mbxReady s energyReadSpec c → c.part < 8 → p.live = true →
      Completes (.energyRead c) s (posts { r0 := milliJoules (tabGet 0 c.part d.pow.energy), r1 := d.beat.number }))
    ∧ (∀ q off, mbxReady s telemetryReadSpec c → 64 ≤ c.ring → mmioPlace c.a0 = some (q, off) → off % 4 = 0 → 8 ≤ c.a1 → c.a1 ≤ 4096 → c.a1 % 8 = 0 →
      off + c.a1 ≤ 2 ^ 44 → c.a1 ≤ c.bufLen → Completes (.telemetryRead c) s (fun t => posts {} t ∧ ∃ bs, Out.hostWrite c.bufAddr bs ∈ t.dev.clock.out))
    ∧ (mbxReady s logReadSpec c → 64 ≤ c.ring → 64 * c.a2 ≤ c.bufLen →
      let l := if c.a0 = 0 then d.eventPart c.a1 c.a2 (fun _ => true) else d.auditPart c.a1 c.a2
      Completes (.logRead c) s (posts { r0 := l.next, r1 := l.oldest }))

/-- R234, R296, R333, R451: what the accepted commands on partitions leave: the partition that PARTITION_CREATE describes, none after PARTITION_DESTROY,
and an image after IMAGE_LOAD has checked it, or nothing where it fails. -/
def Obligations.PartitionCommandResults : Prop :=
  ∀ (s : State) (c : MbxCmd),
    let d := s.found
    let n := fld c.a0 0 3
    (mbxReady s partitionCreateSpec c → d.createFail c = none → Completes (.partitionCreate c) s (fun t =>
      (t.dev.getPart n).live = true ∧ (t.dev.getPart n).halves = fld c.a0 8 8 ∧ (t.dev.getPart n).channels = c.a1 ∧ (t.dev.getPart n).rings = c.a2
      ∧ (t.dev.getPart n).image = none ∧ (t.dev.getPart n).filling = decide (0 < fld c.a0 16 8) ∧ (0 < fld c.a0 16 8 → waitsFor t c)
      ∧ ∀ k, k ≠ n → t.dev.getPart k = d.getPart k))
    ∧ (mbxReady s partitionDestroySpec c → (d.getPart n).live = true → (d.getPart n).running = false → (d.getPart n).draining = false →
      Completes (.partitionDestroy c) s (fun t => t.dev.getPart n = {} ∧ (∀ k, k ≠ n → t.dev.getPart k = d.getPart k) ∧ t.dev.regionsOf n = []))
    ∧ (mbxReady s imageLoadSpec c → c.part < 8 → (d.getPart c.part).live = true → (d.getPart c.part).running = false → (d.getPart c.part).draining = false →
      Completes (.imageLoad c) s (fun t =>
        (d.imageFail c.part c.buffer = none → (t.dev.getPart c.part).job.state = 1 ∧ (t.dev.getPart c.part).image = some (imageOf c.buffer (sections c.buffer)))
        ∧ (d.imageFail c.part c.buffer ≠ none → t.dev.parts = d.parts ∧ t.dev.slab = d.slab ∧ t.dev.peb = d.peb ∧ t.dev.cairn = d.cairn
          ∧ t.dev.mem = d.mem ∧ t.dev.mesh = d.mesh)))
    ∧ (∀ k, Live s → (d.getPart k).filling = true → Completes (.partitionFillDone k) s (fun t =>
      (t.dev.getPart k).filling = false ∧ t.dev.mem.regions = d.mem.regions
      ∧ ∀ r, r ∈ d.regionsOf k → ∀ a, r / 16 * 2 ^ 46 + (d.getRegion r).first ≤ a →
        a < r / 16 * 2 ^ 46 + (d.getRegion r).first + (d.getRegion r).bytes → t.dev.mem.byte a = 0))

/-- R29, R35, R36, R332, R451, R453, R454: a job from its start to its end: JOB_START makes it RUNNING and waiting for its start beat, job beat 0 begins
there, JOB_STOP asks for a stop at the next edge, a drain ends once no signal is open, and a notice is posted where the ring takes it. -/
def Obligations.JobResults : Prop :=
  ∀ (s : State),
    let d := s.found
    (∀ c i, mbxReady s jobStartSpec c → c.part < 8 → (d.getPart c.part).live = true → d.startFail c.part = none → d.pairedJob c.part = false →
      (d.getPart c.part).image = some i → (i.lockstep = true → d.earliestStart ≤ c.a0) → Completes (.jobStart c) s (fun t =>
        (t.dev.getPart c.part).job.state = 2 ∧ (t.dev.getPart c.part).job.waitStart = true ∧ (t.dev.getPart c.part).job.lockstep = i.lockstep
        ∧ (t.dev.getPart c.part).job.startBeat = (if i.lockstep then c.a0 else d.beat.number)))
    ∧ (∀ c, mbxReady s jobStopSpec c → c.part < 8 → (d.getPart c.part).live = true → (d.getPart c.part).running = true →
      (d.getPart c.part).job.stopPending = none →
      Completes (.jobStop c) s (fun t => waitsFor t c ∧ (t.dev.getPart c.part).job.stopPending = some 1 ∧ (t.dev.getPart c.part).job.state = 2))
    ∧ (∀ n, Live s → d.mayBegin n = true → Completes (.jobStartBeat n) s (fun t => (t.dev.getPart n).job.waitStart = false
      ∧ (t.dev.getPart n).job.jobBeat = 0 ∧ (t.dev.getPart n).job.state = (d.getPart n).job.state))
    ∧ (∀ n, Live s → (d.getPart n).draining = true → d.unresolved n = false → Completes (.partitionDrainEnd n) s (fun t =>
      (t.dev.getPart n).job.state = (if (d.getPart n).job.cause = 0 then 4 else 5)))
    ∧ (∀ n r, Live s → d.serving = true → (upTo 66).all (fun r => (d.getRing r).notices.isEmpty) = true → (d.getPart n).job.notify = some r →
      (d.getPart n).job.state = 4 ∨ (d.getPart n).job.state = 5 → (d.getRing r).takesNotice = true → (d.getRing r).notices = [] →
      Gives (.noticePost n) s ((d.modPart n (fun p => { p with job := { p.job with notify := none } })).postNotice r
        ⟨n, (d.getPart n).result0, (d.getPart n).result1⟩))

/-- R343, R469, R473, R475, R487, R488, R581: what the accepted commands on cairns, Assay units, fuses, ownership and debug set. Where a key or token must
verify, the result follows the verification, whose functions the model leaves open (log entry 14). -/
def Obligations.SecurityCommandResults : Prop :=
  ∀ (s : State) (c : MbxCmd),
    let d := s.found
    let tile := 16 * fld c.a0 0 2 + fld c.a0 2 4
    let index := fld c.a0 6 10
    let unit := 8 * fld c.a0 5 2 + fld c.a0 0 5
    (mbxReady s cairnSetSpec c → c.a1 ≤ cairnMax → d.cairn.waiters = [] → d.cairn.ops = [] → Completes (.cairnSet c) s (fun t =>
      t.dev.cairnValue tile index = c.a1 ∧ (t.dev.getCairnTile tile).setSeen = true
      ∧ ∀ k, k ≠ 1024 * tile + index → tabGet 0 k t.dev.cairn.values = tabGet 0 k d.cairn.values))
    ∧ (mbxReady s assayConfigSpec c → d.assayFlaw c = none → Completes (.assayConfig c) s (fun t =>
      (t.dev.getAssay unit).pend = some (assayBlk c.buffer) ∧ (t.dev.getAssay unit).blk = (d.getAssay unit).blk))
    ∧ (mbxReady s fuseProgramSpec c → c.bufLen % 8 = 0 → c.bufLen ≤ 4096 → fuseFlaw c.buffer = none → c.burnFails = false →
      d.flash.verified.any (fun k => !fuseKills (fuseEntries c.buffer) k) = true → d.fuseBusy (fuseEntries c.buffer) = false →
      Completes (.fuseProgram c) s (fun t => t.dev.fuses = (fuseEntries c.buffer).foldl (fun f e => f.burn e (true, true)) d.fuses))
    ∧ (∀ p off, mbxReady s regAccessSpec c → mmioPlace c.a0 = some (p, off) → off % 8 = 0 → c.a1 = 2 → ringTakes s c →
      Completes (.regAccess c) s (fun t => t.dev.mem = d.mem ∧ ∃ e, Out.hostWrite ((d.getRing c.ring).cplBase + 32 * (d.getRing c.ring).cplTail) e ∈ t.dev.clock.out))
    ∧ (mbxReady s debugUnlockSpec c → (d.secFuse d.bed.primary).debugDisable = false → d.anyBusy = false → Completes (.debugUnlock c) s (fun t =>
      t.dev.sec.debugScope = (if d.tokenFlaw c.buffer c.bufLen = none then d.sec.debugScope ||| leAt c.buffer 24 1 else d.sec.debugScope)))
    ∧ (∀ i, mbxReady s ownershipTakeSpec c → c.ring = 64 → d.bed.owned = false → (d.secFuse d.bed.primary).freeSlot = some i →
      Completes (.ownershipTake c) s (fun t => t.dev.bed.owned = (ownFlaw c).isNone
        ∧ (ownFlaw c = none → t.dev.flash.ownerKey = c.buffer.take 96 ∧ (tabGet ({} : OwnerSlot) i t.dev.fuses.p0.slots).hash = Config.sha384 (c.buffer.take 96)
          ∧ (tabGet ({} : OwnerSlot) i t.dev.fuses.p0.slots).valid = true)
        ∧ (ownFlaw c ≠ none → t.dev.flash.ownerKey = d.flash.ownerKey ∧ t.dev.fuses = d.fuses)))

/-- R129, R277, R451, R452, R462, R471, R554, R563, R564: what the accepted commands on units, firmware and calibration begin; the unit, the bank or the rail
changes by the commands that follow. -/
def Obligations.UnitCommandResults : Prop :=
  ∀ (s : State) (c : MbxCmd),
    let d := s.found
    let u := unitOf c.a0
    let bank := fld c.a0 0 1
    let leaves := fun (t : State) => u ∈ t.dev.caps.leaving ∧ waitsFor t c ∧ t.dev.caps.generation = d.caps.generation
    (mbxReady s (leaveSpec 0x0070) c → unitFail u = none → d.caps.leaving.contains u = false → d.unitOn u = true → u.1 ≠ 2 → u.1 ≠ 4 →
      Completes (.unitRetire c) s leaves)
    ∧ (mbxReady s (leaveSpec 0x0072) c → unitFail u = none → d.caps.leaving.contains u = false → d.unitOn u = true → u.1 ≠ 2 → u.1 ≠ 4 →
      Completes (.unitDisable c) s leaves)
    ∧ (mbxReady s unitEnableSpec c → unitFail u = none → d.leavingNow u = false → d.caps.disabled.contains u = true →
      Completes (.unitEnable c) s (fun t => waitsFor t c ∧ t.dev.caps = d.caps))
    ∧ (mbxReady s fwStageSpec c → bank ≠ d.bed.activeBank → Completes (.fwStage c) s (fun t => (t.dev.flash.bank 0 bank).image = c.buffer
      ∧ (t.dev.flash.bank 0 bank).verified = (fwFlaw (d.secFuse d.bed.primary) c.buffer).isNone ∧ (t.dev.flash.bank 0 (1 - bank)) = d.flash.bank 0 (1 - bank)))
    ∧ (mbxReady s fwActivateSpec c → d.bed.standbyOk = true → (d.flash.bank d.bed.primary bank).present = true →
      (d.flash.bank d.bed.primary bank).verified = true → d.bed.fwPhase = 0 → Completes (.fwActivate c) s (fun t => waitsFor t c ∧ t.dev.bed.fwBank = bank
        ∧ (t.dev.bed.fwPhase = 1 ∨ t.dev.bed.fwPhase = 2 ∧ t.dev.bed.paused = true) ∧ t.dev.bed.activeBank = d.bed.activeBank))
    ∧ (mbxReady s calRunSpec c → fld c.a0 0 2 = 2 → fld c.a0 8 5 < 8 → Completes (.calRun c) s (fun t => waitsFor t c
      ∧ (t.dev.getHalfPow (fld c.a0 8 5)).frozen = true ∧ (t.dev.getHalfPow (fld c.a0 8 5)).trim = (d.getHalfPow (fld c.a0 8 5)).trim))
    ∧ (mbxReady s mirrorPairSpec c → fld c.a0 0 2 = 0 → Completes (.mirrorPair c) s (fun t => t.dev.mirror.regs = {} ∧ t.dev.mirror.fwdQueue = []
      ∧ t.dev.mirror.cand = none))

/-- R427, R437 to R443, R456: what host writes to a ring slot do: a doorbell moves TAIL or CPL_HEAD, one beyond the ring stops it, one on the wrong port
is recorded and ignored; ENABLE binds and starts a ring or stops it; a reset of a port or a function disables its rings. -/
def Obligations.HostRingResults : Prop :=
  ∀ (s : State) (a : Access) (ring v : Nat),
    let d := s.found
    let q := d.getRing ring
    let e := d.host.evt
    let base0 : Ring := { q with enable := true, sizeLog2 := sizeField q.sizeLog2 v, boundPort := a.port, head := 0, tail := 0 }
    let fresh : Ring := { base0 with cplTail := 0, cplHead := 0, phase := true, disabling := false, discard := false }
    let disabled := fun (t : State) (r : Nat) => (t.dev.getRing r).enable = false ∧ ((d.getRing r).executing = false → (d.getRing r).state ≠ 3 →
      (t.dev.getRing r).state = 0)
    Live s →
    (d.mayRing a ring = true → q.boundPort = a.port → fld v 0 12 < 2 ^ q.sizeLog2 →
      Gives (.mbxDoorbell a ring v) s (d.modRing ring (fun r => { r with tail := fld v 0 12 })))
    ∧ (d.mayRing a ring = true → q.boundPort = a.port → 2 ^ q.sizeLog2 ≤ fld v 0 12 → q.state = 1 →
      Gives (.mbxDoorbell a ring v) s (d.modRing ring (fun r => { r with state := 2, errCause := 1 })))
    ∧ (d.mayRing a ring = true → q.boundPort ≠ a.port → Gives (.mbxDoorbell a ring v) s (d.modRing ring (fun r => { r with wrongPort := true }))
      ∧ Gives (.mbxCplDoorbell a ring v) s (d.modRing ring (fun r => { r with wrongPort := true })))
    ∧ (d.mayRing a ring = true → q.boundPort = a.port →
      Gives (.mbxCplDoorbell a ring v) s (d.modRing ring (fun r => { r with cplHead := fld v 0 13 })))
    ∧ (d.mayRing a ring = true → v.testBit 0 = true → q.enable = false → q.executing = false → q.descBase % 64 = 0 → q.cplBase % 64 = 0 →
      Gives (.mbxEnableSet a ring v) s (d.modRing ring (fun _ => { fresh with state := 1, errCause := 0 })))
    ∧ (d.mayRing a ring = true → v.testBit 0 = true → q.enable = false → q.executing = false → q.descBase % 64 ≠ 0 ∨ q.cplBase % 64 ≠ 0 →
      Gives (.mbxEnableSet a ring v) s (d.modRing ring (fun _ => { fresh with state := 2, errCause := 2 })))
    ∧ (d.mayRing a ring = true → v.testBit 0 = false → q.enable = true → q.state = 1 → q.executing = false →
      Gives (.mbxEnableClear a ring v) s (d.modRing ring (fun r => { r with enable := false, state := 0 })))
    ∧ (d.portUp a = true → a.fn = 0 → a.port = e.boundPort → Gives (.evtDoorbell a v) s { d with host.evt := { e with head := fld v 0 12 } })
    ∧ (d.portUp a = true → a.fn = 0 → v.testBit 0 = true → e.enable = false → e.base % 64 = 0 → Completes (.evtEnableSet a v) s (fun t =>
      t.dev.host.evt.enable = true ∧ t.dev.host.evt.tail = 0 ∧ t.dev.host.evt.head = 0 ∧ t.dev.host.evt.phase = true ∧ t.dev.host.evt.overflow = false
      ∧ t.dev.host.evt.boundPort = a.port ∧ t.dev.host.evt.base = e.base ∧ t.dev.host.rings = d.host.rings))
    ∧ (d.portUp a = true → Completes (.functionLevelReset a) s (fun t => (∀ r, r < 64 → a.fn = r / 4 + 1 → disabled t r)
      ∧ (∀ r, r < 64 → a.fn ≠ r / 4 + 1 → t.dev.getRing r = d.getRing r) ∧ (a.fn = 0 → disabled t 64 ∧ disabled t 65 ∧ t.dev.host.evt.enable = false)
      ∧ t.dev.host.windows = d.host.windows ∧ t.dev.parts = d.parts))
    ∧ (a.port = 0 ∨ a.port = 2 → Completes (.perstAssert a.port) s (fun t =>
      (∀ r, r < 66 → (d.getRing r).enable = true → (d.getRing r).boundPort = a.port → disabled t r)
      ∧ (∀ r, r < 66 → (d.getRing r).boundPort ≠ a.port → t.dev.getRing r = d.getRing r)
      ∧ (if a.port = 0 then t.dev.pins.perst0N else t.dev.pins.perst2N) = false ∧ t.dev.parts = d.parts)
      ∧ Completes (.perstRelease a.port) s (fun t => (if a.port = 0 then t.dev.pins.perst0N else t.dev.pins.perst2N) = true
        ∧ t.dev.host = d.host ∧ t.dev.parts = d.parts))

/-- R428 to R430, R435, R440, R442, R484, R485, R583 to R585: host accesses by their offset: what a register write sets, what the firewall lets through an
aperture or answers with Completer Abort, what AssayFeed feeds, and what fetching a descriptor moves. -/
def Obligations.HostAccessResults : Prop :=
  ∀ (s : State) (a : Access) (ring v : Nat),
    let d := s.found
    let win := d.getWindow 0
    Live s →
    (∀ off size, d.portUp a = true → aligned off size = false → Gives (.registerWrite a off size v) s (d.emit .completerAbort))
    ∧ (∀ off size, d.portUp a = true → a.fn = 0 → aligned off size = true → off < 0x1000 → Gives (.registerWrite a off size v) s d)
    ∧ (d.mayRing a 64 = true → (d.getRing 64).boundPort = a.port → v < 2 ^ (d.getRing 64).sizeLog2 → v < 2 ^ 12 →
      Gives (.registerWrite a 0x1000 4 v) s (d.modRing 64 (fun r => { r with tail := v })))
    ∧ (d.mayRing a 64 = true → Completes (.registerWrite a 0x3000 8 v) s (fun t =>
      (t.dev.getRing 64).descBase = (if (d.getRing 64).enable then (d.getRing 64).descBase else v % 2 ^ 64)
      ∧ (t.dev.getRing 64).cplBase = (d.getRing 64).cplBase ∧ ∀ r, r ≠ 64 → t.dev.getRing r = d.getRing r))
    ∧ (∀ write o bytes, d.portUp a = true → aligned o bytes.length = false ∨ windowOf a.fn o = none →
      Gives (.apertureAccess a write o bytes) s (d.emit .completerAbort))
    ∧ (∀ o bytes, d.portUp a = true → a.fn = 0 → o < 2 ^ 24 → aligned o bytes.length = true → win.valid = true → win.write = true →
      d.hostCause a true (win.base * 2 ^ 24 + o) bytes.length = 0 → d.hbmWaits (win.base * 2 ^ 24 + o) = false →
      Gives (.apertureAccess a true o bytes) s (d.hostWrite a (win.base * 2 ^ 24 + o) bytes))
    ∧ (∀ write o bytes, d.portUp a = true → a.fn = 0 → o < 2 ^ 24 → aligned o bytes.length = true → win.valid = false →
      Completes (.apertureAccess a write o bytes) s (fun t => Out.completerAbort ∈ t.dev.clock.out ∧ t.dev.mem = d.mem ∧ t.dev.parts = d.parts))
    ∧ (∀ die unit x, d.portUp a = true → a.fn = 0 → die < 4 → unit < 8 → (d.getAssay (8 * die + unit)).blk.source = 3 →
      (d.getAssay (8 * die + unit)).state = 1 → x < 256 →
      Gives (.assayFeedByte a die unit (256 + x)) s (d.modAssay (8 * die + unit) (fun y => y.feed [BitVec.ofNat 8 x]))
      ∧ Gives (.assayFeedFinish a die unit 512) s
        (d.assayClose (8 * die + unit) (d.getPart (d.getAssay (8 * die + unit)).blk.partition).job.jobBeat))
    ∧ (d.mayFetch ring = true → Gives (.descriptorFetch ring none) s (d.modRing ring (fun q => { q with state := 2, errCause := 3 })))
    ∧ (∀ c, d.mayFetch ring = true → specOf c = none → Gives (.descriptorFetch ring (some c)) s
      ((d.modRing ring (fun q => { q with head := (q.head + 1) % 2 ^ q.sizeLog2 })).finish { c with ring := ring } false { status := stBad, detail := 0 }))
    ∧ (∀ c sp, d.mayFetch ring = true → specOf c = some sp → d.mustPark { c with ring := ring } = false → Gives (.descriptorFetch ring (some c)) s
      (((d.modRing ring (fun q => { q with head := (q.head + 1) % 2 ^ q.sizeLog2 })).runMbx sp { c with ring := ring }).activatePause))

/-- R129, R277, R305 to R307, R452, R554: what the commands on leaving units and on HBM channels do: a unit that has left is listed once and the capability
words count the change; a copy or a retraining ends with its mapping, its poisoned granules, or its channel out of service. -/
def Obligations.UnitChangeResults : Prop :=
  ∀ (s : State),
    let d := s.found
    let gone := fun (t : State) (u : UnitId) => u ∉ t.dev.caps.leaving ∧ (u ∈ t.dev.caps.retired ∨ u ∈ t.dev.caps.disabled)
      ∧ t.dev.caps.generation = wrapAdd 32 d.caps.generation 1 ∧ ∀ w ∈ t.dev.host.waiting, unitWaits u w = false
    Live s →
    (∀ index sub, (d.getSlab index).seq.atBoundary = true → d.caps.leaving.contains (unitAt 0 index sub) = true →
      Completes (.unitLeaveService 0 index sub) s (fun t => gone t (unitAt 0 index sub) ∧ (t.dev.getSlab index).regs.retired = true
        ∧ (tabGet 0xFF (index / 8) t.dev.caps.slabs).testBit (index % 8) = false))
    ∧ (∀ index sub, (d.getSlab index).seq.atBoundary = true → d.caps.leaving.contains (unitAt 1 index sub) = true →
      Completes (.unitLeaveService 1 index sub) s (fun t => gone t (unitAt 1 index sub)
        ∧ (t.dev.getSlab index).regs.arraysOff = (d.getSlab index).regs.arraysOff ||| 2 ^ sub))
    ∧ (∀ index sub, index < 16 → d.caps.leaving.contains (unitAt 3 index sub) = true →
      Completes (.unitLeaveService 3 index sub) s (fun t => gone t (unitAt 3 index sub) ∧ t.dev.caps.veins.testBit index = false))
    ∧ (∀ cluster name, d.caps.leaving.contains (2, cluster / 8, cluster % 8, name) = true → d.clusterBusy cluster = false →
      tabGet none cluster d.caps.spare = none → Completes (.pebbleRemap cluster name) s (fun t => gone t (2, cluster / 8, cluster % 8, name)
        ∧ tabGet none cluster t.dev.caps.spare = some name ∧ t.dev.getPebble (8 * cluster + name) = { needImage := true }
        ∧ ∀ b, b ≠ 8 * cluster + name → t.dev.getPebble b = d.getPebble b))
    ∧ (∀ stack pc, (d.getStack stack).retiring = some pc → (d.getStack stack).migrating = true →
      d.due (d.getStack stack).copySince (d.copyBytes stack / 128) = true → Completes (.hbmRetireCopyDone stack) s (fun t =>
        (t.dev.getStack stack).reserveUsed = true ∧ (t.dev.getStack stack).retiredPc = pc ∧ (t.dev.getStack stack).migrating = false
        ∧ (t.dev.getStack stack).retiring = none ∧ (t.dev.getStack stack).pcRetired = (d.getStack stack).pcRetired ||| 2 ^ pc
        ∧ t.dev.caps.generation = wrapAdd 32 d.caps.generation 1 ∧ t.dev.mem.cells = d.mem.cells))
    ∧ (∀ stack ch, d.caps.leaving.contains (5, stack / 5, stack % 5, ch) = true → d.cursorOn stack (2 * ch) = false → d.cursorOn stack (2 * ch + 1) = false →
      (d.getStack stack).retiring = none → (d.getStack stack).reserveUsed = true → Completes (.hbmChRetireEffect stack ch) s (fun t =>
        gone t (5, stack / 5, stack % 5, ch) ∧ (t.dev.getStack stack).state = 2
        ∧ (t.dev.getStack stack).pcRetired = (d.getStack stack).pcRetired ||| 2 ^ (2 * ch) ||| 2 ^ (2 * ch + 1)))
    ∧ (∀ stack pc, d.unitOn (4, stack / 5, stack % 5, pc) = true → (d.getStack stack).retiring = none → (d.getScrub (stack / 5)).autoRetire = false →
      Gives (.autoRetire stack pc) s (d.raise { code := evUncorrectable, cause := 5, sev := 2, die := stack / 5, cls := 3, idx := stack, sub := pc }))
    ∧ (∀ stack pc, d.unitOn (4, stack / 5, stack % 5, pc) = true → (d.getStack stack).retiring = none →
      (d.getScrub (stack / 5)).autoRetire = true → (d.getStack stack).reserveUsed = false → Completes (.autoRetire stack pc) s (fun t =>
        (t.dev.getStack stack).retiring = some pc ∧ (t.dev.getStack stack).pcRetired = (d.getStack stack).pcRetired))
    ∧ (∀ stack ch, d.caps.stackOn stack = true → (d.getStack stack).state ≠ 1 → Completes (.hbmChannelRetrain stack ch) s (fun t =>
      (t.dev.getStack stack).state = 1 ∧ (t.dev.getStack stack).retrainCh = ch ∧ (t.dev.getStack stack).lost = []
      ∧ (t.dev.getStack stack).attemptSince = d.clock.wall ∧ t.dev.mem = d.mem))
    ∧ (∀ stack, (d.getStack stack).state = 1 → (d.getStack stack).overflow = false → Gives (.hbmRetrainAttemptEnd stack true) s (d.poisonLost stack))
    ∧ (∀ stack, (d.getStack stack).state = 1 → (d.getStack stack).overflow = false → (d.getStack stack).lost = [] →
      Completes (.hbmRetrainAttemptEnd stack true) s (fun t => (t.dev.getStack stack).state = (if (d.getStack stack).channelOut then 2 else 0)
        ∧ (t.dev.getStack stack).lostWrites = (d.getStack stack).lostWrites ∧ t.dev.mem = d.mem))
    ∧ (∀ stack, (d.getStack stack).state = 1 → (d.getStack stack).overflow = false → (d.getStack stack).attempt = 1 →
      d.due (d.getStack stack).attemptSince 5000000 = true → Completes (.hbmRetrainAttemptEnd stack false) s (fun t =>
        (t.dev.getStack stack).state = 1 ∧ (t.dev.getStack stack).attempt = 2 ∧ t.dev.mem = d.mem))
    ∧ (∀ stack, (d.getStack stack).state = 1 → (d.getStack stack).overflow = false → (d.getStack stack).attempt = 2 →
      d.due (d.getStack stack).attemptSince 5000000 = true → Completes (.hbmRetrainAttemptEnd stack false) s (fun t =>
        (t.dev.getStack stack).state = 2 ∧ t.dev.caps.generation = wrapAdd 32 d.caps.generation 1
        ∧ (t.dev.getStack stack).pcRetired = (d.getStack stack).pcRetired ||| 2 ^ (2 * (d.getStack stack).retrainCh)
          ||| 2 ^ (2 * (d.getStack stack).retrainCh + 1)))

/-- R288, R303, R304, R312, R313: what the memory's own commands change: a write-back mends a corrected word and poisons an uncorrectable one, patrol scrub
reads a word and finds what arose in it, a pass is counted, a soft repair is recorded; no byte of memory changes. -/
def Obligations.MemoryCareResults : Prop :=
  ∀ (s : State),
    let d := s.found
    Live s →
    (∀ w rest, d.mem.writeBacks = w :: rest → Completes .eccWriteback s (fun t =>
      t.dev.mem.errOf w.word = (if d.mem.errOf w.word = .ce then .none else if d.mem.errOf w.word = .ue then .poison else d.mem.errOf w.word) ∧ t.dev.mem.writeBacks = rest
      ∧ t.dev.mem.cells = d.mem.cells ∧ ∀ k, k ≠ w.word → t.dev.mem.errOf k = d.mem.errOf k))
    ∧ (∀ die word found, Completes (.patrolScrubRead die word found) s (fun t => t.dev.mem.cells = d.mem.cells
      ∧ (found = .clean → d.mem.errOf ((die * 2 ^ 46 + 8 * word) / 8) = .none → t.dev.mem.err = d.mem.err)
      ∧ ∀ k, k ≠ (die * 2 ^ 46 + 8 * word) / 8 → t.dev.mem.errOf k = d.mem.errOf k))
    ∧ (∀ die, Completes (.scrubPassEnd die true) s (fun t => (t.dev.getScrub die).hbmPasses = wrapAdd 16 (d.getScrub die).hbmPasses 1
        ∧ (t.dev.getScrub die).progress = 0 ∧ (t.dev.getScrub die).pending = none ∧ (t.dev.getScrub die).sramPasses = (d.getScrub die).sramPasses)
      ∧ Completes (.scrubPassEnd die false) s (fun t => (t.dev.getScrub die).sramPasses = wrapAdd 16 (d.getScrub die).sramPasses 1
        ∧ (t.dev.getScrub die).pending = none ∧ (t.dev.getScrub die).hbmPasses = (d.getScrub die).hbmPasses
        ∧ (t.dev.getScrub die).late = ((d.getScrub die).late
          || decide ((d.getScrub die).sramHours * hourNs < beatNs * (d.clock.wall - (d.getScrub die).sramSince)))))
    ∧ (∀ stack pc bank row, (d.getScrub (stack / 5)).autoSppr = true → d.caps.stackOn stack = true →
      Completes (.softRepair stack pc bank row true) s (fun t => (t.dev.getStack stack).sppr = satAdd 8 (d.getStack stack).sppr 1
        ∧ (t.dev.getStack stack).repaired = (d.getStack stack).repaired ++ [(pc, bank, row)] ∧ t.dev.mem = d.mem)
      ∧ Completes (.softRepair stack pc bank row false) s (fun t => (t.dev.getStack stack).sppr = (d.getStack stack).sppr
        ∧ (t.dev.getStack stack).unrepaired = (d.getStack stack).unrepaired ++ [(pc, d.clock.wall)] ∧ t.dev.mem = d.mem))

/-- R529, R555, R556, R561: how a mirrored pair forms and starts: the handshake that fits forms the pair that MIRROR_PAIR asks for, one that does not or
none within 1 s leaves things as they were, equal start records start both jobs, and a clean pass of a SHADOW pair makes it PAIRED. -/
def Obligations.MirrorPairResults : Prop :=
  ∀ (s : State),
    let d := s.found
    let m := d.mirror
    let noCommand := fun (t : State) => ∀ w ∈ t.dev.host.waiting, w.opcode ≠ 0x0080
    Live s →
    (∀ uid h, d.mateReady uid = true → m.cand = none → m.regs.mode = 0 → Gives (.mirrorHandshake uid h) s { d with mirror.peerCfg := some h })
    ∧ (∀ uid h r, d.mateReady uid = true → m.cand = some r → r.peerUid = uid → d.pairFits r h = true → Completes (.mirrorHandshake uid h) s (fun t =>
      t.dev.mirror.regs.mode = r.mode ∧ t.dev.mirror.regs.side = r.side ∧ t.dev.mirror.regs.partition = r.partition
      ∧ t.dev.mirror.regs.interval = r.interval ∧ t.dev.mirror.regs.ranges = r.ranges ∧ t.dev.mirror.cand = none
      ∧ (r.mode = 2 → t.dev.mirror.regs.state = 2) ∧ (r.mode ≠ 2 → noCommand t)))
    ∧ (∀ uid h r, d.mateReady uid = true → m.cand = some r → r.peerUid = uid → d.pairFits r h = false → Completes (.mirrorHandshake uid h) s (fun t =>
      t.dev.mirror.regs.mode = m.regs.mode ∧ t.dev.mirror.cand = none ∧ noCommand t))
    ∧ (m.cand.isSome = true → d.host.waiting.any (fun w => w.opcode == 0x0080 && d.due w.since 1000000000) = true →
      Completes .mirrorHandshakeTimeout s (fun t => t.dev.mirror.regs.mode = m.regs.mode ∧ t.dev.mirror.cand = none ∧ noCommand t))
    ∧ (∀ check b, m.regs.mode = 1 → m.ownStart = none → Gives (.mirrorStartRecord check b) s { d with mirror.peerStart := some (check, b) })
    ∧ (∀ check b i, m.regs.mode = 1 → m.ownStart = some (check, b) → (d.getPart m.regs.partition).image = some i →
      Completes (.mirrorStartRecord check b) s (fun t => t.dev.mirror.ownStart = none ∧ (t.dev.getPart m.regs.partition).job.state = 2
        ∧ (t.dev.getPart m.regs.partition).job.startBeat = b ∧ (t.dev.getPart m.regs.partition).job.waitStart = true))
    ∧ (∀ check b own, m.regs.mode = 1 → m.ownStart = some own → own ≠ (check, b) → Completes (.mirrorStartRecord check b) s (fun t =>
      t.dev.mirror.ownStart = none ∧ t.dev.parts = d.parts ∧ ∀ w ∈ t.dev.host.waiting, pairStart d w = false))
    ∧ (m.copying = true → m.passOver = true → m.copyFound = true → Completes .resyncPassEnd s (fun t =>
      t.dev.mirror.regs.passes = satAdd 8 m.regs.passes 1 ∧ t.dev.mirror.copyFrom = 0 ∧ t.dev.mirror.copying = true ∧ t.dev.mirror.regs.state = m.regs.state))
    ∧ (m.copying = true → m.passOver = true → m.copyFound = false → m.regs.mode = 2 → Completes .resyncPassEnd s (fun t =>
      t.dev.mirror.regs.passes = satAdd 8 m.regs.passes 1 ∧ t.dev.mirror.copying = false ∧ t.dev.mirror.regs.state = 3 ∧ noCommand t))

/-- R557, R558, R560, R561: the commit interval of a pair: its value is formed and sent, equal values commit it, a missing one makes the device go on alone;
on the STANDBY forwarded writes are applied in the order of their numbers, a missing number is skipped, and the commit is answered after them. -/
def Obligations.MirrorCommitResults : Prop :=
  ∀ (s : State),
    let d := s.found
    let m := d.mirror
    let n := m.regs.partition
    let beat := d.lastJobBeat n
    let committed := fun (t : State) (b : Nat) => t.dev.mirror.regs.jobBeat = b ∧ t.dev.mirror.regs.commits = wrapAdd 32 m.regs.commits 1
      ∧ t.dev.mirror.sent = none ∧ t.dev.mirror.regs.state = m.regs.state
    Live s →
    (m.commits = true → (d.getPart n).running = true → m.regs.interval ≤ m.count →
      (m.peerSent = none → Completes .mirrorIntervalEnd s (fun t => t.dev.mirror.sent = some (beat, d.commitValue, m.err) ∧ t.dev.mirror.crc = []
        ∧ t.dev.mirror.count = 0 ∧ t.dev.mirror.err = false ∧ t.dev.mirror.regs = m.regs))
      ∧ (∀ e, m.peerSent = some (beat, d.commitValue, e) → Completes .mirrorIntervalEnd s (fun t => committed t beat ∧ t.dev.mirror.crc = []
        ∧ t.dev.mirror.count = 0)))
    ∧ (∀ p, leAt p 0 2 = 0x0C03 → m.regs.mode = 2 → m.regs.side = 1 →
      Gives (.mirrorCommit p) s { d with mirror.answerDue := some (leAt p 2 7, leAt p 18 2) })
    ∧ (∀ p, leAt p 0 2 = 0x0C03 → m.regs.mode = 1 → m.regs.state = 3 → m.sent = none →
      Gives (.mirrorCommit p) s { d with mirror.peerSent := some (leAt p 2 7, leAt p 9 8, (leAt p 17 1).testBit 0) })
    ∧ (∀ p e, leAt p 0 2 = 0x0C03 → m.regs.mode = 1 → m.regs.state = 3 → m.sent = some (leAt p 2 7, leAt p 9 8, e) →
      Completes (.mirrorCommit p) s (fun t => committed t (leAt p 2 7)))
    ∧ (∀ own, m.sent = some own → m.regs.mode = 1 → 16 ≤ d.clock.wall - m.sentSince → Completes .mirrorCommitTimeout s (fun t =>
      t.dev.mirror.regs.state = 4 ∧ t.dev.mirror.sent = none ∧ t.dev.mirror.regs.mismatchSeen = true ∧ t.dev.parts = d.parts))
    ∧ (∀ p, d.fwdPacket p = true → formatOk p = true → m.reorder = [] → pTag p = m.nextApply → Completes (.mirrorForwardWrite p) s (fun t =>
      t.dev.mem = ((d.takeLocal (routerOf p.dest) 0 p).writeMem (pAddr p) (pData p) .engine).mem
      ∧ t.dev.mirror.nextApply = wrapAdd 16 m.nextApply 1 ∧ t.dev.mirror.reorder = []))
    ∧ (∀ p, d.fwdPacket p = true → formatOk p = true → m.reorder.length < 1024 → tagBefore (pTag p) m.nextApply = true →
      Completes (.mirrorForwardWrite p) s (fun t => t.dev.mem = d.mem ∧ t.dev.mirror.nextApply = m.nextApply ∧ t.dev.mirror.reorder = m.reorder))
    ∧ (∀ w, m.missingSince = some w → d.due w (1000 * (d.getPartFab n).timeoutUs) = true →
      m.reorder.find? (fun x => x.seq == wrapAdd 16 m.nextApply 1) = none → Completes .mirrorSeqSkip s (fun t =>
        t.dev.mirror.nextApply = wrapAdd 16 m.nextApply 1 ∧ t.dev.mirror.reorder = m.reorder ∧ t.dev.mem = d.mem))
    ∧ (∀ b q, m.regs.mode = 2 → m.regs.side = 1 → m.answerDue = some (b, q) → tagBefore q m.nextApply = true →
      Completes .mirrorCommitAnswer s (fun t => t.dev.mirror.regs.jobBeat = b ∧ t.dev.mirror.regs.commits = wrapAdd 32 m.regs.commits 1
        ∧ t.dev.mirror.answerDue = none ∧ Out.mate 2 [b] ∈ t.dev.clock.out))
    ∧ (∀ own, m.regs.mode = 2 → m.regs.side ≠ 1 → m.sent = some own → Completes .mirrorCommitAnswer s (fun t => committed t own.1))

/-- R490, R494 to R497, R501, R516, R517, R564: the estimate of a microsecond is summed over the rails, coefficients are rescaled within their bounds, TRIM
moves by the reading within −40 mV to +60 mV, a silent regulator gets its command three times, and a recalibration thaws its rail. -/
def Obligations.PowerSupplyResults : Prop :=
  ∀ (s : State) (h : Nat),
    let d := s.found
    let p := d.getHalfPow h
    let trimBy := fun (mv : Int) => max (-40) (min 60 (p.trim + mv))
    let nj := fun (raw : List Nat) (r : Nat) => raw.getD r 0 * (d.getRail r).coeff / 1000
    let noCal := fun (t : State) (kind : Nat) => ∀ w ∈ t.dev.host.waiting, calWaits kind h w = false
    Live s →
    (∀ raw gravel act sensed, Completes (.powerEstimateTick raw gravel act sensed) s (fun t =>
      t.dev.pow.est = lastTen (d.pow.est ++ [(upTo 38).foldl (fun n r => n + nj raw r) 0])
      ∧ ∀ r, r < 38 → (t.dev.getRail r).estSum = (d.getRail r).estSum + nj raw r))
    ∧ (∀ e, Completes (.coeffRecal e) s (fun t => ∀ r, r < 38 →
      ((d.getRail r).estSum = 0 → t.dev.getRail r = d.getRail r)
      ∧ ((d.getRail r).estSum ≠ 0 → (t.dev.getRail r).estSum = 0
        ∧ (t.dev.getRail r).coeff = (d.getRail r).coeff * max 800 (min 1250 (e.getD r 0 * 1000 / (d.getRail r).estSum)) / 1000)))
    ∧ (∀ margin, p.frozen = false → Completes (.marginReading h margin) s (fun t => (t.dev.getHalfPow h).trim
        = (if margin < Config.marginLow h then trimBy 5 else if Config.marginHigh h < margin ∧ 63 ≤ p.highCount then trimBy (-5) else p.trim)
      ∧ ∀ k, k ≠ h → t.dev.getHalfPow k = d.getHalfPow k))
    ∧ (∀ margin, p.frozen = true → Gives (.marginReading h margin) s d)
    ∧ Completes (.marginEmergency h) s (fun t => (t.dev.getHalfPow h).emergencies = p.emergencies + 1
      ∧ (t.dev.getHalfPow h).trim = (if p.frozen then p.trim else trimBy 10))
    ∧ (p.regulatorBad = false → p.tries < 2 →
      Gives (.avsSetpointTimeout h) s ((d.modHalfPow h (fun p => { p with tries := p.tries + 1 })).emit (.setpoint h p.setpoint)))
    ∧ (p.regulatorBad = false → 2 ≤ p.tries → Completes (.avsSetpointTimeout h) s (fun t => (t.dev.getHalfPow h).regulatorBad = true
      ∧ (t.dev.getHalfPow h).setpoint = p.setpoint ∧ t.dev.pow.capW = d.pow.capW))
    ∧ (d.flash.writesOff = false → Gives .energyCommit s
      { d with flash.energyRec := d.flash.energyRec.commit, pow.energyFlash := d.energyNow })
    ∧ (∀ kind ok, kind = 1 ∨ kind = 2 → d.host.waiting.any (calWaits kind h) = true → Completes (.calRunDone kind h ok) s (fun t => noCal t kind
      ∧ (kind = 2 → (t.dev.getHalfPow h).frozen = false ∧ (t.dev.getHalfPow h).regulatorBad = false) ∧ t.dev.flash.calRec = d.flash.calRec.commit))

/-- R502, R503, R506 to R509, R511, R512: the control step forms P10 and CAP_EFF, throttles a step when over the cap and releases one after ten steps well below
it; a throttle is repeated each second, holds that fail stop the lockstep jobs, and a guarantee is judged at the end of its window. -/
def Obligations.PowerControlResults : Prop :=
  ∀ (s : State),
    let d := s.found
    let idleGuarantees := ∀ k, d.getGuar k = {}
    let calm := d.pow.pend = [] ∧ idleGuarantees ∧ d.overHalves = []
    Live s →
    (d.pow.pend = [] → Completes .controlStep s (fun t => t.dev.pow.p10 = d.meanPower ∧ t.dev.pow.capEff = d.capNow))
    ∧ (calm → d.meanPower ≤ d.capNow * 1000 → d.pow.under < 9 → Completes .controlStep s (fun t =>
      t.dev.pow.hold = d.pow.hold ∧ t.dev.pow.levelsNext = d.pow.levelsNext))
    ∧ (calm → d.capNow * 1000 < d.meanPower → d.pow.hold < 12 → d.anyLock = true → (∀ n, (d.getPart n).live = true → (d.getPart n).lockRun = true) →
      Completes .controlStep s (fun t => t.dev.pow.hold = d.pow.hold + 1 ∧ t.dev.pow.levelsNext = d.pow.levelsNext))
    ∧ (calm → d.meanPower * 100 < 97 * d.capNow * 1000 → d.pow.under = 9 → d.pow.levelsNext = [] → 0 < d.pow.hold →
      Completes .controlStep s (fun t => t.dev.pow.hold = d.pow.hold - 1 ∧ t.dev.pow.under = 0))
    ∧ (∀ at_, d.pow.throttledSince = some at_ → d.due at_ (1000000000 * (d.pow.repeats + 1)) = true → Completes .throttleRepeat s (fun t =>
      t.dev.pow.repeats = d.pow.repeats + 1 ∧ t.dev.pow.throttledSince = some at_))
    ∧ (∀ at_, d.pow.hold12Since = some at_ → d.due at_ 100000000 = true → Completes .holdLimitExpiry s (fun t => t.dev.pow.hold12Since = none
      ∧ ∀ n, n < 8 → (d.getPart n).lockRun = true → (d.getPart n).job.stopPending = none → (t.dev.getPart n).job.stopPending = some 3))
    ∧ (∀ n kind, kind < 4 → 0 < (d.getGuar (4 * n + kind)).rank → (kind = 0 → 4096 ≤ (d.getGuar (4 * n + kind)).beats) →
      (d.getGuar (4 * n + kind)).breach = false →
      (d.shortfall n kind (d.getGuar (4 * n + kind)) = none → Completes (.guaranteeWindowEnd n kind) s (fun t =>
        (t.dev.getGuar (4 * n + kind)).breach = false ∧ (t.dev.getGuar (4 * n + kind)).beats = 0 ∧ (t.dev.getGuar (4 * n + kind)).jobBeats = 0
        ∧ (t.dev.getGuar (4 * n + kind)).overCount = 0 ∧ t.dev.evt = d.evt))
      ∧ (∀ x, d.shortfall n kind (d.getGuar (4 * n + kind)) = some x → Completes (.guaranteeWindowEnd n kind) s (fun t =>
        (t.dev.getGuar (4 * n + kind)).breach = true ∧ (t.dev.getGuar (4 * n + kind)).since = d.clock.wall ∧ (t.dev.getGuar (4 * n + kind)).beats = 0
        ∧ (t.dev.getGuar (4 * n + kind)).shortfall = max (d.getGuar (4 * n + kind)).shortfall x)))

/-- R518 to R522: temperatures: Tj and Tstack are the highest readings, a hot device gets a cap of P10 − 48 W that falls and rises in steps of 48 W, each
second above 105 °C counts, and a trip ends every job, transmitter and clock. -/
def Obligations.ThermalResults : Prop :=
  ∀ (s : State),
    let d := s.found
    let capped := fun (t : State) => t.dev.therm.cap = (if t.dev.hot = true ∧ d.therm.cap = none then some (max 800 (d.pow.p10 / 1000 - 48)) else d.therm.cap)
    (∀ u temp, Live s → Completes (.tempSample [⟨u, temp, false⟩]) s (fun t => tabGet 0 u t.dev.therm.temp = temp ∧ capped t
      ∧ t.dev.therm.excluded = d.therm.excluded ∧ t.dev.therm.tj = maxInt ((upTo 4).map t.dev.dieTemp)))
    ∧ (∀ u temp, Live s → Completes (.tempSample [⟨u, temp, true⟩]) s (fun t => u ∈ t.dev.therm.excluded ∧ t.dev.therm.temp = d.therm.temp))
    ∧ (∀ u temp, Live s → Completes (.stackTempRead [⟨u, temp, false⟩]) s (fun t => tabGet 0 u t.dev.therm.stack = temp ∧ capped t
      ∧ t.dev.therm.tstack = (upTo 20).foldl (fun m u => max m (tabGet 0 u t.dev.therm.stack)) 0))
    ∧ (∀ c, Live s → d.therm.cap = some c → Completes .thermalCapTick s (fun t => t.dev.therm.cap
      = (if d.hot then some (max 800 (c - 48)) else if d.cool then (if d.pow.capW ≤ c + 48 then none else some (c + 48)) else some c)))
    ∧ (Live s → 10500 < d.therm.tj → Completes .overLimitTick s (fun t => t.dev.therm.overLimit = d.therm.overLimit + 1))
    ∧ (Live s → d.therm.tj ≤ 10500 → Gives .overLimitTick s d)
    ∧ (∀ stack u temp, d.boot.phase.canTrip = true → d.therm.tripped = false → (if stack then (10500 : Int) else 12000) ≤ temp →
      Completes (.thermalTrip stack u temp) s (fun t => t.dev.pins.thermTripN = false ∧ t.dev.boot.phase = .tripped ∧ t.dev.therm.tripped = true
        ∧ t.dev.therm.tripCause = (if stack then 2 else 1) ∧ t.dev.therm.tripUnit = u ∧ t.dev.therm.tripTemp = temp
        ∧ (∀ n, (t.dev.getPart n).job = {} ∧ (t.dev.getPart n).image = none) ∧ ∀ e, (t.dev.getLink e).regs.state = 0))
    ∧ (d.therm.tripped = true → d.therm.tripLogged = false → d.boot.phase ≠ .noPower → Completes .thermalTripLog s (fun t =>
      t.dev.therm.tripLogged = true ∧ t.dev.evt.held = 0 ∧ t.dev.therm.tripTemp = d.therm.tripTemp))

/-- R432, R458 to R462, R472, R553, R563: what the primary's and the sub-dies' watchdogs, a takeover, the standby's restart and the activation of a firmware
bank change: who is primary, whether a standby is fit, which bank runs, and which commands end. -/
def Obligations.BedrockResults : Prop :=
  ∀ (s : State),
    let d := s.found
    let b := d.bed
    let paused := fun (t : State) => t.dev.bed.paused = true ∧ t.dev.bed.pauseCause = 1 ∧ t.dev.bed.takeoverSince = some d.clock.wall
      ∧ t.dev.bed.primary = b.primary ∧ t.dev.parts = d.parts
    Live s →
    (d.serving = true → Gives .heartbeatTick s { d with bed.heartbeat := wrapAdd 64 b.heartbeat 1 })
    ∧ (d.serving = false → Gives .heartbeatTick s d)
    ∧ (b.fwPhase = 2 → b.fwSince < d.clock.wall → Completes .fwActivateTakeover s (fun t => t.dev.bed.activeBank = b.fwBank
      ∧ t.dev.flash.activeBank = b.fwBank ∧ t.dev.flash.activeRec = d.flash.activeRec.commit ∧ t.dev.bed.paused = false ∧ t.dev.bed.fwPhase = 3
      ∧ t.dev.bed.standbyOk = false ∧ t.dev.bed.primary = b.primary ∧ ∀ w ∈ t.dev.host.waiting, w.opcode ≠ 0x0061))
    ∧ (∀ die, b.fwPhase = 3 → d.switchOrder.getD b.fwSwitch 4 = die → Completes (.fwSwitchDie die) s (fun t => t.dev.bed.fwSwitch = b.fwSwitch + 1
      ∧ tabGet 0 die t.dev.bed.fwVersion = fwVersion (d.flash.bank b.primary b.fwBank).image ∧ t.dev.bed.fwPhase = (if b.fwSwitch = 2 then 0 else 3)))
    ∧ (b.fwPhase = 2 → d.due b.fwSince 250000000 = true → Completes .fwActivateTimeout s paused)
    ∧ (b.ready = true → b.takeoverSince = none → b.fwPhase = 0 → b.standbyOk = true → Completes .primaryWatchdogExpiry s paused)
    ∧ (b.ready = true → b.takeoverSince = none → b.fwPhase = 0 → b.standbyOk = false → Completes .primaryWatchdogExpiry s (fun t =>
      t.dev.boot.phase = .selfReset ∧ t.dev.boot.record.cause = 2))
    ∧ (b.takeoverSince.isSome = true → Completes .takeoverResume s (fun t => t.dev.bed.primary = d.otherBedrock
      ∧ t.dev.bed.failovers = satAdd 8 b.failovers 1 ∧ t.dev.bed.standbyOk = false ∧ t.dev.bed.paused = false ∧ t.dev.bed.takeoverSince = none
      ∧ t.dev.sec.installer.isOpen = false ∧ t.dev.sec.maker.isOpen = false ∧ t.dev.host.parked = []
      ∧ ∀ w ∈ t.dev.host.waiting, d.uncommitted w = false))
    ∧ (∀ ok, b.standbyRestart.isSome = true → Completes (.standbyRestartDone ok) s (fun t => t.dev.bed.standbyRestart = none
      ∧ t.dev.bed.standbyOk = (ok && d.bankOk d.otherBedrock b.activeBank && b.securityMatch) ∧ t.dev.bed.primary = b.primary))
    ∧ (∀ die, b.ready = true → die = 1 ∨ die = 3 → b.subdieRestart.any (fun x => x.1 == die) = false →
      Gives (.subdieWatchdogExpiry die) s { d with bed.subdieRestart := tabSet 0 die (d.clock.wall + 1) b.subdieRestart })
    ∧ (∀ die, b.subdieRestart.any (fun x => x.1 == die) = true → d.host.parked = [] → Completes (.subdieRestartDone die) s (fun t =>
      t.dev.bed.subdieRestart.any (fun x => x.1 == die) = false ∧ tabGet 0 die t.dev.bed.subdieFails = 0 ∧ t.dev.host = d.host))
    ∧ (∀ die, 0 < tabGet 0 die b.subdieRestart → d.due (tabGet 0 die b.subdieRestart - 1) 2000000000 = true →
      (tabGet 0 die b.subdieFails = 0 → Completes (.subdieRestartTimeout die) s (fun t => tabGet 0 die t.dev.bed.subdieFails = 1
        ∧ tabGet 0 die t.dev.bed.subdieRestart = d.clock.wall + 1 ∧ ∀ w ∈ t.dev.host.waiting, waitNeeds w die = false))
      ∧ (0 < tabGet 0 die b.subdieFails → Completes (.subdieRestartTimeout die) s (fun t => t.dev.boot.phase = .selfReset
        ∧ t.dev.boot.record.cause = 3)))

/-- R28, R29, R479, R568, R582, R584: deep idle is entered and left after 64 beats each, held events are flushed, an idle session closes, and an Assay interval
closes with its value. -/
def Obligations.ManagementTimerResults : Prop :=
  ∀ (s : State),
    let d := s.found
    Live s →
    (d.idle.enabled = true → d.idle.phase = 0 → d.bed.ready = true → d.idle.awakeUntil = 0 → d.anyBusy = false →
      Gives .deepIdleEntry s { d with idle.phase := 1, idle.since := d.clock.wall, idle.exitAfter := false })
    ∧ (64 ≤ d.clock.wall - d.idle.since → d.idle.phase = 1 → d.idle.exitAfter = false →
      Gives .deepIdleTransitionDone s { d with idle.phase := 2, bed.deepIdle := true })
    ∧ (64 ≤ d.clock.wall - d.idle.since → d.idle.phase = 3 → Completes .deepIdleTransitionDone s (fun t => t.dev.idle.phase = 0
      ∧ ∀ n, n < 8 → (t.dev.getPart n).job.waitExit = false))
    ∧ (d.idle.phase = 0 → d.idle.awakeUntil ≠ 0 → d.idle.awakeUntil ≤ d.clock.wall → Gives .deepIdleAwakeExpiry s { d with idle.awakeUntil := 0 })
    ∧ (d.flash.writesOff = false → 64 ≤ d.evt.held → Completes .eventLogFlush s (fun t => t.dev.flash.eventFlushed = d.evt.seq ∧ t.dev.evt.held = 0))
    ∧ (∀ maker, (d.ringSession (if maker then 65 else 64)).isOpen = true → d.due (d.ringSession (if maker then 65 else 64)).last 1800000000000 = true →
      Completes (.sessionIdleTimeout maker) s (fun t => (t.dev.ringSession (if maker then 65 else 64)).isOpen = false
        ∧ (t.dev.ringSession (if maker then 64 else 65)) = d.ringSession (if maker then 64 else 65)))
    ∧ (∀ die unit, die < 4 → unit < 8 → (d.getAssay (8 * die + unit)).counts = true →
      (d.getAssay (8 * die + unit)).blk.interval ≤ (d.getAssay (8 * die + unit)).count → Completes (.assayIntervalClose die unit) s (fun t =>
        (t.dev.getAssay (8 * die + unit)).value = (d.getAssay (8 * die + unit)).blk.out (d.getAssay (8 * die + unit)).reg
        ∧ (t.dev.getAssay (8 * die + unit)).reg = (d.getAssay (8 * die + unit)).blk.init ∧ (t.dev.getAssay (8 * die + unit)).count = 0
        ∧ (t.dev.getAssay (8 * die + unit)).intervals = wrapAdd 24 (d.getAssay (8 * die + unit)).intervals 1
        ∧ (t.dev.getAssay (8 * die + unit)).state = (if (d.getAssay (8 * die + unit)).blk.oneShot then 3 else (d.getAssay (8 * die + unit)).state)))

/-- R476, R477, R479, R480, R483: the SPDM responder: each request of the negotiation is served in its phase and an earlier one is answered with an error;
KEY_EXCHANGE and FINISH open the session of the role that the requester proves, and requests within a session end it or set the wall time. -/
def Obligations.SpdmResults : Prop :=
  ∀ (s : State) (m : Message),
    let d := s.found
    let p := d.sec.spdm
    let open_ := fun (n : Nat) => d.serves m 4 = true ∧ m.session = none ∧ n ≤ p.phase
    let early := fun (n : Nat) => d.serves m 4 = true ∧ m.session = none ∧ p.phase < n
    let said := fun (t : State) (code : Nat) (body : List Byte) => Out.reply m.transport (Config.replyBody 5 code body) ∈ t.dev.clock.out
    let only := fun (t : State) => t.dev.sec = d.sec ∧ t.dev.mem = d.mem ∧ t.dev.flash = d.flash ∧ t.dev.host = d.host
    let refused := s.run (fun d => d.spdmError m 0x04)
    (open_ 0 → Completes (.getVersion m) s (fun t => t.dev.sec.spdm.phase = 1 ∧ t.dev.sec.spdm.pending = none ∧ said t 0x84 m.body))
    ∧ (open_ 1 → Completes (.getCapabilities m) s (fun t => t.dev.sec.spdm.phase = max 2 p.phase ∧ said t 0xE1 m.body))
    ∧ (open_ 2 → Completes (.negotiateAlgorithms m) s (fun t => t.dev.sec.spdm.phase = 3 ∧ said t 0xE3 m.body))
    ∧ (open_ 3 → Completes (.getDigests m) s (fun t => only t ∧ said t 0x81 m.body) ∧ Completes (.getCertificate m) s (fun t => only t ∧ said t 0x82 m.body)
      ∧ Completes (.challenge m) s (fun t => only t ∧ said t 0x83 (Config.identitySign (Config.sha384 (m.body ++ d.measured [1, 2, 3, 4, 5, 6, 7])))))
    ∧ (∀ i, open_ 3 → leAt m.body 1 1 = i → 0 < i → i ≤ 7 → (leAt m.body 0 1).testBit 0 = false →
      Completes (.getMeasurements m) s (fun t => only t ∧ said t 0xE0 (d.measured [i])))
    ∧ (open_ 3 → Completes (.keyExchange m) s (fun t => ∃ id, t.dev.sec.spdm.pending = some (id, m.body) ∧ id % 65536 = leAt m.body 0 2
      ∧ said t 0xE4 (natLe 4 id ++ m.body) ∧ t.dev.clock.freeCtr = d.clock.freeCtr + 1))
    ∧ (∀ id kx, d.serves m 4 = true → p.pending = some (id, kx) → Completes (.finish m) s (fun t => t.dev.sec.spdm.pending = none
      ∧ (∀ ring, d.provenRole kx m.body = some ring → (t.dev.ringSession ring).isOpen = true ∧ (t.dev.ringSession ring).id = id
        ∧ (t.dev.ringSession ring).nextSeq = 1)
      ∧ (d.provenRole kx m.body = none → t.dev.sec.installer = d.sec.installer ∧ t.dev.sec.maker = d.sec.maker)))
    ∧ (∀ ring, d.serves m 4 = true → m.session.bind d.sessionRing = some ring → Completes (.endSession m) s (fun t => (t.dev.ringSession ring).isOpen = false
        ∧ said t 0x6C m.body)
      ∧ Completes (.keyUpdate m) s (fun t => (t.dev.ringSession ring).key = (d.ringSession ring).key ∧ (t.dev.ringSession ring).last = d.clock.wall))
    ∧ (d.serves m 4 = true → m.session.bind d.sessionRing = some 64 → leAt m.body 0 1 = 1 → m.body.length = 9 →
      Completes (.vendorDefinedRequest m) s (fun t => t.dev.sec.wallBase = some (leAt m.body 1 8) ∧ t.dev.sec.wallAt = d.clock.wall))
    ∧ (early 1 → exec (.getCapabilities m) s = refused) ∧ (early 2 → exec (.negotiateAlgorithms m) s = refused)
    ∧ (early 3 → exec (.getDigests m) s = refused ∧ exec (.getCertificate m) s = refused ∧ exec (.challenge m) s = refused
      ∧ exec (.getMeasurements m) s = refused ∧ exec (.keyExchange m) s = refused)

/-- R570 to R578: the sideband: endpoint IDs are set within 8 to 254, packets are assembled, a lost arbitration repeats a packet three times, ALERT_N is
released, and every request that the device serves is answered from its registers and logs and changes nothing else; one that it does not serve is not. -/
def Obligations.SidebandResults : Prop :=
  ∀ (s : State) (m : Message),
    let d := s.found
    let q := d.mgmt
    let answers := fun (i : Instr) (channel code : Nat) (content : List Byte) => Gives i s (d.answer m channel code content)
    let lumxa := fun (i : Instr) (bytes : List Byte) => Gives i s (d.send m.transport bytes)
    (d.serves m 0 = true → (leAt m.body 0 1 % 4 < 2 → 8 ≤ leAt m.body 1 1 → leAt m.body 1 1 < 255 → Completes (.setEndpointId m) s (fun t =>
        t.dev.eid m.transport = leAt m.body 1 1 ∧ t.dev.boot = d.boot))
      ∧ answers (.getEndpointId m) 0 2 (natLe 1 (d.eid m.transport)) ∧ answers (.getEndpointUuid m) 0 3 (natLe 8 Config.deviceUid)
      ∧ answers (.getMctpVersionSupport m) 0 4 m.body ∧ answers (.getMessageTypeSupport m) 0 5 (mctpTypes.flatMap (natLe 1))
      ∧ answers (.getVendorDefinedMsgSupport m) 0 6 m.body)
    ∧ (d.serves m 0 = false → Gives (.setEndpointId m) s d ∧ Gives (.getEndpointId m) s d)
    ∧ (d.serves m 1 = true → answers (.getTid m) 1 2 [] ∧ answers (.getPldmVersion m) 1 3 m.body ∧ answers (.getPldmTypes m) 1 4 ([0, 2, 5].flatMap (natLe 1))
      ∧ answers (.getPldmCommands m) 1 5 m.body)
    ∧ (d.serves m 2 = true → answers (.getSensorReading m) 1 0x211 (sensorBytes (leAt m.body 0 2) (d.sensorReading (leAt m.body 0 2)))
      ∧ answers (.getStateSensorReadings m) 1 0x221 (sensorBytes (leAt m.body 0 2) (d.stateReading (leAt m.body 0 2)))
      ∧ answers (.getPdrRepositoryInfo m) 1 0x250 (natLe 4 q.pdrSignature) ∧ answers (.getPdr m) 1 0x251 (natLe 4 q.pdrSignature ++ m.body)
      ∧ Completes (.setEventReceiver m) s (fun t => t.dev.mgmt.eventReceiver
        = (if leAt m.body 0 1 = 0 then none else some (256 * m.transport + leAt m.body 2 1)) ∧ t.dev.mgmt.eids = q.eids))
    ∧ (d.serves m 5 = true → (leAt m.body 4 1 = 0 → lumxa (.readEvents m) (natLe 1 2 ++ natLe 1 1 ++ []) ∧ lumxa (.readAudit m) (natLe 1 4 ++ natLe 1 1 ++ []))
      ∧ (0 < leAt m.body 4 1 → leAt m.body 4 1 ≤ 15 → Completes (.readEvents m) s (fun t => t.dev.evt = d.evt ∧ t.dev.flash = d.flash)
        ∧ Completes (.readAudit m) s (fun t => t.dev.sec = d.sec ∧ t.dev.flash = d.flash))
      ∧ (0x1000 ≤ leAt m.body 0 2 → 8 ≤ leAt m.body 2 2 → leAt m.body 2 2 ≤ 960 → leAt m.body 2 2 % 8 = 0 → leAt m.body 0 2 + leAt m.body 2 2 ≤ 0x1488 →
        lumxa (.readTelemetry m) (natLe 1 1 ++ natLe 1 0
          ++ ((d.mmioBytes 0 (leAt m.body 0 2 / 8 * 8) (leAt m.body 2 2 + 8)).drop (leAt m.body 0 2 % 8)).take (leAt m.body 2 2))))
    ∧ (∀ r, d.serves m 6 = true → d.boot.records[leAt m.body 0 1]? = some r → leAt m.body 0 1 < 8 →
      lumxa (.readBootRecord m) (natLe 1 3 ++ natLe 1 0 ++ r.bytes))
    ∧ (∀ p rest, q.smbQueue = p :: rest → (q.smbTries < 3 → Gives .smbusArbitrationLoss s ({ d with mgmt.smbTries := q.smbTries + 1 }.emit (.reply 0 p)))
      ∧ (3 ≤ q.smbTries → Gives .smbusArbitrationLoss s { d with mgmt.smbTries := 0, mgmt.smbQueue := rest }))
    ∧ (d.pins.alertN = false → d.boot.phase.serves 0 = true → Completes .smbusAlertResponse s (fun t => t.dev.pins.alertN = true
      ∧ Out.reply 0 (natLe 1 (2 * (0x58 + d.pins.addrStrap % 8))) ∈ t.dev.clock.out ∧ t.dev.mgmt = q))
    ∧ (∀ transport p, transport ≠ 0 → d.boot.phase.serves 0 = true → d.transportUp transport = true → leAt p 0 1 % 16 = 1 → leAt p 1 1 = 0 →
      (p.drop 4).length = 64 → (leAt p 3 1).testBit 7 = true → (leAt p 3 1).testBit 6 = false → leAt (p.drop 4) 0 1 % 128 = 0 →
      Completes (.mctpPacketReceive transport p) s (fun t => ∃ a ∈ t.dev.mgmt.assembly, a.transport = transport ∧ a.eid = leAt p 2 1 ∧ a.bytes = p.drop 4
        ∧ a.tag = leAt p 3 1 % 16))
    ∧ (∀ transport eid mtype, Completes (.mctpAssemblyTimeout transport eid mtype) s (fun t => ∀ a, a ∈ t.dev.mgmt.assembly ↔ a ∈ q.assembly
      ∧ ¬(a.transport = transport ∧ a.eid = eid ∧ a.mtype = mtype ∧ d.due a.since 100000000 = true)))

/-- R471, R487, R532, R577, R586 to R590: firmware update over PLDM is refused outside recovery and otherwise writes the other bank and restarts the device;
the test port selects, runs and ends its tests, reads a word, and acts as BYPASS outside its unlocked scopes. -/
def Obligations.RecoveryAndTestResults : Prop :=
  ∀ (s : State) (m : Message),
    let d := s.found
    let img := d.boot.updateBody.take (512 + leAt d.boot.updateBody 12 4)
    let bank := 1 - d.flash.activeBank
    let ids := natLe 2 1 ++ natLe 4 (d.bankVersion d.flash.activeBank) ++ natLe 4 (d.bankVersion (1 - d.flash.activeBank))
    let unlocked := fun (scope : Nat) => d.sec.debugScope.testBit scope = true
    (d.serves m 3 = true → Gives (.queryDeviceIdentifiers m) s (d.answer m 1 0x501 (natLe 8 Config.deviceUid))
      ∧ Gives (.getFirmwareParameters m) s (d.answer m 1 0x502 ids))
    ∧ (d.serves m 3 = true → d.boot.phase ≠ .recovery → Gives (.transferComplete m) s (d.answer m 1 0x516 (natLe 1 unableToUpdate))
      ∧ Gives (.activateFirmware m) s (d.answer m 1 0x51A (natLe 1 unableToUpdate))
      ∧ Gives (.pldmUpdateOther m) s (d.answer m 1 (0x500 + leAt m.body 0 1) (natLe 1 unableToUpdate)))
    ∧ (d.serves m 3 = true → d.boot.phase = .recovery →
      (leAt m.body 0 1 = 0x10 → Completes (.pldmUpdateOther m) s (fun t => t.dev.boot.updateBody = [] ∧ t.dev.boot.updateVerified = false))
      ∧ (leAt m.body 0 1 = 0x15 → 32 ≤ (m.body.drop 1).length → (m.body.drop 1).length ≤ 960 → Completes (.pldmUpdateOther m) s (fun t =>
        t.dev.boot.updateBody = d.boot.updateBody ++ m.body.drop 1 ∧ t.dev.flash = d.flash))
      ∧ Completes (.transferComplete m) s (fun t => t.dev.flash = d.flash.setBank 0 bank ⟨img, (fwFlaw d.fuses.p0 img).isNone, true⟩
        ∧ t.dev.boot.updateVerified = (fwFlaw d.fuses.p0 img).isNone ∧ t.dev.boot.phase = .recovery)
      ∧ (d.boot.updateVerified = true → Completes (.activateFirmware m) s (fun t => t.dev.boot.phase = .selfReset ∧ t.dev.boot.record.cause = 5
        ∧ t.dev.flash.activeBank = bank)))
    ∧ Completes .trstNAssert s (fun t => (∀ p, p < 4 → (t.dev.getTap p).ir = 1 ∧ (t.dev.getTap p).state = (d.getTap p).state) ∧ t.dev.mem = d.mem)
    ∧ (∀ die test target, Live s → die < 4 → test < 16 → target < 64 → unlocked 1 → (d.getTap die).state ≠ 1 →
      Completes (.bistRun die (test + 16 * target)) s (fun t => (t.dev.getTap die).ir = 0x10
        ∧ (d.bistFree die test target = true → (t.dev.getTap die).state = 1 ∧ (t.dev.getTap die).test = test ∧ (t.dev.getTap die).target = target
          ∧ (t.dev.getTap die).refused = false)
        ∧ (d.bistFree die test target = false → (t.dev.getTap die).refused = true ∧ (t.dev.getTap die).state = (d.getTap die).state)))
    ∧ (∀ die v, Live s → die < 4 → d.sec.debugScope.testBit 1 = false → Gives (.bistRun die v) s (d.modTap die (fun t => { t with ir := 0xFF })))
    ∧ (∀ die n first, Live s → (d.getTap die).state = 1 → Completes (.bistDone die n first []) s (fun t =>
      (t.dev.getTap die).state = (if n = 0 then 2 else 3) ∧ (t.dev.getTap die).failures = min n 255 ∧ (t.dev.getTap die).first = first % 65536
      ∧ ((d.getTap die).test = 0 → t.dev.mem = d.mem.zeroHalf (2 * die + (d.getTap die).target))))
    ∧ (∀ die addr cyc, Live s → die < 4 → unlocked 3 → Completes (.memRead die addr cyc) s (fun t => t.dev.mem = d.mem ∧ (t.dev.getTap die).ir = 0x30))
    ∧ (∀ die tile off cyc, Live s → die < 4 → unlocked 3 → d.locate (dpaQuarry die tile off) = .quarry die tile off → off % 8 = 0 →
      dpaQuarry die tile off / 2 ^ 46 = die → dpaQuarry die tile off % 8 = 0 → d.mem.errOf (dpaQuarry die tile off / 8) = .none →
      Completes (.memRead die (dpaQuarry die tile off) cyc) s (fun t => Out.reply 3 (natLe 11 (leNat (d.mem.bytes (dpaQuarry die tile off) 8)
        + 2 ^ 64 * (Config.checkBits (BitVec.ofNat 64 (leNat (d.mem.bytes (dpaQuarry die tile off) 8)))).toNat)) ∈ t.dev.clock.out))
    ∧ (∀ die x, Live s → die < 4 → x ∈ [3, 4, 5, 6, 7] → unlocked 0 → Completes (.testModeEntry die x) s (fun t => t.dev.test.testMode = true
      ∧ (t.dev.getTap die).ir = x ∧ (d.test.testMode = false → ∀ e, (t.dev.getLink e).regs.state = 0)))

/-- R379, R549: a control-ring message with an uncorrectable word goes back to its sending stop and is sent again, the third failure resets the device with cause
LADDER, and otherwise it is delivered, or circles where its stop's queue is full; none is discarded. ControlRingLaps counts the laps. -/
def Obligations.ControlRingMessages : Prop :=
  ∀ (s : State) (die src dest id : Nat),
    let d := s.found
    let queue := tabGet 0 (64 * die + dest) d.fab.ringQueues
    let mine := fun (m : RingMsg) => m.die == die && m.src == src && m.dest == dest && m.id == id
    let laps := fun (d : Dev) (p : Nat) => d.mmioRead p 0x420 8
    Live s →
    (∀ n, d.fab.ringMsgs.find? mine = some ⟨die, src, dest, id, n⟩ → n < 2 → Completes (.controlRingMessage die src dest id true) s (fun t =>
      ⟨die, src, dest, id, n + 1⟩ ∈ t.dev.fab.ringMsgs ∧ (∀ m ∈ d.fab.ringMsgs, mine m = false → m ∈ t.dev.fab.ringMsgs)
      ∧ t.dev.fab.ringQueues = d.fab.ringQueues ∧ t.dev.clock.out = []))
    ∧ (∀ n, d.fab.ringMsgs.find? mine = some ⟨die, src, dest, id, n⟩ → 2 ≤ n → Completes (.controlRingMessage die src dest id true) s (fun t =>
      t.dev.boot.phase = .selfReset ∧ t.dev.boot.record.cause = 3))
    ∧ (queue < 8 → Completes (.controlRingMessage die src dest id false) s (fun t => t.dev.clock.out = [.ringMsg die dest id]
      ∧ tabGet 0 (64 * die + dest) t.dev.fab.ringQueues = queue + 1 ∧ (∀ m ∈ d.fab.ringMsgs, mine m = false → m ∈ t.dev.fab.ringMsgs)
      ∧ ∀ p, laps t.dev p = laps d p))
    ∧ (8 ≤ queue → Completes (.controlRingMessage die src dest id false) s (fun t => t.dev.fab.ringMsgs = d.fab.ringMsgs
      ∧ laps t.dev die = min (laps d die + 1) 0xFFFFFFFF ∧ ∀ p, p ≠ die → laps t.dev p = laps d p))
    ∧ (∀ p size v w, laps d p < 2 ^ 32 ∧ (laps Dev.reset p = 0) ∧ d.mmioWrite p 0x420 size v w = d)

/-- R446: every completion entry and every notice is 32 bytes with the fields of R446 at their places: those that a command's completion writes, at once or
after its event, and those of a notice. -/
def Obligations.CompletionEntryLayout : Prop :=
  let entry := fun (o : Out) (at_ op st tag head r0 r1 det beat : Nat) (phase notice audited : Bool) => ∃ bs : List Byte, o = .hostWrite at_ bs ∧ bs.length = 32
    ∧ leAt bs 0 2 = op % 2 ^ 16 ∧ leAt bs 2 1 = st % 2 ^ 8 ∧ leAt bs 3 1 = b2n phase + 2 * b2n notice + 4 * b2n audited ∧ leAt bs 4 2 = tag % 2 ^ 16
    ∧ leAt bs 6 2 = head % 2 ^ 16 ∧ leAt bs 8 8 = r0 % 2 ^ 64 ∧ leAt bs 16 8 = r1 % 2 ^ 64 ∧ leAt bs 24 4 = det % 2 ^ 32 ∧ leAt bs 28 4 = beat % 2 ^ 32
  ∀ (d : Dev),
    let place := fun (ring : Nat) => (d.getRing ring).cplBase + 32 * (d.getRing ring).cplTail
    (∀ (c : MbxCmd) (aud : Bool) (r : Reply), (d.getRing c.ring).takes = true → (d.getRing c.ring).discard = false → c.cplFails = false →
      ∃ o ∈ (d.finish c aud r).clock.out, entry o (place c.ring) c.opcode r.status c.tag (d.getRing c.ring).head r.r0 r.r1 r.detail d.beat.number
        (d.getRing c.ring).phase false aud)
    ∧ (∀ (sp : MbxSpec) (c : MbxCmd) (aud : Bool), ∃ w ∈ (d.hold_ sp c aud).host.waiting, w.ring = c.ring ∧ w.tag = c.tag ∧ w.opcode = c.opcode
      ∧ w.headAfter = (d.getRing c.ring).head ∧ w.audited = aud)
    ∧ (∀ (w : Waiting) (r : Reply), (d.getRing w.ring).takes = true → (d.getRing w.ring).discard = false →
      ∃ o ∈ (d.completeLate w r).clock.out, entry o (place w.ring) w.opcode r.status w.tag w.headAfter r.r0 r.r1 r.detail d.beat.number
        (d.getRing w.ring).phase false w.audited)
    ∧ (∀ ring n a b, ∃ o ∈ (d.postNotice ring ⟨n, a, b⟩).clock.out, entry o (place ring) 0xFFFF 0 0 (d.getRing ring).head a b 0 d.beat.number
      (d.getRing ring).phase true false)

/-- R140, R142, R145: the values of E8M0 codes and MXINT8 elements, and trit bytes: five digits each as a base-3 value, of which 0 to 242 are valid. -/
def Obligations.ElementCodeValues : Prop :=
  (∀ e, e < 256 → decodeScale e = (if e = 255 then .nan else .fin false 1 ((e : Int) - 127)))
  ∧ (∀ i : Int, -128 ≤ i → i ≤ 127 → decodeElem 0x0A (unsgn 8 i) = (Val.ofInt i).scale (-6))
  ∧ (∀ d, d < 3 → decodeElem 0x0D d = Val.ofInt ((d : Int) - 1))
  ∧ (∀ ds : List Nat, (∀ d ∈ ds, d < 3) → ∀ j, 5 * j + 4 < ds.length → ((tritPack ds).getD j 0).toNat
      = ds.getD (5 * j) 0 + 3 * ds.getD (5 * j + 1) 0 + 9 * ds.getD (5 * j + 2) 0 + 27 * ds.getD (5 * j + 3) 0 + 81 * ds.getD (5 * j + 4) 0)
  ∧ (∀ ds : List Nat, (∀ d ∈ ds, d < 3) → ∀ i, i < ds.length →
      (tritDigits ((tritPack ds).getD (i / 5) 0).toNat).getD (i % 5) 0 = ds.getD i 0 ∧ tritValid ((tritPack ds).getD (i / 5) 0).toNat = true)
  ∧ (∀ b, b < 256 → (tritValid b = true ↔ b ≤ 242))

/-- R311: HbmPcRetired reads one bit for each retired or unbacked pseudo-channel of its stack, agrees with CapHbmMap, is 0 at reset and ignores writes. -/
def Obligations.RetiredChannelsRegister : Prop :=
  ∀ (d : Dev) (p m n : Nat), m < 5 → n < 64 →
    let read := d.mmioRead p (0x500200 + 8 * m) 8
    read.testBit n = (d.getStack (5 * p + m)).pcRetired.testBit n ∧ (d.capHbmMap (5 * p + m)).testBit (64 + n) = read.testBit n ∧ read < 2 ^ 64
    ∧ Dev.reset.mmioRead p (0x500200 + 8 * m) 8 = 0 ∧ ∀ size v w, d.mmioWrite p (0x500200 + 8 * m) size v w = d

/-- Every instruction word of a pebble and every stream descriptor whose fields fit comes back from its encoding, which is 64 bits a word (R244 to R246, R270). -/
def Obligations.PebbleWordsRoundTrip : Prop :=
  (∀ w : PWord, w.fits → decodeP (encodeP w) = some w ∧ encodeP w < 2 ^ 64)
  ∧ (∀ e : SDesc, e.fits → ∃ q0 q1 q2 q3, encodeSDesc e = [q0, q1, q2, q3] ∧ q0 < 2 ^ 64 ∧ q1 < 2 ^ 64 ∧ q2 < 2 ^ 64 ∧ q3 < 2 ^ 64
    ∧ decodeSDesc q0 q1 q2 q3 = some e)

/-- Every slab command and every DMA descriptor whose fields fit comes back from its encoding, also as the bytes that command memory holds (R7, R202, R206 to
R215, R225). -/
def Obligations.SlabWordsRoundTrip : Prop :=
  (∀ c : SlabCmd, c.fits → decodeSlab (encodeSlab c) = some c ∧ cmdWordsOf (encodeSlab c).bytes = encodeSlab c)
  ∧ (∀ e : Desc, e.fits → decodeDesc (encodeDesc e) = some e)

/-- The command at the front of the queue takes its effect on the state with the queue's rest, whatever the command; on an empty queue the block idles (the
model's choice, log entry 1); no table word spells a command, so none is put in front. -/
def Obligations.StepRunsFront : Prop :=
  (∀ (s : State) (c : Instr) (rest : List Instr), s.pending = c :: rest → step s = exec c { s with pending := rest })
  ∧ (∀ s : State, s.pending = [] → step s = .next s)
  ∧ (∀ (s : State) (nbits w : Nat), s.withFetchWord nbits w = s)
  ∧ (∀ (s : State) (c : Instr), GoesOn { s with pending := c :: s.pending })

/-- From every state a step keeps the beat number at or below the high-water mark (R33), and it takes the front of the queue and nothing else from it. -/
def Obligations.StepKeepsBeatSafe : Prop :=
  ∀ (s t : State), BeatSafe s → step s = .next t → BeatSafe t ∧ t.pending = s.pending.tail

/-- What the machine holds right after reset, as R33, R69, R443, R451, R477 and R602 give it: stage 0 of the boot, no beat number, no open session, no partition,
no ring that runs, memory that lists nothing; the two invariants hold. -/
def Obligations.ResetState : Prop :=
  let d := State.reset.dev
  State.reset.pending = [] ∧ d.boot.phase = .stage 0 ∧ d.beat.number = 0 ∧ d.beat.highWater = 0 ∧ d.beat.state = 0 ∧ d.bed.ready = false
  ∧ (∀ n, (d.getPart n).live = false) ∧ (∀ r, (d.getRing r).state = 0 ∧ (d.getRing r).enable = false) ∧ (∀ n, (d.getLink n).regs.state = 0)
  ∧ d.sec.installer.isOpen = false ∧ d.sec.maker.isOpen = false ∧ (∀ a, d.mem.byte a = 0) ∧ (∀ k, d.cairn.values = [] ∧ (d.getChan k).round = 0)
  ∧ BeatSafe State.reset ∧ MemSafe State.reset
end

