-- ==== Sys2Proof/Laws/Tab.lean ====
section
/-! SUPPORT. Laws of the tables: a read after a write, the other keys, the canonical form. -/

namespace Sys2Proof.Machine

theorem tabGet_tabInsert_same {α : Type} (dflt v : α) (k : Nat) (t : List (Nat × α)) : tabGet dflt k (tabInsert k v t) = v := by
  induction t with
  | nil => simp [tabInsert, tabGet]
  | cons x t ih =>
    unfold tabInsert
    split
    · simp [tabGet]
    · split
      · simp [tabGet]
      · simp_all [tabGet]

theorem tabGet_tabInsert_ne {α : Type} (dflt v : α) {k j : Nat} (h : j ≠ k) (t : List (Nat × α)) :
    tabGet dflt j (tabInsert k v t) = tabGet dflt j t := by
  induction t with
  | nil => simp [tabInsert, tabGet, h]
  | cons x t ih =>
    unfold tabInsert
    split
    · simp [tabGet, h]
    · split
      · subst_vars; simp [tabGet, h]
      · simp_all [tabGet]

theorem tabGet_tabErase_same {α : Type} (dflt : α) (k : Nat) (t : List (Nat × α)) : tabGet dflt k (tabErase k t) = dflt := by
  induction t with
  | nil => rfl
  | cons x t ih =>
    unfold tabErase
    split
    · exact ih
    · simp_all [tabGet]

theorem tabGet_tabErase_ne {α : Type} (dflt : α) {k j : Nat} (h : j ≠ k) (t : List (Nat × α)) :
    tabGet dflt j (tabErase k t) = tabGet dflt j t := by
  induction t with
  | nil => rfl
  | cons x t ih =>
    unfold tabErase
    split
    · subst_vars; simp [tabGet, h, ih]
    · simp_all [tabGet]

/-- A read after a write to the same key gives the value written. -/
@[simp] theorem tabGet_tabSet_same {α : Type} [DecidableEq α] (dflt v : α) (k : Nat) (t : List (Nat × α)) :
    tabGet dflt k (tabSet dflt k v t) = v := by
  unfold tabSet
  split
  · subst_vars; exact tabGet_tabErase_same _ _ _
  · exact tabGet_tabInsert_same _ _ _ _

/-- A write leaves every other key alone. -/
theorem tabGet_tabSet_ne {α : Type} [DecidableEq α] (dflt v : α) {k j : Nat} (h : j ≠ k) (t : List (Nat × α)) :
    tabGet dflt j (tabSet dflt k v t) = tabGet dflt j t := by
  unfold tabSet
  split
  · exact tabGet_tabErase_ne _ h _
  · exact tabGet_tabInsert_ne _ _ h _

/-- What a read gives after a write, whichever the key. -/
theorem tabGet_tabSet {α : Type} [DecidableEq α] (dflt v : α) (k j : Nat) (t : List (Nat × α)) :
    tabGet dflt j (tabSet dflt k v t) = if j = k then v else tabGet dflt j t := by
  split
  · subst_vars; exact tabGet_tabSet_same _ _ _ _
  · exact tabGet_tabSet_ne _ _ ‹_› _

/-- Every key of a canonical table lies above a bound. -/
def tabAbove {α : Type} (k : Nat) : List (Nat × α) → Prop
  | [] => True
  | (j, _) :: _ => k < j

theorem tabWf_cons {α : Type} [DecidableEq α] (dflt v : α) (k : Nat) (t : List (Nat × α)) :
    tabWf dflt ((k, v) :: t) = true ↔ v ≠ dflt ∧ tabAbove k t ∧ tabWf dflt t = true := by
  cases t with
  | nil => simp [tabWf, tabAbove]
  | cons x t => simp [tabWf, tabAbove, and_assoc]

theorem tabAbove_tabInsert {α : Type} {a k : Nat} {v : α} {t : List (Nat × α)} (h : a < k) (ht : tabAbove a t) : tabAbove a (tabInsert k v t) := by
  cases t with
  | nil => simpa [tabInsert, tabAbove] using h
  | cons x t =>
    unfold tabInsert
    split
    · simpa [tabAbove] using h
    · split
      · simpa [tabAbove] using h
      · simpa [tabAbove] using ht

theorem tabWf_tabInsert {α : Type} [DecidableEq α] {dflt v : α} {k : Nat} (hv : v ≠ dflt) {t : List (Nat × α)} (h : tabWf dflt t = true) :
    tabWf dflt (tabInsert k v t) = true := by
  induction t with
  | nil => simp [tabInsert, tabWf, hv]
  | cons x t ih =>
    obtain ⟨j, w⟩ := x
    obtain ⟨hw, ha, ht⟩ := (tabWf_cons _ _ _ _).1 h
    unfold tabInsert
    split
    · exact (tabWf_cons _ _ _ _).2 ⟨hv, ‹_›, h⟩
    · split
      · subst_vars; exact (tabWf_cons _ _ _ _).2 ⟨hv, ha, ht⟩
      · exact (tabWf_cons _ _ _ _).2 ⟨hw, tabAbove_tabInsert (by omega) ha, ih ht⟩

theorem tabAbove_tabErase {α : Type} [DecidableEq α] {dflt : α} {a k : Nat} {t : List (Nat × α)} (h : tabWf dflt t = true) (ha : tabAbove a t) :
    tabAbove a (tabErase k t) := by
  induction t with
  | nil => trivial
  | cons x t ih =>
    obtain ⟨j, w⟩ := x
    obtain ⟨_, hj, ht⟩ := (tabWf_cons _ _ _ _).1 h
    unfold tabErase
    split
    · refine ih ht ?_
      cases t with
      | nil => trivial
      | cons y t => simp only [tabAbove] at *; omega
    · simpa [tabAbove] using ha

theorem tabWf_tabErase {α : Type} [DecidableEq α] {dflt : α} {k : Nat} {t : List (Nat × α)} (h : tabWf dflt t = true) :
    tabWf dflt (tabErase k t) = true := by
  induction t with
  | nil => rfl
  | cons x t ih =>
    obtain ⟨j, w⟩ := x
    obtain ⟨hw, hj, ht⟩ := (tabWf_cons _ _ _ _).1 h
    unfold tabErase
    split
    · exact ih ht
    · exact (tabWf_cons _ _ _ _).2 ⟨hw, tabAbove_tabErase ht hj, ih ht⟩

/-- A write keeps the canonical form. -/
theorem tabWf_tabSet {α : Type} [DecidableEq α] {dflt : α} {k : Nat} {v : α} {t : List (Nat × α)} (h : tabWf dflt t = true) :
    tabWf dflt (tabSet dflt k v t) = true := by
  unfold tabSet
  split
  · exact tabWf_tabErase h
  · exact tabWf_tabInsert ‹_› h

end Sys2Proof.Machine
end

