-- ==== Sys2Proof/Laws/State.lean ====
section
/-! SUPPORT. What each named update of the device leaves and gives: one lemma per field per update. -/

namespace Sys2Proof.Machine

/-! `Dev.modSlab` changes `slab.slabs` under one key. -/
@[simp] theorem modSlab_same (d : Dev) (k : Nat) (f : Slab → Slab) : (d.modSlab k f).getSlab k = f (d.getSlab k) := by simp [Dev.modSlab, Dev.getSlab]
theorem modSlab_ne (d : Dev) (f : Slab → Slab) {k j : Nat} (h : j ≠ k) : (d.modSlab k f).getSlab j = d.getSlab j := tabGet_tabSet_ne _ _ h _
@[simp] theorem modSlab_clock (d : Dev) (k : Nat) (f : Slab → Slab) : (d.modSlab k f).clock = d.clock := rfl
@[simp] theorem modSlab_pins (d : Dev) (k : Nat) (f : Slab → Slab) : (d.modSlab k f).pins = d.pins := rfl
@[simp] theorem modSlab_boot (d : Dev) (k : Nat) (f : Slab → Slab) : (d.modSlab k f).boot = d.boot := rfl
@[simp] theorem modSlab_fuses (d : Dev) (k : Nat) (f : Slab → Slab) : (d.modSlab k f).fuses = d.fuses := rfl
@[simp] theorem modSlab_flash (d : Dev) (k : Nat) (f : Slab → Slab) : (d.modSlab k f).flash = d.flash := rfl
@[simp] theorem modSlab_caps (d : Dev) (k : Nat) (f : Slab → Slab) : (d.modSlab k f).caps = d.caps := rfl
@[simp] theorem modSlab_beat (d : Dev) (k : Nat) (f : Slab → Slab) : (d.modSlab k f).beat = d.beat := rfl
@[simp] theorem modSlab_aux (d : Dev) (k : Nat) (f : Slab → Slab) : (d.modSlab k f).aux = d.aux := rfl
@[simp] theorem modSlab_dies (d : Dev) (k : Nat) (f : Slab → Slab) : (d.modSlab k f).dies = d.dies := rfl
@[simp] theorem modSlab_mesh (d : Dev) (k : Nat) (f : Slab → Slab) : (d.modSlab k f).mesh = d.mesh := rfl
@[simp] theorem modSlab_peb (d : Dev) (k : Nat) (f : Slab → Slab) : (d.modSlab k f).peb = d.peb := rfl
@[simp] theorem modSlab_mem (d : Dev) (k : Nat) (f : Slab → Slab) : (d.modSlab k f).mem = d.mem := rfl
@[simp] theorem modSlab_cairn (d : Dev) (k : Nat) (f : Slab → Slab) : (d.modSlab k f).cairn = d.cairn := rfl
@[simp] theorem modSlab_barr (d : Dev) (k : Nat) (f : Slab → Slab) : (d.modSlab k f).barr = d.barr := rfl
@[simp] theorem modSlab_fab (d : Dev) (k : Nat) (f : Slab → Slab) : (d.modSlab k f).fab = d.fab := rfl
@[simp] theorem modSlab_links (d : Dev) (k : Nat) (f : Slab → Slab) : (d.modSlab k f).links = d.links := rfl
@[simp] theorem modSlab_host (d : Dev) (k : Nat) (f : Slab → Slab) : (d.modSlab k f).host = d.host := rfl
@[simp] theorem modSlab_bed (d : Dev) (k : Nat) (f : Slab → Slab) : (d.modSlab k f).bed = d.bed := rfl
@[simp] theorem modSlab_idle (d : Dev) (k : Nat) (f : Slab → Slab) : (d.modSlab k f).idle = d.idle := rfl
@[simp] theorem modSlab_parts (d : Dev) (k : Nat) (f : Slab → Slab) : (d.modSlab k f).parts = d.parts := rfl
@[simp] theorem modSlab_sec (d : Dev) (k : Nat) (f : Slab → Slab) : (d.modSlab k f).sec = d.sec := rfl
@[simp] theorem modSlab_pow (d : Dev) (k : Nat) (f : Slab → Slab) : (d.modSlab k f).pow = d.pow := rfl
@[simp] theorem modSlab_powu (d : Dev) (k : Nat) (f : Slab → Slab) : (d.modSlab k f).powu = d.powu := rfl
@[simp] theorem modSlab_therm (d : Dev) (k : Nat) (f : Slab → Slab) : (d.modSlab k f).therm = d.therm := rfl
@[simp] theorem modSlab_evt (d : Dev) (k : Nat) (f : Slab → Slab) : (d.modSlab k f).evt = d.evt := rfl
@[simp] theorem modSlab_mirror (d : Dev) (k : Nat) (f : Slab → Slab) : (d.modSlab k f).mirror = d.mirror := rfl
@[simp] theorem modSlab_mgmt (d : Dev) (k : Nat) (f : Slab → Slab) : (d.modSlab k f).mgmt = d.mgmt := rfl
@[simp] theorem modSlab_test (d : Dev) (k : Nat) (f : Slab → Slab) : (d.modSlab k f).test = d.test := rfl
@[simp] theorem modSlab_slab_ctxs (d : Dev) (k : Nat) (f : Slab → Slab) : (d.modSlab k f).slab.ctxs = d.slab.ctxs := rfl
@[simp] theorem modSlab_getSCtx (d : Dev) (k j : Nat) (f : Slab → Slab) : (d.modSlab k f).getSCtx j = d.getSCtx j := rfl
@[simp] theorem modSlab_getHalf (d : Dev) (k j : Nat) (f : Slab → Slab) : (d.modSlab k f).getHalf j = d.getHalf j := rfl
@[simp] theorem modSlab_getSeam (d : Dev) (k j : Nat) (f : Slab → Slab) : (d.modSlab k f).getSeam j = d.getSeam j := rfl
@[simp] theorem modSlab_getCluster (d : Dev) (k j : Nat) (f : Slab → Slab) : (d.modSlab k f).getCluster j = d.getCluster j := rfl
@[simp] theorem modSlab_getPebble (d : Dev) (k j : Nat) (f : Slab → Slab) : (d.modSlab k f).getPebble j = d.getPebble j := rfl
@[simp] theorem modSlab_getPCtx (d : Dev) (k j : Nat) (f : Slab → Slab) : (d.modSlab k f).getPCtx j = d.getPCtx j := rfl
@[simp] theorem modSlab_getLink (d : Dev) (k j : Nat) (f : Slab → Slab) : (d.modSlab k f).getLink j = d.getLink j := rfl
@[simp] theorem modSlab_getRing (d : Dev) (k j : Nat) (f : Slab → Slab) : (d.modSlab k f).getRing j = d.getRing j := rfl
@[simp] theorem modSlab_getPart (d : Dev) (k j : Nat) (f : Slab → Slab) : (d.modSlab k f).getPart j = d.getPart j := rfl
@[simp] theorem modSlab_getCairnTile (d : Dev) (k j : Nat) (f : Slab → Slab) : (d.modSlab k f).getCairnTile j = d.getCairnTile j := rfl
@[simp] theorem modSlab_getCMap (d : Dev) (k j : Nat) (f : Slab → Slab) : (d.modSlab k f).getCMap j = d.getCMap j := rfl
@[simp] theorem modSlab_getChan (d : Dev) (k j : Nat) (f : Slab → Slab) : (d.modSlab k f).getChan j = d.getChan j := rfl
@[simp] theorem modSlab_getTree (d : Dev) (k j : Nat) (f : Slab → Slab) : (d.modSlab k f).getTree j = d.getTree j := rfl
@[simp] theorem modSlab_getStack (d : Dev) (k j : Nat) (f : Slab → Slab) : (d.modSlab k f).getStack j = d.getStack j := rfl
@[simp] theorem modSlab_getRegion (d : Dev) (k j : Nat) (f : Slab → Slab) : (d.modSlab k f).getRegion j = d.getRegion j := rfl
@[simp] theorem modSlab_getScrub (d : Dev) (k j : Nat) (f : Slab → Slab) : (d.modSlab k f).getScrub j = d.getScrub j := rfl
@[simp] theorem modSlab_getAssay (d : Dev) (k j : Nat) (f : Slab → Slab) : (d.modSlab k f).getAssay j = d.getAssay j := rfl
@[simp] theorem modSlab_getTap (d : Dev) (k j : Nat) (f : Slab → Slab) : (d.modSlab k f).getTap j = d.getTap j := rfl
@[simp] theorem modSlab_getHalfPow (d : Dev) (k j : Nat) (f : Slab → Slab) : (d.modSlab k f).getHalfPow j = d.getHalfPow j := rfl
@[simp] theorem modSlab_getRail (d : Dev) (k j : Nat) (f : Slab → Slab) : (d.modSlab k f).getRail j = d.getRail j := rfl
@[simp] theorem modSlab_getGuar (d : Dev) (k j : Nat) (f : Slab → Slab) : (d.modSlab k f).getGuar j = d.getGuar j := rfl
@[simp] theorem modSlab_getBPort (d : Dev) (k j : Nat) (f : Slab → Slab) : (d.modSlab k f).getBPort j = d.getBPort j := rfl
@[simp] theorem modSlab_getPartFab (d : Dev) (k j : Nat) (f : Slab → Slab) : (d.modSlab k f).getPartFab j = d.getPartFab j := rfl
@[simp] theorem modSlab_getDrop (d : Dev) (k j : Nat) (f : Slab → Slab) : (d.modSlab k f).getDrop j = d.getDrop j := rfl
@[simp] theorem modSlab_getPortCnt (d : Dev) (k j : Nat) (f : Slab → Slab) : (d.modSlab k f).getPortCnt j = d.getPortCnt j := rfl
@[simp] theorem modSlab_getWindow (d : Dev) (k j : Nat) (f : Slab → Slab) : (d.modSlab k f).getWindow j = d.getWindow j := rfl

/-! `Dev.modSCtx` changes `slab.ctxs` under one key. -/
@[simp] theorem modSCtx_same (d : Dev) (k : Nat) (f : SCtx → SCtx) : (d.modSCtx k f).getSCtx k = f (d.getSCtx k) := by simp [Dev.modSCtx, Dev.getSCtx]
theorem modSCtx_ne (d : Dev) (f : SCtx → SCtx) {k j : Nat} (h : j ≠ k) : (d.modSCtx k f).getSCtx j = d.getSCtx j := tabGet_tabSet_ne _ _ h _
@[simp] theorem modSCtx_clock (d : Dev) (k : Nat) (f : SCtx → SCtx) : (d.modSCtx k f).clock = d.clock := rfl
@[simp] theorem modSCtx_pins (d : Dev) (k : Nat) (f : SCtx → SCtx) : (d.modSCtx k f).pins = d.pins := rfl
@[simp] theorem modSCtx_boot (d : Dev) (k : Nat) (f : SCtx → SCtx) : (d.modSCtx k f).boot = d.boot := rfl
@[simp] theorem modSCtx_fuses (d : Dev) (k : Nat) (f : SCtx → SCtx) : (d.modSCtx k f).fuses = d.fuses := rfl
@[simp] theorem modSCtx_flash (d : Dev) (k : Nat) (f : SCtx → SCtx) : (d.modSCtx k f).flash = d.flash := rfl
@[simp] theorem modSCtx_caps (d : Dev) (k : Nat) (f : SCtx → SCtx) : (d.modSCtx k f).caps = d.caps := rfl
@[simp] theorem modSCtx_beat (d : Dev) (k : Nat) (f : SCtx → SCtx) : (d.modSCtx k f).beat = d.beat := rfl
@[simp] theorem modSCtx_aux (d : Dev) (k : Nat) (f : SCtx → SCtx) : (d.modSCtx k f).aux = d.aux := rfl
@[simp] theorem modSCtx_dies (d : Dev) (k : Nat) (f : SCtx → SCtx) : (d.modSCtx k f).dies = d.dies := rfl
@[simp] theorem modSCtx_mesh (d : Dev) (k : Nat) (f : SCtx → SCtx) : (d.modSCtx k f).mesh = d.mesh := rfl
@[simp] theorem modSCtx_peb (d : Dev) (k : Nat) (f : SCtx → SCtx) : (d.modSCtx k f).peb = d.peb := rfl
@[simp] theorem modSCtx_mem (d : Dev) (k : Nat) (f : SCtx → SCtx) : (d.modSCtx k f).mem = d.mem := rfl
@[simp] theorem modSCtx_cairn (d : Dev) (k : Nat) (f : SCtx → SCtx) : (d.modSCtx k f).cairn = d.cairn := rfl
@[simp] theorem modSCtx_barr (d : Dev) (k : Nat) (f : SCtx → SCtx) : (d.modSCtx k f).barr = d.barr := rfl
@[simp] theorem modSCtx_fab (d : Dev) (k : Nat) (f : SCtx → SCtx) : (d.modSCtx k f).fab = d.fab := rfl
@[simp] theorem modSCtx_links (d : Dev) (k : Nat) (f : SCtx → SCtx) : (d.modSCtx k f).links = d.links := rfl
@[simp] theorem modSCtx_host (d : Dev) (k : Nat) (f : SCtx → SCtx) : (d.modSCtx k f).host = d.host := rfl
@[simp] theorem modSCtx_bed (d : Dev) (k : Nat) (f : SCtx → SCtx) : (d.modSCtx k f).bed = d.bed := rfl
@[simp] theorem modSCtx_idle (d : Dev) (k : Nat) (f : SCtx → SCtx) : (d.modSCtx k f).idle = d.idle := rfl
@[simp] theorem modSCtx_parts (d : Dev) (k : Nat) (f : SCtx → SCtx) : (d.modSCtx k f).parts = d.parts := rfl
@[simp] theorem modSCtx_sec (d : Dev) (k : Nat) (f : SCtx → SCtx) : (d.modSCtx k f).sec = d.sec := rfl
@[simp] theorem modSCtx_pow (d : Dev) (k : Nat) (f : SCtx → SCtx) : (d.modSCtx k f).pow = d.pow := rfl
@[simp] theorem modSCtx_powu (d : Dev) (k : Nat) (f : SCtx → SCtx) : (d.modSCtx k f).powu = d.powu := rfl
@[simp] theorem modSCtx_therm (d : Dev) (k : Nat) (f : SCtx → SCtx) : (d.modSCtx k f).therm = d.therm := rfl
@[simp] theorem modSCtx_evt (d : Dev) (k : Nat) (f : SCtx → SCtx) : (d.modSCtx k f).evt = d.evt := rfl
@[simp] theorem modSCtx_mirror (d : Dev) (k : Nat) (f : SCtx → SCtx) : (d.modSCtx k f).mirror = d.mirror := rfl
@[simp] theorem modSCtx_mgmt (d : Dev) (k : Nat) (f : SCtx → SCtx) : (d.modSCtx k f).mgmt = d.mgmt := rfl
@[simp] theorem modSCtx_test (d : Dev) (k : Nat) (f : SCtx → SCtx) : (d.modSCtx k f).test = d.test := rfl
@[simp] theorem modSCtx_slab_slabs (d : Dev) (k : Nat) (f : SCtx → SCtx) : (d.modSCtx k f).slab.slabs = d.slab.slabs := rfl
@[simp] theorem modSCtx_getSlab (d : Dev) (k j : Nat) (f : SCtx → SCtx) : (d.modSCtx k f).getSlab j = d.getSlab j := rfl
@[simp] theorem modSCtx_getHalf (d : Dev) (k j : Nat) (f : SCtx → SCtx) : (d.modSCtx k f).getHalf j = d.getHalf j := rfl
@[simp] theorem modSCtx_getSeam (d : Dev) (k j : Nat) (f : SCtx → SCtx) : (d.modSCtx k f).getSeam j = d.getSeam j := rfl
@[simp] theorem modSCtx_getCluster (d : Dev) (k j : Nat) (f : SCtx → SCtx) : (d.modSCtx k f).getCluster j = d.getCluster j := rfl
@[simp] theorem modSCtx_getPebble (d : Dev) (k j : Nat) (f : SCtx → SCtx) : (d.modSCtx k f).getPebble j = d.getPebble j := rfl
@[simp] theorem modSCtx_getPCtx (d : Dev) (k j : Nat) (f : SCtx → SCtx) : (d.modSCtx k f).getPCtx j = d.getPCtx j := rfl
@[simp] theorem modSCtx_getLink (d : Dev) (k j : Nat) (f : SCtx → SCtx) : (d.modSCtx k f).getLink j = d.getLink j := rfl
@[simp] theorem modSCtx_getRing (d : Dev) (k j : Nat) (f : SCtx → SCtx) : (d.modSCtx k f).getRing j = d.getRing j := rfl
@[simp] theorem modSCtx_getPart (d : Dev) (k j : Nat) (f : SCtx → SCtx) : (d.modSCtx k f).getPart j = d.getPart j := rfl
@[simp] theorem modSCtx_getCairnTile (d : Dev) (k j : Nat) (f : SCtx → SCtx) : (d.modSCtx k f).getCairnTile j = d.getCairnTile j := rfl
@[simp] theorem modSCtx_getCMap (d : Dev) (k j : Nat) (f : SCtx → SCtx) : (d.modSCtx k f).getCMap j = d.getCMap j := rfl
@[simp] theorem modSCtx_getChan (d : Dev) (k j : Nat) (f : SCtx → SCtx) : (d.modSCtx k f).getChan j = d.getChan j := rfl
@[simp] theorem modSCtx_getTree (d : Dev) (k j : Nat) (f : SCtx → SCtx) : (d.modSCtx k f).getTree j = d.getTree j := rfl
@[simp] theorem modSCtx_getStack (d : Dev) (k j : Nat) (f : SCtx → SCtx) : (d.modSCtx k f).getStack j = d.getStack j := rfl
@[simp] theorem modSCtx_getRegion (d : Dev) (k j : Nat) (f : SCtx → SCtx) : (d.modSCtx k f).getRegion j = d.getRegion j := rfl
@[simp] theorem modSCtx_getScrub (d : Dev) (k j : Nat) (f : SCtx → SCtx) : (d.modSCtx k f).getScrub j = d.getScrub j := rfl
@[simp] theorem modSCtx_getAssay (d : Dev) (k j : Nat) (f : SCtx → SCtx) : (d.modSCtx k f).getAssay j = d.getAssay j := rfl
@[simp] theorem modSCtx_getTap (d : Dev) (k j : Nat) (f : SCtx → SCtx) : (d.modSCtx k f).getTap j = d.getTap j := rfl
@[simp] theorem modSCtx_getHalfPow (d : Dev) (k j : Nat) (f : SCtx → SCtx) : (d.modSCtx k f).getHalfPow j = d.getHalfPow j := rfl
@[simp] theorem modSCtx_getRail (d : Dev) (k j : Nat) (f : SCtx → SCtx) : (d.modSCtx k f).getRail j = d.getRail j := rfl
@[simp] theorem modSCtx_getGuar (d : Dev) (k j : Nat) (f : SCtx → SCtx) : (d.modSCtx k f).getGuar j = d.getGuar j := rfl
@[simp] theorem modSCtx_getBPort (d : Dev) (k j : Nat) (f : SCtx → SCtx) : (d.modSCtx k f).getBPort j = d.getBPort j := rfl
@[simp] theorem modSCtx_getPartFab (d : Dev) (k j : Nat) (f : SCtx → SCtx) : (d.modSCtx k f).getPartFab j = d.getPartFab j := rfl
@[simp] theorem modSCtx_getDrop (d : Dev) (k j : Nat) (f : SCtx → SCtx) : (d.modSCtx k f).getDrop j = d.getDrop j := rfl
@[simp] theorem modSCtx_getPortCnt (d : Dev) (k j : Nat) (f : SCtx → SCtx) : (d.modSCtx k f).getPortCnt j = d.getPortCnt j := rfl
@[simp] theorem modSCtx_getWindow (d : Dev) (k j : Nat) (f : SCtx → SCtx) : (d.modSCtx k f).getWindow j = d.getWindow j := rfl

/-! `Dev.modHalf` changes `dies.halves` under one key. -/
@[simp] theorem modHalf_same (d : Dev) (k : Nat) (f : Half → Half) : (d.modHalf k f).getHalf k = f (d.getHalf k) := by simp [Dev.modHalf, Dev.getHalf]
theorem modHalf_ne (d : Dev) (f : Half → Half) {k j : Nat} (h : j ≠ k) : (d.modHalf k f).getHalf j = d.getHalf j := tabGet_tabSet_ne _ _ h _
@[simp] theorem modHalf_clock (d : Dev) (k : Nat) (f : Half → Half) : (d.modHalf k f).clock = d.clock := rfl
@[simp] theorem modHalf_pins (d : Dev) (k : Nat) (f : Half → Half) : (d.modHalf k f).pins = d.pins := rfl
@[simp] theorem modHalf_boot (d : Dev) (k : Nat) (f : Half → Half) : (d.modHalf k f).boot = d.boot := rfl
@[simp] theorem modHalf_fuses (d : Dev) (k : Nat) (f : Half → Half) : (d.modHalf k f).fuses = d.fuses := rfl
@[simp] theorem modHalf_flash (d : Dev) (k : Nat) (f : Half → Half) : (d.modHalf k f).flash = d.flash := rfl
@[simp] theorem modHalf_caps (d : Dev) (k : Nat) (f : Half → Half) : (d.modHalf k f).caps = d.caps := rfl
@[simp] theorem modHalf_beat (d : Dev) (k : Nat) (f : Half → Half) : (d.modHalf k f).beat = d.beat := rfl
@[simp] theorem modHalf_aux (d : Dev) (k : Nat) (f : Half → Half) : (d.modHalf k f).aux = d.aux := rfl
@[simp] theorem modHalf_mesh (d : Dev) (k : Nat) (f : Half → Half) : (d.modHalf k f).mesh = d.mesh := rfl
@[simp] theorem modHalf_slab (d : Dev) (k : Nat) (f : Half → Half) : (d.modHalf k f).slab = d.slab := rfl
@[simp] theorem modHalf_peb (d : Dev) (k : Nat) (f : Half → Half) : (d.modHalf k f).peb = d.peb := rfl
@[simp] theorem modHalf_mem (d : Dev) (k : Nat) (f : Half → Half) : (d.modHalf k f).mem = d.mem := rfl
@[simp] theorem modHalf_cairn (d : Dev) (k : Nat) (f : Half → Half) : (d.modHalf k f).cairn = d.cairn := rfl
@[simp] theorem modHalf_barr (d : Dev) (k : Nat) (f : Half → Half) : (d.modHalf k f).barr = d.barr := rfl
@[simp] theorem modHalf_fab (d : Dev) (k : Nat) (f : Half → Half) : (d.modHalf k f).fab = d.fab := rfl
@[simp] theorem modHalf_links (d : Dev) (k : Nat) (f : Half → Half) : (d.modHalf k f).links = d.links := rfl
@[simp] theorem modHalf_host (d : Dev) (k : Nat) (f : Half → Half) : (d.modHalf k f).host = d.host := rfl
@[simp] theorem modHalf_bed (d : Dev) (k : Nat) (f : Half → Half) : (d.modHalf k f).bed = d.bed := rfl
@[simp] theorem modHalf_idle (d : Dev) (k : Nat) (f : Half → Half) : (d.modHalf k f).idle = d.idle := rfl
@[simp] theorem modHalf_parts (d : Dev) (k : Nat) (f : Half → Half) : (d.modHalf k f).parts = d.parts := rfl
@[simp] theorem modHalf_sec (d : Dev) (k : Nat) (f : Half → Half) : (d.modHalf k f).sec = d.sec := rfl
@[simp] theorem modHalf_pow (d : Dev) (k : Nat) (f : Half → Half) : (d.modHalf k f).pow = d.pow := rfl
@[simp] theorem modHalf_powu (d : Dev) (k : Nat) (f : Half → Half) : (d.modHalf k f).powu = d.powu := rfl
@[simp] theorem modHalf_therm (d : Dev) (k : Nat) (f : Half → Half) : (d.modHalf k f).therm = d.therm := rfl
@[simp] theorem modHalf_evt (d : Dev) (k : Nat) (f : Half → Half) : (d.modHalf k f).evt = d.evt := rfl
@[simp] theorem modHalf_mirror (d : Dev) (k : Nat) (f : Half → Half) : (d.modHalf k f).mirror = d.mirror := rfl
@[simp] theorem modHalf_mgmt (d : Dev) (k : Nat) (f : Half → Half) : (d.modHalf k f).mgmt = d.mgmt := rfl
@[simp] theorem modHalf_test (d : Dev) (k : Nat) (f : Half → Half) : (d.modHalf k f).test = d.test := rfl
@[simp] theorem modHalf_dies_seams (d : Dev) (k : Nat) (f : Half → Half) : (d.modHalf k f).dies.seams = d.dies.seams := rfl
@[simp] theorem modHalf_getSlab (d : Dev) (k j : Nat) (f : Half → Half) : (d.modHalf k f).getSlab j = d.getSlab j := rfl
@[simp] theorem modHalf_getSCtx (d : Dev) (k j : Nat) (f : Half → Half) : (d.modHalf k f).getSCtx j = d.getSCtx j := rfl
@[simp] theorem modHalf_getSeam (d : Dev) (k j : Nat) (f : Half → Half) : (d.modHalf k f).getSeam j = d.getSeam j := rfl
@[simp] theorem modHalf_getCluster (d : Dev) (k j : Nat) (f : Half → Half) : (d.modHalf k f).getCluster j = d.getCluster j := rfl
@[simp] theorem modHalf_getPebble (d : Dev) (k j : Nat) (f : Half → Half) : (d.modHalf k f).getPebble j = d.getPebble j := rfl
@[simp] theorem modHalf_getPCtx (d : Dev) (k j : Nat) (f : Half → Half) : (d.modHalf k f).getPCtx j = d.getPCtx j := rfl
@[simp] theorem modHalf_getLink (d : Dev) (k j : Nat) (f : Half → Half) : (d.modHalf k f).getLink j = d.getLink j := rfl
@[simp] theorem modHalf_getRing (d : Dev) (k j : Nat) (f : Half → Half) : (d.modHalf k f).getRing j = d.getRing j := rfl
@[simp] theorem modHalf_getPart (d : Dev) (k j : Nat) (f : Half → Half) : (d.modHalf k f).getPart j = d.getPart j := rfl
@[simp] theorem modHalf_getCairnTile (d : Dev) (k j : Nat) (f : Half → Half) : (d.modHalf k f).getCairnTile j = d.getCairnTile j := rfl
@[simp] theorem modHalf_getCMap (d : Dev) (k j : Nat) (f : Half → Half) : (d.modHalf k f).getCMap j = d.getCMap j := rfl
@[simp] theorem modHalf_getChan (d : Dev) (k j : Nat) (f : Half → Half) : (d.modHalf k f).getChan j = d.getChan j := rfl
@[simp] theorem modHalf_getTree (d : Dev) (k j : Nat) (f : Half → Half) : (d.modHalf k f).getTree j = d.getTree j := rfl
@[simp] theorem modHalf_getStack (d : Dev) (k j : Nat) (f : Half → Half) : (d.modHalf k f).getStack j = d.getStack j := rfl
@[simp] theorem modHalf_getRegion (d : Dev) (k j : Nat) (f : Half → Half) : (d.modHalf k f).getRegion j = d.getRegion j := rfl
@[simp] theorem modHalf_getScrub (d : Dev) (k j : Nat) (f : Half → Half) : (d.modHalf k f).getScrub j = d.getScrub j := rfl
@[simp] theorem modHalf_getAssay (d : Dev) (k j : Nat) (f : Half → Half) : (d.modHalf k f).getAssay j = d.getAssay j := rfl
@[simp] theorem modHalf_getTap (d : Dev) (k j : Nat) (f : Half → Half) : (d.modHalf k f).getTap j = d.getTap j := rfl
@[simp] theorem modHalf_getHalfPow (d : Dev) (k j : Nat) (f : Half → Half) : (d.modHalf k f).getHalfPow j = d.getHalfPow j := rfl
@[simp] theorem modHalf_getRail (d : Dev) (k j : Nat) (f : Half → Half) : (d.modHalf k f).getRail j = d.getRail j := rfl
@[simp] theorem modHalf_getGuar (d : Dev) (k j : Nat) (f : Half → Half) : (d.modHalf k f).getGuar j = d.getGuar j := rfl
@[simp] theorem modHalf_getBPort (d : Dev) (k j : Nat) (f : Half → Half) : (d.modHalf k f).getBPort j = d.getBPort j := rfl
@[simp] theorem modHalf_getPartFab (d : Dev) (k j : Nat) (f : Half → Half) : (d.modHalf k f).getPartFab j = d.getPartFab j := rfl
@[simp] theorem modHalf_getDrop (d : Dev) (k j : Nat) (f : Half → Half) : (d.modHalf k f).getDrop j = d.getDrop j := rfl
@[simp] theorem modHalf_getPortCnt (d : Dev) (k j : Nat) (f : Half → Half) : (d.modHalf k f).getPortCnt j = d.getPortCnt j := rfl
@[simp] theorem modHalf_getWindow (d : Dev) (k j : Nat) (f : Half → Half) : (d.modHalf k f).getWindow j = d.getWindow j := rfl

/-! `Dev.modSeam` changes `dies.seams` under one key. -/
@[simp] theorem modSeam_same (d : Dev) (k : Nat) (f : Seam → Seam) : (d.modSeam k f).getSeam k = f (d.getSeam k) := by simp [Dev.modSeam, Dev.getSeam]
theorem modSeam_ne (d : Dev) (f : Seam → Seam) {k j : Nat} (h : j ≠ k) : (d.modSeam k f).getSeam j = d.getSeam j := tabGet_tabSet_ne _ _ h _
@[simp] theorem modSeam_clock (d : Dev) (k : Nat) (f : Seam → Seam) : (d.modSeam k f).clock = d.clock := rfl
@[simp] theorem modSeam_pins (d : Dev) (k : Nat) (f : Seam → Seam) : (d.modSeam k f).pins = d.pins := rfl
@[simp] theorem modSeam_boot (d : Dev) (k : Nat) (f : Seam → Seam) : (d.modSeam k f).boot = d.boot := rfl
@[simp] theorem modSeam_fuses (d : Dev) (k : Nat) (f : Seam → Seam) : (d.modSeam k f).fuses = d.fuses := rfl
@[simp] theorem modSeam_flash (d : Dev) (k : Nat) (f : Seam → Seam) : (d.modSeam k f).flash = d.flash := rfl
@[simp] theorem modSeam_caps (d : Dev) (k : Nat) (f : Seam → Seam) : (d.modSeam k f).caps = d.caps := rfl
@[simp] theorem modSeam_beat (d : Dev) (k : Nat) (f : Seam → Seam) : (d.modSeam k f).beat = d.beat := rfl
@[simp] theorem modSeam_aux (d : Dev) (k : Nat) (f : Seam → Seam) : (d.modSeam k f).aux = d.aux := rfl
@[simp] theorem modSeam_mesh (d : Dev) (k : Nat) (f : Seam → Seam) : (d.modSeam k f).mesh = d.mesh := rfl
@[simp] theorem modSeam_slab (d : Dev) (k : Nat) (f : Seam → Seam) : (d.modSeam k f).slab = d.slab := rfl
@[simp] theorem modSeam_peb (d : Dev) (k : Nat) (f : Seam → Seam) : (d.modSeam k f).peb = d.peb := rfl
@[simp] theorem modSeam_mem (d : Dev) (k : Nat) (f : Seam → Seam) : (d.modSeam k f).mem = d.mem := rfl
@[simp] theorem modSeam_cairn (d : Dev) (k : Nat) (f : Seam → Seam) : (d.modSeam k f).cairn = d.cairn := rfl
@[simp] theorem modSeam_barr (d : Dev) (k : Nat) (f : Seam → Seam) : (d.modSeam k f).barr = d.barr := rfl
@[simp] theorem modSeam_fab (d : Dev) (k : Nat) (f : Seam → Seam) : (d.modSeam k f).fab = d.fab := rfl
@[simp] theorem modSeam_links (d : Dev) (k : Nat) (f : Seam → Seam) : (d.modSeam k f).links = d.links := rfl
@[simp] theorem modSeam_host (d : Dev) (k : Nat) (f : Seam → Seam) : (d.modSeam k f).host = d.host := rfl
@[simp] theorem modSeam_bed (d : Dev) (k : Nat) (f : Seam → Seam) : (d.modSeam k f).bed = d.bed := rfl
@[simp] theorem modSeam_idle (d : Dev) (k : Nat) (f : Seam → Seam) : (d.modSeam k f).idle = d.idle := rfl
@[simp] theorem modSeam_parts (d : Dev) (k : Nat) (f : Seam → Seam) : (d.modSeam k f).parts = d.parts := rfl
@[simp] theorem modSeam_sec (d : Dev) (k : Nat) (f : Seam → Seam) : (d.modSeam k f).sec = d.sec := rfl
@[simp] theorem modSeam_pow (d : Dev) (k : Nat) (f : Seam → Seam) : (d.modSeam k f).pow = d.pow := rfl
@[simp] theorem modSeam_powu (d : Dev) (k : Nat) (f : Seam → Seam) : (d.modSeam k f).powu = d.powu := rfl
@[simp] theorem modSeam_therm (d : Dev) (k : Nat) (f : Seam → Seam) : (d.modSeam k f).therm = d.therm := rfl
@[simp] theorem modSeam_evt (d : Dev) (k : Nat) (f : Seam → Seam) : (d.modSeam k f).evt = d.evt := rfl
@[simp] theorem modSeam_mirror (d : Dev) (k : Nat) (f : Seam → Seam) : (d.modSeam k f).mirror = d.mirror := rfl
@[simp] theorem modSeam_mgmt (d : Dev) (k : Nat) (f : Seam → Seam) : (d.modSeam k f).mgmt = d.mgmt := rfl
@[simp] theorem modSeam_test (d : Dev) (k : Nat) (f : Seam → Seam) : (d.modSeam k f).test = d.test := rfl
@[simp] theorem modSeam_dies_halves (d : Dev) (k : Nat) (f : Seam → Seam) : (d.modSeam k f).dies.halves = d.dies.halves := rfl
@[simp] theorem modSeam_getSlab (d : Dev) (k j : Nat) (f : Seam → Seam) : (d.modSeam k f).getSlab j = d.getSlab j := rfl
@[simp] theorem modSeam_getSCtx (d : Dev) (k j : Nat) (f : Seam → Seam) : (d.modSeam k f).getSCtx j = d.getSCtx j := rfl
@[simp] theorem modSeam_getHalf (d : Dev) (k j : Nat) (f : Seam → Seam) : (d.modSeam k f).getHalf j = d.getHalf j := rfl
@[simp] theorem modSeam_getCluster (d : Dev) (k j : Nat) (f : Seam → Seam) : (d.modSeam k f).getCluster j = d.getCluster j := rfl
@[simp] theorem modSeam_getPebble (d : Dev) (k j : Nat) (f : Seam → Seam) : (d.modSeam k f).getPebble j = d.getPebble j := rfl
@[simp] theorem modSeam_getPCtx (d : Dev) (k j : Nat) (f : Seam → Seam) : (d.modSeam k f).getPCtx j = d.getPCtx j := rfl
@[simp] theorem modSeam_getLink (d : Dev) (k j : Nat) (f : Seam → Seam) : (d.modSeam k f).getLink j = d.getLink j := rfl
@[simp] theorem modSeam_getRing (d : Dev) (k j : Nat) (f : Seam → Seam) : (d.modSeam k f).getRing j = d.getRing j := rfl
@[simp] theorem modSeam_getPart (d : Dev) (k j : Nat) (f : Seam → Seam) : (d.modSeam k f).getPart j = d.getPart j := rfl
@[simp] theorem modSeam_getCairnTile (d : Dev) (k j : Nat) (f : Seam → Seam) : (d.modSeam k f).getCairnTile j = d.getCairnTile j := rfl
@[simp] theorem modSeam_getCMap (d : Dev) (k j : Nat) (f : Seam → Seam) : (d.modSeam k f).getCMap j = d.getCMap j := rfl
@[simp] theorem modSeam_getChan (d : Dev) (k j : Nat) (f : Seam → Seam) : (d.modSeam k f).getChan j = d.getChan j := rfl
@[simp] theorem modSeam_getTree (d : Dev) (k j : Nat) (f : Seam → Seam) : (d.modSeam k f).getTree j = d.getTree j := rfl
@[simp] theorem modSeam_getStack (d : Dev) (k j : Nat) (f : Seam → Seam) : (d.modSeam k f).getStack j = d.getStack j := rfl
@[simp] theorem modSeam_getRegion (d : Dev) (k j : Nat) (f : Seam → Seam) : (d.modSeam k f).getRegion j = d.getRegion j := rfl
@[simp] theorem modSeam_getScrub (d : Dev) (k j : Nat) (f : Seam → Seam) : (d.modSeam k f).getScrub j = d.getScrub j := rfl
@[simp] theorem modSeam_getAssay (d : Dev) (k j : Nat) (f : Seam → Seam) : (d.modSeam k f).getAssay j = d.getAssay j := rfl
@[simp] theorem modSeam_getTap (d : Dev) (k j : Nat) (f : Seam → Seam) : (d.modSeam k f).getTap j = d.getTap j := rfl
@[simp] theorem modSeam_getHalfPow (d : Dev) (k j : Nat) (f : Seam → Seam) : (d.modSeam k f).getHalfPow j = d.getHalfPow j := rfl
@[simp] theorem modSeam_getRail (d : Dev) (k j : Nat) (f : Seam → Seam) : (d.modSeam k f).getRail j = d.getRail j := rfl
@[simp] theorem modSeam_getGuar (d : Dev) (k j : Nat) (f : Seam → Seam) : (d.modSeam k f).getGuar j = d.getGuar j := rfl
@[simp] theorem modSeam_getBPort (d : Dev) (k j : Nat) (f : Seam → Seam) : (d.modSeam k f).getBPort j = d.getBPort j := rfl
@[simp] theorem modSeam_getPartFab (d : Dev) (k j : Nat) (f : Seam → Seam) : (d.modSeam k f).getPartFab j = d.getPartFab j := rfl
@[simp] theorem modSeam_getDrop (d : Dev) (k j : Nat) (f : Seam → Seam) : (d.modSeam k f).getDrop j = d.getDrop j := rfl
@[simp] theorem modSeam_getPortCnt (d : Dev) (k j : Nat) (f : Seam → Seam) : (d.modSeam k f).getPortCnt j = d.getPortCnt j := rfl
@[simp] theorem modSeam_getWindow (d : Dev) (k j : Nat) (f : Seam → Seam) : (d.modSeam k f).getWindow j = d.getWindow j := rfl

/-! `Dev.modCluster` changes `peb.clusters` under one key. -/
@[simp] theorem modCluster_same (d : Dev) (k : Nat) (f : Cluster → Cluster) : (d.modCluster k f).getCluster k = f (d.getCluster k) := by simp [Dev.modCluster, Dev.getCluster]
theorem modCluster_ne (d : Dev) (f : Cluster → Cluster) {k j : Nat} (h : j ≠ k) : (d.modCluster k f).getCluster j = d.getCluster j := tabGet_tabSet_ne _ _ h _
@[simp] theorem modCluster_clock (d : Dev) (k : Nat) (f : Cluster → Cluster) : (d.modCluster k f).clock = d.clock := rfl
@[simp] theorem modCluster_pins (d : Dev) (k : Nat) (f : Cluster → Cluster) : (d.modCluster k f).pins = d.pins := rfl
@[simp] theorem modCluster_boot (d : Dev) (k : Nat) (f : Cluster → Cluster) : (d.modCluster k f).boot = d.boot := rfl
@[simp] theorem modCluster_fuses (d : Dev) (k : Nat) (f : Cluster → Cluster) : (d.modCluster k f).fuses = d.fuses := rfl
@[simp] theorem modCluster_flash (d : Dev) (k : Nat) (f : Cluster → Cluster) : (d.modCluster k f).flash = d.flash := rfl
@[simp] theorem modCluster_caps (d : Dev) (k : Nat) (f : Cluster → Cluster) : (d.modCluster k f).caps = d.caps := rfl
@[simp] theorem modCluster_beat (d : Dev) (k : Nat) (f : Cluster → Cluster) : (d.modCluster k f).beat = d.beat := rfl
@[simp] theorem modCluster_aux (d : Dev) (k : Nat) (f : Cluster → Cluster) : (d.modCluster k f).aux = d.aux := rfl
@[simp] theorem modCluster_dies (d : Dev) (k : Nat) (f : Cluster → Cluster) : (d.modCluster k f).dies = d.dies := rfl
@[simp] theorem modCluster_mesh (d : Dev) (k : Nat) (f : Cluster → Cluster) : (d.modCluster k f).mesh = d.mesh := rfl
@[simp] theorem modCluster_slab (d : Dev) (k : Nat) (f : Cluster → Cluster) : (d.modCluster k f).slab = d.slab := rfl
@[simp] theorem modCluster_mem (d : Dev) (k : Nat) (f : Cluster → Cluster) : (d.modCluster k f).mem = d.mem := rfl
@[simp] theorem modCluster_cairn (d : Dev) (k : Nat) (f : Cluster → Cluster) : (d.modCluster k f).cairn = d.cairn := rfl
@[simp] theorem modCluster_barr (d : Dev) (k : Nat) (f : Cluster → Cluster) : (d.modCluster k f).barr = d.barr := rfl
@[simp] theorem modCluster_fab (d : Dev) (k : Nat) (f : Cluster → Cluster) : (d.modCluster k f).fab = d.fab := rfl
@[simp] theorem modCluster_links (d : Dev) (k : Nat) (f : Cluster → Cluster) : (d.modCluster k f).links = d.links := rfl
@[simp] theorem modCluster_host (d : Dev) (k : Nat) (f : Cluster → Cluster) : (d.modCluster k f).host = d.host := rfl
@[simp] theorem modCluster_bed (d : Dev) (k : Nat) (f : Cluster → Cluster) : (d.modCluster k f).bed = d.bed := rfl
@[simp] theorem modCluster_idle (d : Dev) (k : Nat) (f : Cluster → Cluster) : (d.modCluster k f).idle = d.idle := rfl
@[simp] theorem modCluster_parts (d : Dev) (k : Nat) (f : Cluster → Cluster) : (d.modCluster k f).parts = d.parts := rfl
@[simp] theorem modCluster_sec (d : Dev) (k : Nat) (f : Cluster → Cluster) : (d.modCluster k f).sec = d.sec := rfl
@[simp] theorem modCluster_pow (d : Dev) (k : Nat) (f : Cluster → Cluster) : (d.modCluster k f).pow = d.pow := rfl
@[simp] theorem modCluster_powu (d : Dev) (k : Nat) (f : Cluster → Cluster) : (d.modCluster k f).powu = d.powu := rfl
@[simp] theorem modCluster_therm (d : Dev) (k : Nat) (f : Cluster → Cluster) : (d.modCluster k f).therm = d.therm := rfl
@[simp] theorem modCluster_evt (d : Dev) (k : Nat) (f : Cluster → Cluster) : (d.modCluster k f).evt = d.evt := rfl
@[simp] theorem modCluster_mirror (d : Dev) (k : Nat) (f : Cluster → Cluster) : (d.modCluster k f).mirror = d.mirror := rfl
@[simp] theorem modCluster_mgmt (d : Dev) (k : Nat) (f : Cluster → Cluster) : (d.modCluster k f).mgmt = d.mgmt := rfl
@[simp] theorem modCluster_test (d : Dev) (k : Nat) (f : Cluster → Cluster) : (d.modCluster k f).test = d.test := rfl
@[simp] theorem modCluster_peb_pebbles (d : Dev) (k : Nat) (f : Cluster → Cluster) : (d.modCluster k f).peb.pebbles = d.peb.pebbles := rfl
@[simp] theorem modCluster_peb_ctxs (d : Dev) (k : Nat) (f : Cluster → Cluster) : (d.modCluster k f).peb.ctxs = d.peb.ctxs := rfl
@[simp] theorem modCluster_getSlab (d : Dev) (k j : Nat) (f : Cluster → Cluster) : (d.modCluster k f).getSlab j = d.getSlab j := rfl
@[simp] theorem modCluster_getSCtx (d : Dev) (k j : Nat) (f : Cluster → Cluster) : (d.modCluster k f).getSCtx j = d.getSCtx j := rfl
@[simp] theorem modCluster_getHalf (d : Dev) (k j : Nat) (f : Cluster → Cluster) : (d.modCluster k f).getHalf j = d.getHalf j := rfl
@[simp] theorem modCluster_getSeam (d : Dev) (k j : Nat) (f : Cluster → Cluster) : (d.modCluster k f).getSeam j = d.getSeam j := rfl
@[simp] theorem modCluster_getPebble (d : Dev) (k j : Nat) (f : Cluster → Cluster) : (d.modCluster k f).getPebble j = d.getPebble j := rfl
@[simp] theorem modCluster_getPCtx (d : Dev) (k j : Nat) (f : Cluster → Cluster) : (d.modCluster k f).getPCtx j = d.getPCtx j := rfl
@[simp] theorem modCluster_getLink (d : Dev) (k j : Nat) (f : Cluster → Cluster) : (d.modCluster k f).getLink j = d.getLink j := rfl
@[simp] theorem modCluster_getRing (d : Dev) (k j : Nat) (f : Cluster → Cluster) : (d.modCluster k f).getRing j = d.getRing j := rfl
@[simp] theorem modCluster_getPart (d : Dev) (k j : Nat) (f : Cluster → Cluster) : (d.modCluster k f).getPart j = d.getPart j := rfl
@[simp] theorem modCluster_getCairnTile (d : Dev) (k j : Nat) (f : Cluster → Cluster) : (d.modCluster k f).getCairnTile j = d.getCairnTile j := rfl
@[simp] theorem modCluster_getCMap (d : Dev) (k j : Nat) (f : Cluster → Cluster) : (d.modCluster k f).getCMap j = d.getCMap j := rfl
@[simp] theorem modCluster_getChan (d : Dev) (k j : Nat) (f : Cluster → Cluster) : (d.modCluster k f).getChan j = d.getChan j := rfl
@[simp] theorem modCluster_getTree (d : Dev) (k j : Nat) (f : Cluster → Cluster) : (d.modCluster k f).getTree j = d.getTree j := rfl
@[simp] theorem modCluster_getStack (d : Dev) (k j : Nat) (f : Cluster → Cluster) : (d.modCluster k f).getStack j = d.getStack j := rfl
@[simp] theorem modCluster_getRegion (d : Dev) (k j : Nat) (f : Cluster → Cluster) : (d.modCluster k f).getRegion j = d.getRegion j := rfl
@[simp] theorem modCluster_getScrub (d : Dev) (k j : Nat) (f : Cluster → Cluster) : (d.modCluster k f).getScrub j = d.getScrub j := rfl
@[simp] theorem modCluster_getAssay (d : Dev) (k j : Nat) (f : Cluster → Cluster) : (d.modCluster k f).getAssay j = d.getAssay j := rfl
@[simp] theorem modCluster_getTap (d : Dev) (k j : Nat) (f : Cluster → Cluster) : (d.modCluster k f).getTap j = d.getTap j := rfl
@[simp] theorem modCluster_getHalfPow (d : Dev) (k j : Nat) (f : Cluster → Cluster) : (d.modCluster k f).getHalfPow j = d.getHalfPow j := rfl
@[simp] theorem modCluster_getRail (d : Dev) (k j : Nat) (f : Cluster → Cluster) : (d.modCluster k f).getRail j = d.getRail j := rfl
@[simp] theorem modCluster_getGuar (d : Dev) (k j : Nat) (f : Cluster → Cluster) : (d.modCluster k f).getGuar j = d.getGuar j := rfl
@[simp] theorem modCluster_getBPort (d : Dev) (k j : Nat) (f : Cluster → Cluster) : (d.modCluster k f).getBPort j = d.getBPort j := rfl
@[simp] theorem modCluster_getPartFab (d : Dev) (k j : Nat) (f : Cluster → Cluster) : (d.modCluster k f).getPartFab j = d.getPartFab j := rfl
@[simp] theorem modCluster_getDrop (d : Dev) (k j : Nat) (f : Cluster → Cluster) : (d.modCluster k f).getDrop j = d.getDrop j := rfl
@[simp] theorem modCluster_getPortCnt (d : Dev) (k j : Nat) (f : Cluster → Cluster) : (d.modCluster k f).getPortCnt j = d.getPortCnt j := rfl
@[simp] theorem modCluster_getWindow (d : Dev) (k j : Nat) (f : Cluster → Cluster) : (d.modCluster k f).getWindow j = d.getWindow j := rfl

/-! `Dev.modPebble` changes `peb.pebbles` under one key. -/
@[simp] theorem modPebble_same (d : Dev) (k : Nat) (f : Pebble → Pebble) : (d.modPebble k f).getPebble k = f (d.getPebble k) := by simp [Dev.modPebble, Dev.getPebble]
theorem modPebble_ne (d : Dev) (f : Pebble → Pebble) {k j : Nat} (h : j ≠ k) : (d.modPebble k f).getPebble j = d.getPebble j := tabGet_tabSet_ne _ _ h _
@[simp] theorem modPebble_clock (d : Dev) (k : Nat) (f : Pebble → Pebble) : (d.modPebble k f).clock = d.clock := rfl
@[simp] theorem modPebble_pins (d : Dev) (k : Nat) (f : Pebble → Pebble) : (d.modPebble k f).pins = d.pins := rfl
@[simp] theorem modPebble_boot (d : Dev) (k : Nat) (f : Pebble → Pebble) : (d.modPebble k f).boot = d.boot := rfl
@[simp] theorem modPebble_fuses (d : Dev) (k : Nat) (f : Pebble → Pebble) : (d.modPebble k f).fuses = d.fuses := rfl
@[simp] theorem modPebble_flash (d : Dev) (k : Nat) (f : Pebble → Pebble) : (d.modPebble k f).flash = d.flash := rfl
@[simp] theorem modPebble_caps (d : Dev) (k : Nat) (f : Pebble → Pebble) : (d.modPebble k f).caps = d.caps := rfl
@[simp] theorem modPebble_beat (d : Dev) (k : Nat) (f : Pebble → Pebble) : (d.modPebble k f).beat = d.beat := rfl
@[simp] theorem modPebble_aux (d : Dev) (k : Nat) (f : Pebble → Pebble) : (d.modPebble k f).aux = d.aux := rfl
@[simp] theorem modPebble_dies (d : Dev) (k : Nat) (f : Pebble → Pebble) : (d.modPebble k f).dies = d.dies := rfl
@[simp] theorem modPebble_mesh (d : Dev) (k : Nat) (f : Pebble → Pebble) : (d.modPebble k f).mesh = d.mesh := rfl
@[simp] theorem modPebble_slab (d : Dev) (k : Nat) (f : Pebble → Pebble) : (d.modPebble k f).slab = d.slab := rfl
@[simp] theorem modPebble_mem (d : Dev) (k : Nat) (f : Pebble → Pebble) : (d.modPebble k f).mem = d.mem := rfl
@[simp] theorem modPebble_cairn (d : Dev) (k : Nat) (f : Pebble → Pebble) : (d.modPebble k f).cairn = d.cairn := rfl
@[simp] theorem modPebble_barr (d : Dev) (k : Nat) (f : Pebble → Pebble) : (d.modPebble k f).barr = d.barr := rfl
@[simp] theorem modPebble_fab (d : Dev) (k : Nat) (f : Pebble → Pebble) : (d.modPebble k f).fab = d.fab := rfl
@[simp] theorem modPebble_links (d : Dev) (k : Nat) (f : Pebble → Pebble) : (d.modPebble k f).links = d.links := rfl
@[simp] theorem modPebble_host (d : Dev) (k : Nat) (f : Pebble → Pebble) : (d.modPebble k f).host = d.host := rfl
@[simp] theorem modPebble_bed (d : Dev) (k : Nat) (f : Pebble → Pebble) : (d.modPebble k f).bed = d.bed := rfl
@[simp] theorem modPebble_idle (d : Dev) (k : Nat) (f : Pebble → Pebble) : (d.modPebble k f).idle = d.idle := rfl
@[simp] theorem modPebble_parts (d : Dev) (k : Nat) (f : Pebble → Pebble) : (d.modPebble k f).parts = d.parts := rfl
@[simp] theorem modPebble_sec (d : Dev) (k : Nat) (f : Pebble → Pebble) : (d.modPebble k f).sec = d.sec := rfl
@[simp] theorem modPebble_pow (d : Dev) (k : Nat) (f : Pebble → Pebble) : (d.modPebble k f).pow = d.pow := rfl
@[simp] theorem modPebble_powu (d : Dev) (k : Nat) (f : Pebble → Pebble) : (d.modPebble k f).powu = d.powu := rfl
@[simp] theorem modPebble_therm (d : Dev) (k : Nat) (f : Pebble → Pebble) : (d.modPebble k f).therm = d.therm := rfl
@[simp] theorem modPebble_evt (d : Dev) (k : Nat) (f : Pebble → Pebble) : (d.modPebble k f).evt = d.evt := rfl
@[simp] theorem modPebble_mirror (d : Dev) (k : Nat) (f : Pebble → Pebble) : (d.modPebble k f).mirror = d.mirror := rfl
@[simp] theorem modPebble_mgmt (d : Dev) (k : Nat) (f : Pebble → Pebble) : (d.modPebble k f).mgmt = d.mgmt := rfl
@[simp] theorem modPebble_test (d : Dev) (k : Nat) (f : Pebble → Pebble) : (d.modPebble k f).test = d.test := rfl
@[simp] theorem modPebble_peb_clusters (d : Dev) (k : Nat) (f : Pebble → Pebble) : (d.modPebble k f).peb.clusters = d.peb.clusters := rfl
@[simp] theorem modPebble_peb_ctxs (d : Dev) (k : Nat) (f : Pebble → Pebble) : (d.modPebble k f).peb.ctxs = d.peb.ctxs := rfl
@[simp] theorem modPebble_getSlab (d : Dev) (k j : Nat) (f : Pebble → Pebble) : (d.modPebble k f).getSlab j = d.getSlab j := rfl
@[simp] theorem modPebble_getSCtx (d : Dev) (k j : Nat) (f : Pebble → Pebble) : (d.modPebble k f).getSCtx j = d.getSCtx j := rfl
@[simp] theorem modPebble_getHalf (d : Dev) (k j : Nat) (f : Pebble → Pebble) : (d.modPebble k f).getHalf j = d.getHalf j := rfl
@[simp] theorem modPebble_getSeam (d : Dev) (k j : Nat) (f : Pebble → Pebble) : (d.modPebble k f).getSeam j = d.getSeam j := rfl
@[simp] theorem modPebble_getCluster (d : Dev) (k j : Nat) (f : Pebble → Pebble) : (d.modPebble k f).getCluster j = d.getCluster j := rfl
@[simp] theorem modPebble_getPCtx (d : Dev) (k j : Nat) (f : Pebble → Pebble) : (d.modPebble k f).getPCtx j = d.getPCtx j := rfl
@[simp] theorem modPebble_getLink (d : Dev) (k j : Nat) (f : Pebble → Pebble) : (d.modPebble k f).getLink j = d.getLink j := rfl
@[simp] theorem modPebble_getRing (d : Dev) (k j : Nat) (f : Pebble → Pebble) : (d.modPebble k f).getRing j = d.getRing j := rfl
@[simp] theorem modPebble_getPart (d : Dev) (k j : Nat) (f : Pebble → Pebble) : (d.modPebble k f).getPart j = d.getPart j := rfl
@[simp] theorem modPebble_getCairnTile (d : Dev) (k j : Nat) (f : Pebble → Pebble) : (d.modPebble k f).getCairnTile j = d.getCairnTile j := rfl
@[simp] theorem modPebble_getCMap (d : Dev) (k j : Nat) (f : Pebble → Pebble) : (d.modPebble k f).getCMap j = d.getCMap j := rfl
@[simp] theorem modPebble_getChan (d : Dev) (k j : Nat) (f : Pebble → Pebble) : (d.modPebble k f).getChan j = d.getChan j := rfl
@[simp] theorem modPebble_getTree (d : Dev) (k j : Nat) (f : Pebble → Pebble) : (d.modPebble k f).getTree j = d.getTree j := rfl
@[simp] theorem modPebble_getStack (d : Dev) (k j : Nat) (f : Pebble → Pebble) : (d.modPebble k f).getStack j = d.getStack j := rfl
@[simp] theorem modPebble_getRegion (d : Dev) (k j : Nat) (f : Pebble → Pebble) : (d.modPebble k f).getRegion j = d.getRegion j := rfl
@[simp] theorem modPebble_getScrub (d : Dev) (k j : Nat) (f : Pebble → Pebble) : (d.modPebble k f).getScrub j = d.getScrub j := rfl
@[simp] theorem modPebble_getAssay (d : Dev) (k j : Nat) (f : Pebble → Pebble) : (d.modPebble k f).getAssay j = d.getAssay j := rfl
@[simp] theorem modPebble_getTap (d : Dev) (k j : Nat) (f : Pebble → Pebble) : (d.modPebble k f).getTap j = d.getTap j := rfl
@[simp] theorem modPebble_getHalfPow (d : Dev) (k j : Nat) (f : Pebble → Pebble) : (d.modPebble k f).getHalfPow j = d.getHalfPow j := rfl
@[simp] theorem modPebble_getRail (d : Dev) (k j : Nat) (f : Pebble → Pebble) : (d.modPebble k f).getRail j = d.getRail j := rfl
@[simp] theorem modPebble_getGuar (d : Dev) (k j : Nat) (f : Pebble → Pebble) : (d.modPebble k f).getGuar j = d.getGuar j := rfl
@[simp] theorem modPebble_getBPort (d : Dev) (k j : Nat) (f : Pebble → Pebble) : (d.modPebble k f).getBPort j = d.getBPort j := rfl
@[simp] theorem modPebble_getPartFab (d : Dev) (k j : Nat) (f : Pebble → Pebble) : (d.modPebble k f).getPartFab j = d.getPartFab j := rfl
@[simp] theorem modPebble_getDrop (d : Dev) (k j : Nat) (f : Pebble → Pebble) : (d.modPebble k f).getDrop j = d.getDrop j := rfl
@[simp] theorem modPebble_getPortCnt (d : Dev) (k j : Nat) (f : Pebble → Pebble) : (d.modPebble k f).getPortCnt j = d.getPortCnt j := rfl
@[simp] theorem modPebble_getWindow (d : Dev) (k j : Nat) (f : Pebble → Pebble) : (d.modPebble k f).getWindow j = d.getWindow j := rfl

/-! `Dev.modPCtx` changes `peb.ctxs` under one key. -/
@[simp] theorem modPCtx_same (d : Dev) (k : Nat) (f : PCtx → PCtx) : (d.modPCtx k f).getPCtx k = f (d.getPCtx k) := by simp [Dev.modPCtx, Dev.getPCtx]
theorem modPCtx_ne (d : Dev) (f : PCtx → PCtx) {k j : Nat} (h : j ≠ k) : (d.modPCtx k f).getPCtx j = d.getPCtx j := tabGet_tabSet_ne _ _ h _
@[simp] theorem modPCtx_clock (d : Dev) (k : Nat) (f : PCtx → PCtx) : (d.modPCtx k f).clock = d.clock := rfl
@[simp] theorem modPCtx_pins (d : Dev) (k : Nat) (f : PCtx → PCtx) : (d.modPCtx k f).pins = d.pins := rfl
@[simp] theorem modPCtx_boot (d : Dev) (k : Nat) (f : PCtx → PCtx) : (d.modPCtx k f).boot = d.boot := rfl
@[simp] theorem modPCtx_fuses (d : Dev) (k : Nat) (f : PCtx → PCtx) : (d.modPCtx k f).fuses = d.fuses := rfl
@[simp] theorem modPCtx_flash (d : Dev) (k : Nat) (f : PCtx → PCtx) : (d.modPCtx k f).flash = d.flash := rfl
@[simp] theorem modPCtx_caps (d : Dev) (k : Nat) (f : PCtx → PCtx) : (d.modPCtx k f).caps = d.caps := rfl
@[simp] theorem modPCtx_beat (d : Dev) (k : Nat) (f : PCtx → PCtx) : (d.modPCtx k f).beat = d.beat := rfl
@[simp] theorem modPCtx_aux (d : Dev) (k : Nat) (f : PCtx → PCtx) : (d.modPCtx k f).aux = d.aux := rfl
@[simp] theorem modPCtx_dies (d : Dev) (k : Nat) (f : PCtx → PCtx) : (d.modPCtx k f).dies = d.dies := rfl
@[simp] theorem modPCtx_mesh (d : Dev) (k : Nat) (f : PCtx → PCtx) : (d.modPCtx k f).mesh = d.mesh := rfl
@[simp] theorem modPCtx_slab (d : Dev) (k : Nat) (f : PCtx → PCtx) : (d.modPCtx k f).slab = d.slab := rfl
@[simp] theorem modPCtx_mem (d : Dev) (k : Nat) (f : PCtx → PCtx) : (d.modPCtx k f).mem = d.mem := rfl
@[simp] theorem modPCtx_cairn (d : Dev) (k : Nat) (f : PCtx → PCtx) : (d.modPCtx k f).cairn = d.cairn := rfl
@[simp] theorem modPCtx_barr (d : Dev) (k : Nat) (f : PCtx → PCtx) : (d.modPCtx k f).barr = d.barr := rfl
@[simp] theorem modPCtx_fab (d : Dev) (k : Nat) (f : PCtx → PCtx) : (d.modPCtx k f).fab = d.fab := rfl
@[simp] theorem modPCtx_links (d : Dev) (k : Nat) (f : PCtx → PCtx) : (d.modPCtx k f).links = d.links := rfl
@[simp] theorem modPCtx_host (d : Dev) (k : Nat) (f : PCtx → PCtx) : (d.modPCtx k f).host = d.host := rfl
@[simp] theorem modPCtx_bed (d : Dev) (k : Nat) (f : PCtx → PCtx) : (d.modPCtx k f).bed = d.bed := rfl
@[simp] theorem modPCtx_idle (d : Dev) (k : Nat) (f : PCtx → PCtx) : (d.modPCtx k f).idle = d.idle := rfl
@[simp] theorem modPCtx_parts (d : Dev) (k : Nat) (f : PCtx → PCtx) : (d.modPCtx k f).parts = d.parts := rfl
@[simp] theorem modPCtx_sec (d : Dev) (k : Nat) (f : PCtx → PCtx) : (d.modPCtx k f).sec = d.sec := rfl
@[simp] theorem modPCtx_pow (d : Dev) (k : Nat) (f : PCtx → PCtx) : (d.modPCtx k f).pow = d.pow := rfl
@[simp] theorem modPCtx_powu (d : Dev) (k : Nat) (f : PCtx → PCtx) : (d.modPCtx k f).powu = d.powu := rfl
@[simp] theorem modPCtx_therm (d : Dev) (k : Nat) (f : PCtx → PCtx) : (d.modPCtx k f).therm = d.therm := rfl
@[simp] theorem modPCtx_evt (d : Dev) (k : Nat) (f : PCtx → PCtx) : (d.modPCtx k f).evt = d.evt := rfl
@[simp] theorem modPCtx_mirror (d : Dev) (k : Nat) (f : PCtx → PCtx) : (d.modPCtx k f).mirror = d.mirror := rfl
@[simp] theorem modPCtx_mgmt (d : Dev) (k : Nat) (f : PCtx → PCtx) : (d.modPCtx k f).mgmt = d.mgmt := rfl
@[simp] theorem modPCtx_test (d : Dev) (k : Nat) (f : PCtx → PCtx) : (d.modPCtx k f).test = d.test := rfl
@[simp] theorem modPCtx_peb_clusters (d : Dev) (k : Nat) (f : PCtx → PCtx) : (d.modPCtx k f).peb.clusters = d.peb.clusters := rfl
@[simp] theorem modPCtx_peb_pebbles (d : Dev) (k : Nat) (f : PCtx → PCtx) : (d.modPCtx k f).peb.pebbles = d.peb.pebbles := rfl
@[simp] theorem modPCtx_getSlab (d : Dev) (k j : Nat) (f : PCtx → PCtx) : (d.modPCtx k f).getSlab j = d.getSlab j := rfl
@[simp] theorem modPCtx_getSCtx (d : Dev) (k j : Nat) (f : PCtx → PCtx) : (d.modPCtx k f).getSCtx j = d.getSCtx j := rfl
@[simp] theorem modPCtx_getHalf (d : Dev) (k j : Nat) (f : PCtx → PCtx) : (d.modPCtx k f).getHalf j = d.getHalf j := rfl
@[simp] theorem modPCtx_getSeam (d : Dev) (k j : Nat) (f : PCtx → PCtx) : (d.modPCtx k f).getSeam j = d.getSeam j := rfl
@[simp] theorem modPCtx_getCluster (d : Dev) (k j : Nat) (f : PCtx → PCtx) : (d.modPCtx k f).getCluster j = d.getCluster j := rfl
@[simp] theorem modPCtx_getPebble (d : Dev) (k j : Nat) (f : PCtx → PCtx) : (d.modPCtx k f).getPebble j = d.getPebble j := rfl
@[simp] theorem modPCtx_getLink (d : Dev) (k j : Nat) (f : PCtx → PCtx) : (d.modPCtx k f).getLink j = d.getLink j := rfl
@[simp] theorem modPCtx_getRing (d : Dev) (k j : Nat) (f : PCtx → PCtx) : (d.modPCtx k f).getRing j = d.getRing j := rfl
@[simp] theorem modPCtx_getPart (d : Dev) (k j : Nat) (f : PCtx → PCtx) : (d.modPCtx k f).getPart j = d.getPart j := rfl
@[simp] theorem modPCtx_getCairnTile (d : Dev) (k j : Nat) (f : PCtx → PCtx) : (d.modPCtx k f).getCairnTile j = d.getCairnTile j := rfl
@[simp] theorem modPCtx_getCMap (d : Dev) (k j : Nat) (f : PCtx → PCtx) : (d.modPCtx k f).getCMap j = d.getCMap j := rfl
@[simp] theorem modPCtx_getChan (d : Dev) (k j : Nat) (f : PCtx → PCtx) : (d.modPCtx k f).getChan j = d.getChan j := rfl
@[simp] theorem modPCtx_getTree (d : Dev) (k j : Nat) (f : PCtx → PCtx) : (d.modPCtx k f).getTree j = d.getTree j := rfl
@[simp] theorem modPCtx_getStack (d : Dev) (k j : Nat) (f : PCtx → PCtx) : (d.modPCtx k f).getStack j = d.getStack j := rfl
@[simp] theorem modPCtx_getRegion (d : Dev) (k j : Nat) (f : PCtx → PCtx) : (d.modPCtx k f).getRegion j = d.getRegion j := rfl
@[simp] theorem modPCtx_getScrub (d : Dev) (k j : Nat) (f : PCtx → PCtx) : (d.modPCtx k f).getScrub j = d.getScrub j := rfl
@[simp] theorem modPCtx_getAssay (d : Dev) (k j : Nat) (f : PCtx → PCtx) : (d.modPCtx k f).getAssay j = d.getAssay j := rfl
@[simp] theorem modPCtx_getTap (d : Dev) (k j : Nat) (f : PCtx → PCtx) : (d.modPCtx k f).getTap j = d.getTap j := rfl
@[simp] theorem modPCtx_getHalfPow (d : Dev) (k j : Nat) (f : PCtx → PCtx) : (d.modPCtx k f).getHalfPow j = d.getHalfPow j := rfl
@[simp] theorem modPCtx_getRail (d : Dev) (k j : Nat) (f : PCtx → PCtx) : (d.modPCtx k f).getRail j = d.getRail j := rfl
@[simp] theorem modPCtx_getGuar (d : Dev) (k j : Nat) (f : PCtx → PCtx) : (d.modPCtx k f).getGuar j = d.getGuar j := rfl
@[simp] theorem modPCtx_getBPort (d : Dev) (k j : Nat) (f : PCtx → PCtx) : (d.modPCtx k f).getBPort j = d.getBPort j := rfl
@[simp] theorem modPCtx_getPartFab (d : Dev) (k j : Nat) (f : PCtx → PCtx) : (d.modPCtx k f).getPartFab j = d.getPartFab j := rfl
@[simp] theorem modPCtx_getDrop (d : Dev) (k j : Nat) (f : PCtx → PCtx) : (d.modPCtx k f).getDrop j = d.getDrop j := rfl
@[simp] theorem modPCtx_getPortCnt (d : Dev) (k j : Nat) (f : PCtx → PCtx) : (d.modPCtx k f).getPortCnt j = d.getPortCnt j := rfl
@[simp] theorem modPCtx_getWindow (d : Dev) (k j : Nat) (f : PCtx → PCtx) : (d.modPCtx k f).getWindow j = d.getWindow j := rfl

/-! `Dev.modLink` changes `links` under one key. -/
@[simp] theorem modLink_same (d : Dev) (k : Nat) (f : Link → Link) : (d.modLink k f).getLink k = f (d.getLink k) := by simp [Dev.modLink, Dev.getLink]
theorem modLink_ne (d : Dev) (f : Link → Link) {k j : Nat} (h : j ≠ k) : (d.modLink k f).getLink j = d.getLink j := tabGet_tabSet_ne _ _ h _
@[simp] theorem modLink_clock (d : Dev) (k : Nat) (f : Link → Link) : (d.modLink k f).clock = d.clock := rfl
@[simp] theorem modLink_pins (d : Dev) (k : Nat) (f : Link → Link) : (d.modLink k f).pins = d.pins := rfl
@[simp] theorem modLink_boot (d : Dev) (k : Nat) (f : Link → Link) : (d.modLink k f).boot = d.boot := rfl
@[simp] theorem modLink_fuses (d : Dev) (k : Nat) (f : Link → Link) : (d.modLink k f).fuses = d.fuses := rfl
@[simp] theorem modLink_flash (d : Dev) (k : Nat) (f : Link → Link) : (d.modLink k f).flash = d.flash := rfl
@[simp] theorem modLink_caps (d : Dev) (k : Nat) (f : Link → Link) : (d.modLink k f).caps = d.caps := rfl
@[simp] theorem modLink_beat (d : Dev) (k : Nat) (f : Link → Link) : (d.modLink k f).beat = d.beat := rfl
@[simp] theorem modLink_aux (d : Dev) (k : Nat) (f : Link → Link) : (d.modLink k f).aux = d.aux := rfl
@[simp] theorem modLink_dies (d : Dev) (k : Nat) (f : Link → Link) : (d.modLink k f).dies = d.dies := rfl
@[simp] theorem modLink_mesh (d : Dev) (k : Nat) (f : Link → Link) : (d.modLink k f).mesh = d.mesh := rfl
@[simp] theorem modLink_slab (d : Dev) (k : Nat) (f : Link → Link) : (d.modLink k f).slab = d.slab := rfl
@[simp] theorem modLink_peb (d : Dev) (k : Nat) (f : Link → Link) : (d.modLink k f).peb = d.peb := rfl
@[simp] theorem modLink_mem (d : Dev) (k : Nat) (f : Link → Link) : (d.modLink k f).mem = d.mem := rfl
@[simp] theorem modLink_cairn (d : Dev) (k : Nat) (f : Link → Link) : (d.modLink k f).cairn = d.cairn := rfl
@[simp] theorem modLink_barr (d : Dev) (k : Nat) (f : Link → Link) : (d.modLink k f).barr = d.barr := rfl
@[simp] theorem modLink_fab (d : Dev) (k : Nat) (f : Link → Link) : (d.modLink k f).fab = d.fab := rfl
@[simp] theorem modLink_host (d : Dev) (k : Nat) (f : Link → Link) : (d.modLink k f).host = d.host := rfl
@[simp] theorem modLink_bed (d : Dev) (k : Nat) (f : Link → Link) : (d.modLink k f).bed = d.bed := rfl
@[simp] theorem modLink_idle (d : Dev) (k : Nat) (f : Link → Link) : (d.modLink k f).idle = d.idle := rfl
@[simp] theorem modLink_parts (d : Dev) (k : Nat) (f : Link → Link) : (d.modLink k f).parts = d.parts := rfl
@[simp] theorem modLink_sec (d : Dev) (k : Nat) (f : Link → Link) : (d.modLink k f).sec = d.sec := rfl
@[simp] theorem modLink_pow (d : Dev) (k : Nat) (f : Link → Link) : (d.modLink k f).pow = d.pow := rfl
@[simp] theorem modLink_powu (d : Dev) (k : Nat) (f : Link → Link) : (d.modLink k f).powu = d.powu := rfl
@[simp] theorem modLink_therm (d : Dev) (k : Nat) (f : Link → Link) : (d.modLink k f).therm = d.therm := rfl
@[simp] theorem modLink_evt (d : Dev) (k : Nat) (f : Link → Link) : (d.modLink k f).evt = d.evt := rfl
@[simp] theorem modLink_mirror (d : Dev) (k : Nat) (f : Link → Link) : (d.modLink k f).mirror = d.mirror := rfl
@[simp] theorem modLink_mgmt (d : Dev) (k : Nat) (f : Link → Link) : (d.modLink k f).mgmt = d.mgmt := rfl
@[simp] theorem modLink_test (d : Dev) (k : Nat) (f : Link → Link) : (d.modLink k f).test = d.test := rfl
@[simp] theorem modLink_getSlab (d : Dev) (k j : Nat) (f : Link → Link) : (d.modLink k f).getSlab j = d.getSlab j := rfl
@[simp] theorem modLink_getSCtx (d : Dev) (k j : Nat) (f : Link → Link) : (d.modLink k f).getSCtx j = d.getSCtx j := rfl
@[simp] theorem modLink_getHalf (d : Dev) (k j : Nat) (f : Link → Link) : (d.modLink k f).getHalf j = d.getHalf j := rfl
@[simp] theorem modLink_getSeam (d : Dev) (k j : Nat) (f : Link → Link) : (d.modLink k f).getSeam j = d.getSeam j := rfl
@[simp] theorem modLink_getCluster (d : Dev) (k j : Nat) (f : Link → Link) : (d.modLink k f).getCluster j = d.getCluster j := rfl
@[simp] theorem modLink_getPebble (d : Dev) (k j : Nat) (f : Link → Link) : (d.modLink k f).getPebble j = d.getPebble j := rfl
@[simp] theorem modLink_getPCtx (d : Dev) (k j : Nat) (f : Link → Link) : (d.modLink k f).getPCtx j = d.getPCtx j := rfl
@[simp] theorem modLink_getRing (d : Dev) (k j : Nat) (f : Link → Link) : (d.modLink k f).getRing j = d.getRing j := rfl
@[simp] theorem modLink_getPart (d : Dev) (k j : Nat) (f : Link → Link) : (d.modLink k f).getPart j = d.getPart j := rfl
@[simp] theorem modLink_getCairnTile (d : Dev) (k j : Nat) (f : Link → Link) : (d.modLink k f).getCairnTile j = d.getCairnTile j := rfl
@[simp] theorem modLink_getCMap (d : Dev) (k j : Nat) (f : Link → Link) : (d.modLink k f).getCMap j = d.getCMap j := rfl
@[simp] theorem modLink_getChan (d : Dev) (k j : Nat) (f : Link → Link) : (d.modLink k f).getChan j = d.getChan j := rfl
@[simp] theorem modLink_getTree (d : Dev) (k j : Nat) (f : Link → Link) : (d.modLink k f).getTree j = d.getTree j := rfl
@[simp] theorem modLink_getStack (d : Dev) (k j : Nat) (f : Link → Link) : (d.modLink k f).getStack j = d.getStack j := rfl
@[simp] theorem modLink_getRegion (d : Dev) (k j : Nat) (f : Link → Link) : (d.modLink k f).getRegion j = d.getRegion j := rfl
@[simp] theorem modLink_getScrub (d : Dev) (k j : Nat) (f : Link → Link) : (d.modLink k f).getScrub j = d.getScrub j := rfl
@[simp] theorem modLink_getAssay (d : Dev) (k j : Nat) (f : Link → Link) : (d.modLink k f).getAssay j = d.getAssay j := rfl
@[simp] theorem modLink_getTap (d : Dev) (k j : Nat) (f : Link → Link) : (d.modLink k f).getTap j = d.getTap j := rfl
@[simp] theorem modLink_getHalfPow (d : Dev) (k j : Nat) (f : Link → Link) : (d.modLink k f).getHalfPow j = d.getHalfPow j := rfl
@[simp] theorem modLink_getRail (d : Dev) (k j : Nat) (f : Link → Link) : (d.modLink k f).getRail j = d.getRail j := rfl
@[simp] theorem modLink_getGuar (d : Dev) (k j : Nat) (f : Link → Link) : (d.modLink k f).getGuar j = d.getGuar j := rfl
@[simp] theorem modLink_getBPort (d : Dev) (k j : Nat) (f : Link → Link) : (d.modLink k f).getBPort j = d.getBPort j := rfl
@[simp] theorem modLink_getPartFab (d : Dev) (k j : Nat) (f : Link → Link) : (d.modLink k f).getPartFab j = d.getPartFab j := rfl
@[simp] theorem modLink_getDrop (d : Dev) (k j : Nat) (f : Link → Link) : (d.modLink k f).getDrop j = d.getDrop j := rfl
@[simp] theorem modLink_getPortCnt (d : Dev) (k j : Nat) (f : Link → Link) : (d.modLink k f).getPortCnt j = d.getPortCnt j := rfl
@[simp] theorem modLink_getWindow (d : Dev) (k j : Nat) (f : Link → Link) : (d.modLink k f).getWindow j = d.getWindow j := rfl

/-! `Dev.modRing` changes `host.rings` under one key. -/
@[simp] theorem modRing_same (d : Dev) (k : Nat) (f : Ring → Ring) : (d.modRing k f).getRing k = f (d.getRing k) := by simp [Dev.modRing, Dev.getRing]
theorem modRing_ne (d : Dev) (f : Ring → Ring) {k j : Nat} (h : j ≠ k) : (d.modRing k f).getRing j = d.getRing j := tabGet_tabSet_ne _ _ h _
@[simp] theorem modRing_clock (d : Dev) (k : Nat) (f : Ring → Ring) : (d.modRing k f).clock = d.clock := rfl
@[simp] theorem modRing_pins (d : Dev) (k : Nat) (f : Ring → Ring) : (d.modRing k f).pins = d.pins := rfl
@[simp] theorem modRing_boot (d : Dev) (k : Nat) (f : Ring → Ring) : (d.modRing k f).boot = d.boot := rfl
@[simp] theorem modRing_fuses (d : Dev) (k : Nat) (f : Ring → Ring) : (d.modRing k f).fuses = d.fuses := rfl
@[simp] theorem modRing_flash (d : Dev) (k : Nat) (f : Ring → Ring) : (d.modRing k f).flash = d.flash := rfl
@[simp] theorem modRing_caps (d : Dev) (k : Nat) (f : Ring → Ring) : (d.modRing k f).caps = d.caps := rfl
@[simp] theorem modRing_beat (d : Dev) (k : Nat) (f : Ring → Ring) : (d.modRing k f).beat = d.beat := rfl
@[simp] theorem modRing_aux (d : Dev) (k : Nat) (f : Ring → Ring) : (d.modRing k f).aux = d.aux := rfl
@[simp] theorem modRing_dies (d : Dev) (k : Nat) (f : Ring → Ring) : (d.modRing k f).dies = d.dies := rfl
@[simp] theorem modRing_mesh (d : Dev) (k : Nat) (f : Ring → Ring) : (d.modRing k f).mesh = d.mesh := rfl
@[simp] theorem modRing_slab (d : Dev) (k : Nat) (f : Ring → Ring) : (d.modRing k f).slab = d.slab := rfl
@[simp] theorem modRing_peb (d : Dev) (k : Nat) (f : Ring → Ring) : (d.modRing k f).peb = d.peb := rfl
@[simp] theorem modRing_mem (d : Dev) (k : Nat) (f : Ring → Ring) : (d.modRing k f).mem = d.mem := rfl
@[simp] theorem modRing_cairn (d : Dev) (k : Nat) (f : Ring → Ring) : (d.modRing k f).cairn = d.cairn := rfl
@[simp] theorem modRing_barr (d : Dev) (k : Nat) (f : Ring → Ring) : (d.modRing k f).barr = d.barr := rfl
@[simp] theorem modRing_fab (d : Dev) (k : Nat) (f : Ring → Ring) : (d.modRing k f).fab = d.fab := rfl
@[simp] theorem modRing_links (d : Dev) (k : Nat) (f : Ring → Ring) : (d.modRing k f).links = d.links := rfl
@[simp] theorem modRing_bed (d : Dev) (k : Nat) (f : Ring → Ring) : (d.modRing k f).bed = d.bed := rfl
@[simp] theorem modRing_idle (d : Dev) (k : Nat) (f : Ring → Ring) : (d.modRing k f).idle = d.idle := rfl
@[simp] theorem modRing_parts (d : Dev) (k : Nat) (f : Ring → Ring) : (d.modRing k f).parts = d.parts := rfl
@[simp] theorem modRing_sec (d : Dev) (k : Nat) (f : Ring → Ring) : (d.modRing k f).sec = d.sec := rfl
@[simp] theorem modRing_pow (d : Dev) (k : Nat) (f : Ring → Ring) : (d.modRing k f).pow = d.pow := rfl
@[simp] theorem modRing_powu (d : Dev) (k : Nat) (f : Ring → Ring) : (d.modRing k f).powu = d.powu := rfl
@[simp] theorem modRing_therm (d : Dev) (k : Nat) (f : Ring → Ring) : (d.modRing k f).therm = d.therm := rfl
@[simp] theorem modRing_evt (d : Dev) (k : Nat) (f : Ring → Ring) : (d.modRing k f).evt = d.evt := rfl
@[simp] theorem modRing_mirror (d : Dev) (k : Nat) (f : Ring → Ring) : (d.modRing k f).mirror = d.mirror := rfl
@[simp] theorem modRing_mgmt (d : Dev) (k : Nat) (f : Ring → Ring) : (d.modRing k f).mgmt = d.mgmt := rfl
@[simp] theorem modRing_test (d : Dev) (k : Nat) (f : Ring → Ring) : (d.modRing k f).test = d.test := rfl
@[simp] theorem modRing_host_evt (d : Dev) (k : Nat) (f : Ring → Ring) : (d.modRing k f).host.evt = d.host.evt := rfl
@[simp] theorem modRing_host_windows (d : Dev) (k : Nat) (f : Ring → Ring) : (d.modRing k f).host.windows = d.host.windows := rfl
@[simp] theorem modRing_host_waiting (d : Dev) (k : Nat) (f : Ring → Ring) : (d.modRing k f).host.waiting = d.host.waiting := rfl
@[simp] theorem modRing_host_parked (d : Dev) (k : Nat) (f : Ring → Ring) : (d.modRing k f).host.parked = d.host.parked := rfl
@[simp] theorem modRing_host_scratch (d : Dev) (k : Nat) (f : Ring → Ring) : (d.modRing k f).host.scratch = d.host.scratch := rfl
@[simp] theorem modRing_getSlab (d : Dev) (k j : Nat) (f : Ring → Ring) : (d.modRing k f).getSlab j = d.getSlab j := rfl
@[simp] theorem modRing_getSCtx (d : Dev) (k j : Nat) (f : Ring → Ring) : (d.modRing k f).getSCtx j = d.getSCtx j := rfl
@[simp] theorem modRing_getHalf (d : Dev) (k j : Nat) (f : Ring → Ring) : (d.modRing k f).getHalf j = d.getHalf j := rfl
@[simp] theorem modRing_getSeam (d : Dev) (k j : Nat) (f : Ring → Ring) : (d.modRing k f).getSeam j = d.getSeam j := rfl
@[simp] theorem modRing_getCluster (d : Dev) (k j : Nat) (f : Ring → Ring) : (d.modRing k f).getCluster j = d.getCluster j := rfl
@[simp] theorem modRing_getPebble (d : Dev) (k j : Nat) (f : Ring → Ring) : (d.modRing k f).getPebble j = d.getPebble j := rfl
@[simp] theorem modRing_getPCtx (d : Dev) (k j : Nat) (f : Ring → Ring) : (d.modRing k f).getPCtx j = d.getPCtx j := rfl
@[simp] theorem modRing_getLink (d : Dev) (k j : Nat) (f : Ring → Ring) : (d.modRing k f).getLink j = d.getLink j := rfl
@[simp] theorem modRing_getPart (d : Dev) (k j : Nat) (f : Ring → Ring) : (d.modRing k f).getPart j = d.getPart j := rfl
@[simp] theorem modRing_getCairnTile (d : Dev) (k j : Nat) (f : Ring → Ring) : (d.modRing k f).getCairnTile j = d.getCairnTile j := rfl
@[simp] theorem modRing_getCMap (d : Dev) (k j : Nat) (f : Ring → Ring) : (d.modRing k f).getCMap j = d.getCMap j := rfl
@[simp] theorem modRing_getChan (d : Dev) (k j : Nat) (f : Ring → Ring) : (d.modRing k f).getChan j = d.getChan j := rfl
@[simp] theorem modRing_getTree (d : Dev) (k j : Nat) (f : Ring → Ring) : (d.modRing k f).getTree j = d.getTree j := rfl
@[simp] theorem modRing_getStack (d : Dev) (k j : Nat) (f : Ring → Ring) : (d.modRing k f).getStack j = d.getStack j := rfl
@[simp] theorem modRing_getRegion (d : Dev) (k j : Nat) (f : Ring → Ring) : (d.modRing k f).getRegion j = d.getRegion j := rfl
@[simp] theorem modRing_getScrub (d : Dev) (k j : Nat) (f : Ring → Ring) : (d.modRing k f).getScrub j = d.getScrub j := rfl
@[simp] theorem modRing_getAssay (d : Dev) (k j : Nat) (f : Ring → Ring) : (d.modRing k f).getAssay j = d.getAssay j := rfl
@[simp] theorem modRing_getTap (d : Dev) (k j : Nat) (f : Ring → Ring) : (d.modRing k f).getTap j = d.getTap j := rfl
@[simp] theorem modRing_getHalfPow (d : Dev) (k j : Nat) (f : Ring → Ring) : (d.modRing k f).getHalfPow j = d.getHalfPow j := rfl
@[simp] theorem modRing_getRail (d : Dev) (k j : Nat) (f : Ring → Ring) : (d.modRing k f).getRail j = d.getRail j := rfl
@[simp] theorem modRing_getGuar (d : Dev) (k j : Nat) (f : Ring → Ring) : (d.modRing k f).getGuar j = d.getGuar j := rfl
@[simp] theorem modRing_getBPort (d : Dev) (k j : Nat) (f : Ring → Ring) : (d.modRing k f).getBPort j = d.getBPort j := rfl
@[simp] theorem modRing_getPartFab (d : Dev) (k j : Nat) (f : Ring → Ring) : (d.modRing k f).getPartFab j = d.getPartFab j := rfl
@[simp] theorem modRing_getDrop (d : Dev) (k j : Nat) (f : Ring → Ring) : (d.modRing k f).getDrop j = d.getDrop j := rfl
@[simp] theorem modRing_getPortCnt (d : Dev) (k j : Nat) (f : Ring → Ring) : (d.modRing k f).getPortCnt j = d.getPortCnt j := rfl
@[simp] theorem modRing_getWindow (d : Dev) (k j : Nat) (f : Ring → Ring) : (d.modRing k f).getWindow j = d.getWindow j := rfl

/-! `Dev.modPart` changes `parts` under one key. -/
@[simp] theorem modPart_same (d : Dev) (k : Nat) (f : Part → Part) : (d.modPart k f).getPart k = f (d.getPart k) := by simp [Dev.modPart, Dev.getPart]
theorem modPart_ne (d : Dev) (f : Part → Part) {k j : Nat} (h : j ≠ k) : (d.modPart k f).getPart j = d.getPart j := tabGet_tabSet_ne _ _ h _
@[simp] theorem modPart_clock (d : Dev) (k : Nat) (f : Part → Part) : (d.modPart k f).clock = d.clock := rfl
@[simp] theorem modPart_pins (d : Dev) (k : Nat) (f : Part → Part) : (d.modPart k f).pins = d.pins := rfl
@[simp] theorem modPart_boot (d : Dev) (k : Nat) (f : Part → Part) : (d.modPart k f).boot = d.boot := rfl
@[simp] theorem modPart_fuses (d : Dev) (k : Nat) (f : Part → Part) : (d.modPart k f).fuses = d.fuses := rfl
@[simp] theorem modPart_flash (d : Dev) (k : Nat) (f : Part → Part) : (d.modPart k f).flash = d.flash := rfl
@[simp] theorem modPart_caps (d : Dev) (k : Nat) (f : Part → Part) : (d.modPart k f).caps = d.caps := rfl
@[simp] theorem modPart_beat (d : Dev) (k : Nat) (f : Part → Part) : (d.modPart k f).beat = d.beat := rfl
@[simp] theorem modPart_aux (d : Dev) (k : Nat) (f : Part → Part) : (d.modPart k f).aux = d.aux := rfl
@[simp] theorem modPart_dies (d : Dev) (k : Nat) (f : Part → Part) : (d.modPart k f).dies = d.dies := rfl
@[simp] theorem modPart_mesh (d : Dev) (k : Nat) (f : Part → Part) : (d.modPart k f).mesh = d.mesh := rfl
@[simp] theorem modPart_slab (d : Dev) (k : Nat) (f : Part → Part) : (d.modPart k f).slab = d.slab := rfl
@[simp] theorem modPart_peb (d : Dev) (k : Nat) (f : Part → Part) : (d.modPart k f).peb = d.peb := rfl
@[simp] theorem modPart_mem (d : Dev) (k : Nat) (f : Part → Part) : (d.modPart k f).mem = d.mem := rfl
@[simp] theorem modPart_cairn (d : Dev) (k : Nat) (f : Part → Part) : (d.modPart k f).cairn = d.cairn := rfl
@[simp] theorem modPart_barr (d : Dev) (k : Nat) (f : Part → Part) : (d.modPart k f).barr = d.barr := rfl
@[simp] theorem modPart_fab (d : Dev) (k : Nat) (f : Part → Part) : (d.modPart k f).fab = d.fab := rfl
@[simp] theorem modPart_links (d : Dev) (k : Nat) (f : Part → Part) : (d.modPart k f).links = d.links := rfl
@[simp] theorem modPart_host (d : Dev) (k : Nat) (f : Part → Part) : (d.modPart k f).host = d.host := rfl
@[simp] theorem modPart_bed (d : Dev) (k : Nat) (f : Part → Part) : (d.modPart k f).bed = d.bed := rfl
@[simp] theorem modPart_idle (d : Dev) (k : Nat) (f : Part → Part) : (d.modPart k f).idle = d.idle := rfl
@[simp] theorem modPart_sec (d : Dev) (k : Nat) (f : Part → Part) : (d.modPart k f).sec = d.sec := rfl
@[simp] theorem modPart_pow (d : Dev) (k : Nat) (f : Part → Part) : (d.modPart k f).pow = d.pow := rfl
@[simp] theorem modPart_powu (d : Dev) (k : Nat) (f : Part → Part) : (d.modPart k f).powu = d.powu := rfl
@[simp] theorem modPart_therm (d : Dev) (k : Nat) (f : Part → Part) : (d.modPart k f).therm = d.therm := rfl
@[simp] theorem modPart_evt (d : Dev) (k : Nat) (f : Part → Part) : (d.modPart k f).evt = d.evt := rfl
@[simp] theorem modPart_mirror (d : Dev) (k : Nat) (f : Part → Part) : (d.modPart k f).mirror = d.mirror := rfl
@[simp] theorem modPart_mgmt (d : Dev) (k : Nat) (f : Part → Part) : (d.modPart k f).mgmt = d.mgmt := rfl
@[simp] theorem modPart_test (d : Dev) (k : Nat) (f : Part → Part) : (d.modPart k f).test = d.test := rfl
@[simp] theorem modPart_getSlab (d : Dev) (k j : Nat) (f : Part → Part) : (d.modPart k f).getSlab j = d.getSlab j := rfl
@[simp] theorem modPart_getSCtx (d : Dev) (k j : Nat) (f : Part → Part) : (d.modPart k f).getSCtx j = d.getSCtx j := rfl
@[simp] theorem modPart_getHalf (d : Dev) (k j : Nat) (f : Part → Part) : (d.modPart k f).getHalf j = d.getHalf j := rfl
@[simp] theorem modPart_getSeam (d : Dev) (k j : Nat) (f : Part → Part) : (d.modPart k f).getSeam j = d.getSeam j := rfl
@[simp] theorem modPart_getCluster (d : Dev) (k j : Nat) (f : Part → Part) : (d.modPart k f).getCluster j = d.getCluster j := rfl
@[simp] theorem modPart_getPebble (d : Dev) (k j : Nat) (f : Part → Part) : (d.modPart k f).getPebble j = d.getPebble j := rfl
@[simp] theorem modPart_getPCtx (d : Dev) (k j : Nat) (f : Part → Part) : (d.modPart k f).getPCtx j = d.getPCtx j := rfl
@[simp] theorem modPart_getLink (d : Dev) (k j : Nat) (f : Part → Part) : (d.modPart k f).getLink j = d.getLink j := rfl
@[simp] theorem modPart_getRing (d : Dev) (k j : Nat) (f : Part → Part) : (d.modPart k f).getRing j = d.getRing j := rfl
@[simp] theorem modPart_getCairnTile (d : Dev) (k j : Nat) (f : Part → Part) : (d.modPart k f).getCairnTile j = d.getCairnTile j := rfl
@[simp] theorem modPart_getCMap (d : Dev) (k j : Nat) (f : Part → Part) : (d.modPart k f).getCMap j = d.getCMap j := rfl
@[simp] theorem modPart_getChan (d : Dev) (k j : Nat) (f : Part → Part) : (d.modPart k f).getChan j = d.getChan j := rfl
@[simp] theorem modPart_getTree (d : Dev) (k j : Nat) (f : Part → Part) : (d.modPart k f).getTree j = d.getTree j := rfl
@[simp] theorem modPart_getStack (d : Dev) (k j : Nat) (f : Part → Part) : (d.modPart k f).getStack j = d.getStack j := rfl
@[simp] theorem modPart_getRegion (d : Dev) (k j : Nat) (f : Part → Part) : (d.modPart k f).getRegion j = d.getRegion j := rfl
@[simp] theorem modPart_getScrub (d : Dev) (k j : Nat) (f : Part → Part) : (d.modPart k f).getScrub j = d.getScrub j := rfl
@[simp] theorem modPart_getAssay (d : Dev) (k j : Nat) (f : Part → Part) : (d.modPart k f).getAssay j = d.getAssay j := rfl
@[simp] theorem modPart_getTap (d : Dev) (k j : Nat) (f : Part → Part) : (d.modPart k f).getTap j = d.getTap j := rfl
@[simp] theorem modPart_getHalfPow (d : Dev) (k j : Nat) (f : Part → Part) : (d.modPart k f).getHalfPow j = d.getHalfPow j := rfl
@[simp] theorem modPart_getRail (d : Dev) (k j : Nat) (f : Part → Part) : (d.modPart k f).getRail j = d.getRail j := rfl
@[simp] theorem modPart_getGuar (d : Dev) (k j : Nat) (f : Part → Part) : (d.modPart k f).getGuar j = d.getGuar j := rfl
@[simp] theorem modPart_getBPort (d : Dev) (k j : Nat) (f : Part → Part) : (d.modPart k f).getBPort j = d.getBPort j := rfl
@[simp] theorem modPart_getPartFab (d : Dev) (k j : Nat) (f : Part → Part) : (d.modPart k f).getPartFab j = d.getPartFab j := rfl
@[simp] theorem modPart_getDrop (d : Dev) (k j : Nat) (f : Part → Part) : (d.modPart k f).getDrop j = d.getDrop j := rfl
@[simp] theorem modPart_getPortCnt (d : Dev) (k j : Nat) (f : Part → Part) : (d.modPart k f).getPortCnt j = d.getPortCnt j := rfl
@[simp] theorem modPart_getWindow (d : Dev) (k j : Nat) (f : Part → Part) : (d.modPart k f).getWindow j = d.getWindow j := rfl

/-! `Dev.modCairnTile` changes `cairn.tiles` under one key. -/
@[simp] theorem modCairnTile_same (d : Dev) (k : Nat) (f : CairnTile → CairnTile) : (d.modCairnTile k f).getCairnTile k = f (d.getCairnTile k) := by simp [Dev.modCairnTile, Dev.getCairnTile]
theorem modCairnTile_ne (d : Dev) (f : CairnTile → CairnTile) {k j : Nat} (h : j ≠ k) : (d.modCairnTile k f).getCairnTile j = d.getCairnTile j := tabGet_tabSet_ne _ _ h _
@[simp] theorem modCairnTile_clock (d : Dev) (k : Nat) (f : CairnTile → CairnTile) : (d.modCairnTile k f).clock = d.clock := rfl
@[simp] theorem modCairnTile_pins (d : Dev) (k : Nat) (f : CairnTile → CairnTile) : (d.modCairnTile k f).pins = d.pins := rfl
@[simp] theorem modCairnTile_boot (d : Dev) (k : Nat) (f : CairnTile → CairnTile) : (d.modCairnTile k f).boot = d.boot := rfl
@[simp] theorem modCairnTile_fuses (d : Dev) (k : Nat) (f : CairnTile → CairnTile) : (d.modCairnTile k f).fuses = d.fuses := rfl
@[simp] theorem modCairnTile_flash (d : Dev) (k : Nat) (f : CairnTile → CairnTile) : (d.modCairnTile k f).flash = d.flash := rfl
@[simp] theorem modCairnTile_caps (d : Dev) (k : Nat) (f : CairnTile → CairnTile) : (d.modCairnTile k f).caps = d.caps := rfl
@[simp] theorem modCairnTile_beat (d : Dev) (k : Nat) (f : CairnTile → CairnTile) : (d.modCairnTile k f).beat = d.beat := rfl
@[simp] theorem modCairnTile_aux (d : Dev) (k : Nat) (f : CairnTile → CairnTile) : (d.modCairnTile k f).aux = d.aux := rfl
@[simp] theorem modCairnTile_dies (d : Dev) (k : Nat) (f : CairnTile → CairnTile) : (d.modCairnTile k f).dies = d.dies := rfl
@[simp] theorem modCairnTile_mesh (d : Dev) (k : Nat) (f : CairnTile → CairnTile) : (d.modCairnTile k f).mesh = d.mesh := rfl
@[simp] theorem modCairnTile_slab (d : Dev) (k : Nat) (f : CairnTile → CairnTile) : (d.modCairnTile k f).slab = d.slab := rfl
@[simp] theorem modCairnTile_peb (d : Dev) (k : Nat) (f : CairnTile → CairnTile) : (d.modCairnTile k f).peb = d.peb := rfl
@[simp] theorem modCairnTile_mem (d : Dev) (k : Nat) (f : CairnTile → CairnTile) : (d.modCairnTile k f).mem = d.mem := rfl
@[simp] theorem modCairnTile_barr (d : Dev) (k : Nat) (f : CairnTile → CairnTile) : (d.modCairnTile k f).barr = d.barr := rfl
@[simp] theorem modCairnTile_fab (d : Dev) (k : Nat) (f : CairnTile → CairnTile) : (d.modCairnTile k f).fab = d.fab := rfl
@[simp] theorem modCairnTile_links (d : Dev) (k : Nat) (f : CairnTile → CairnTile) : (d.modCairnTile k f).links = d.links := rfl
@[simp] theorem modCairnTile_host (d : Dev) (k : Nat) (f : CairnTile → CairnTile) : (d.modCairnTile k f).host = d.host := rfl
@[simp] theorem modCairnTile_bed (d : Dev) (k : Nat) (f : CairnTile → CairnTile) : (d.modCairnTile k f).bed = d.bed := rfl
@[simp] theorem modCairnTile_idle (d : Dev) (k : Nat) (f : CairnTile → CairnTile) : (d.modCairnTile k f).idle = d.idle := rfl
@[simp] theorem modCairnTile_parts (d : Dev) (k : Nat) (f : CairnTile → CairnTile) : (d.modCairnTile k f).parts = d.parts := rfl
@[simp] theorem modCairnTile_sec (d : Dev) (k : Nat) (f : CairnTile → CairnTile) : (d.modCairnTile k f).sec = d.sec := rfl
@[simp] theorem modCairnTile_pow (d : Dev) (k : Nat) (f : CairnTile → CairnTile) : (d.modCairnTile k f).pow = d.pow := rfl
@[simp] theorem modCairnTile_powu (d : Dev) (k : Nat) (f : CairnTile → CairnTile) : (d.modCairnTile k f).powu = d.powu := rfl
@[simp] theorem modCairnTile_therm (d : Dev) (k : Nat) (f : CairnTile → CairnTile) : (d.modCairnTile k f).therm = d.therm := rfl
@[simp] theorem modCairnTile_evt (d : Dev) (k : Nat) (f : CairnTile → CairnTile) : (d.modCairnTile k f).evt = d.evt := rfl
@[simp] theorem modCairnTile_mirror (d : Dev) (k : Nat) (f : CairnTile → CairnTile) : (d.modCairnTile k f).mirror = d.mirror := rfl
@[simp] theorem modCairnTile_mgmt (d : Dev) (k : Nat) (f : CairnTile → CairnTile) : (d.modCairnTile k f).mgmt = d.mgmt := rfl
@[simp] theorem modCairnTile_test (d : Dev) (k : Nat) (f : CairnTile → CairnTile) : (d.modCairnTile k f).test = d.test := rfl
@[simp] theorem modCairnTile_cairn_values (d : Dev) (k : Nat) (f : CairnTile → CairnTile) : (d.modCairnTile k f).cairn.values = d.cairn.values := rfl
@[simp] theorem modCairnTile_cairn_ops (d : Dev) (k : Nat) (f : CairnTile → CairnTile) : (d.modCairnTile k f).cairn.ops = d.cairn.ops := rfl
@[simp] theorem modCairnTile_cairn_waiters (d : Dev) (k : Nat) (f : CairnTile → CairnTile) : (d.modCairnTile k f).cairn.waiters = d.cairn.waiters := rfl
@[simp] theorem modCairnTile_cairn_maps (d : Dev) (k : Nat) (f : CairnTile → CairnTile) : (d.modCairnTile k f).cairn.maps = d.cairn.maps := rfl
@[simp] theorem modCairnTile_cairn_signals (d : Dev) (k : Nat) (f : CairnTile → CairnTile) : (d.modCairnTile k f).cairn.signals = d.cairn.signals := rfl
@[simp] theorem modCairnTile_getSlab (d : Dev) (k j : Nat) (f : CairnTile → CairnTile) : (d.modCairnTile k f).getSlab j = d.getSlab j := rfl
@[simp] theorem modCairnTile_getSCtx (d : Dev) (k j : Nat) (f : CairnTile → CairnTile) : (d.modCairnTile k f).getSCtx j = d.getSCtx j := rfl
@[simp] theorem modCairnTile_getHalf (d : Dev) (k j : Nat) (f : CairnTile → CairnTile) : (d.modCairnTile k f).getHalf j = d.getHalf j := rfl
@[simp] theorem modCairnTile_getSeam (d : Dev) (k j : Nat) (f : CairnTile → CairnTile) : (d.modCairnTile k f).getSeam j = d.getSeam j := rfl
@[simp] theorem modCairnTile_getCluster (d : Dev) (k j : Nat) (f : CairnTile → CairnTile) : (d.modCairnTile k f).getCluster j = d.getCluster j := rfl
@[simp] theorem modCairnTile_getPebble (d : Dev) (k j : Nat) (f : CairnTile → CairnTile) : (d.modCairnTile k f).getPebble j = d.getPebble j := rfl
@[simp] theorem modCairnTile_getPCtx (d : Dev) (k j : Nat) (f : CairnTile → CairnTile) : (d.modCairnTile k f).getPCtx j = d.getPCtx j := rfl
@[simp] theorem modCairnTile_getLink (d : Dev) (k j : Nat) (f : CairnTile → CairnTile) : (d.modCairnTile k f).getLink j = d.getLink j := rfl
@[simp] theorem modCairnTile_getRing (d : Dev) (k j : Nat) (f : CairnTile → CairnTile) : (d.modCairnTile k f).getRing j = d.getRing j := rfl
@[simp] theorem modCairnTile_getPart (d : Dev) (k j : Nat) (f : CairnTile → CairnTile) : (d.modCairnTile k f).getPart j = d.getPart j := rfl
@[simp] theorem modCairnTile_getCMap (d : Dev) (k j : Nat) (f : CairnTile → CairnTile) : (d.modCairnTile k f).getCMap j = d.getCMap j := rfl
@[simp] theorem modCairnTile_getChan (d : Dev) (k j : Nat) (f : CairnTile → CairnTile) : (d.modCairnTile k f).getChan j = d.getChan j := rfl
@[simp] theorem modCairnTile_getTree (d : Dev) (k j : Nat) (f : CairnTile → CairnTile) : (d.modCairnTile k f).getTree j = d.getTree j := rfl
@[simp] theorem modCairnTile_getStack (d : Dev) (k j : Nat) (f : CairnTile → CairnTile) : (d.modCairnTile k f).getStack j = d.getStack j := rfl
@[simp] theorem modCairnTile_getRegion (d : Dev) (k j : Nat) (f : CairnTile → CairnTile) : (d.modCairnTile k f).getRegion j = d.getRegion j := rfl
@[simp] theorem modCairnTile_getScrub (d : Dev) (k j : Nat) (f : CairnTile → CairnTile) : (d.modCairnTile k f).getScrub j = d.getScrub j := rfl
@[simp] theorem modCairnTile_getAssay (d : Dev) (k j : Nat) (f : CairnTile → CairnTile) : (d.modCairnTile k f).getAssay j = d.getAssay j := rfl
@[simp] theorem modCairnTile_getTap (d : Dev) (k j : Nat) (f : CairnTile → CairnTile) : (d.modCairnTile k f).getTap j = d.getTap j := rfl
@[simp] theorem modCairnTile_getHalfPow (d : Dev) (k j : Nat) (f : CairnTile → CairnTile) : (d.modCairnTile k f).getHalfPow j = d.getHalfPow j := rfl
@[simp] theorem modCairnTile_getRail (d : Dev) (k j : Nat) (f : CairnTile → CairnTile) : (d.modCairnTile k f).getRail j = d.getRail j := rfl
@[simp] theorem modCairnTile_getGuar (d : Dev) (k j : Nat) (f : CairnTile → CairnTile) : (d.modCairnTile k f).getGuar j = d.getGuar j := rfl
@[simp] theorem modCairnTile_getBPort (d : Dev) (k j : Nat) (f : CairnTile → CairnTile) : (d.modCairnTile k f).getBPort j = d.getBPort j := rfl
@[simp] theorem modCairnTile_getPartFab (d : Dev) (k j : Nat) (f : CairnTile → CairnTile) : (d.modCairnTile k f).getPartFab j = d.getPartFab j := rfl
@[simp] theorem modCairnTile_getDrop (d : Dev) (k j : Nat) (f : CairnTile → CairnTile) : (d.modCairnTile k f).getDrop j = d.getDrop j := rfl
@[simp] theorem modCairnTile_getPortCnt (d : Dev) (k j : Nat) (f : CairnTile → CairnTile) : (d.modCairnTile k f).getPortCnt j = d.getPortCnt j := rfl
@[simp] theorem modCairnTile_getWindow (d : Dev) (k j : Nat) (f : CairnTile → CairnTile) : (d.modCairnTile k f).getWindow j = d.getWindow j := rfl

/-! `Dev.modCMap` changes `cairn.maps` under one key. -/
@[simp] theorem modCMap_same (d : Dev) (k : Nat) (f : CMap → CMap) : (d.modCMap k f).getCMap k = f (d.getCMap k) := by simp [Dev.modCMap, Dev.getCMap]
theorem modCMap_ne (d : Dev) (f : CMap → CMap) {k j : Nat} (h : j ≠ k) : (d.modCMap k f).getCMap j = d.getCMap j := tabGet_tabSet_ne _ _ h _
@[simp] theorem modCMap_clock (d : Dev) (k : Nat) (f : CMap → CMap) : (d.modCMap k f).clock = d.clock := rfl
@[simp] theorem modCMap_pins (d : Dev) (k : Nat) (f : CMap → CMap) : (d.modCMap k f).pins = d.pins := rfl
@[simp] theorem modCMap_boot (d : Dev) (k : Nat) (f : CMap → CMap) : (d.modCMap k f).boot = d.boot := rfl
@[simp] theorem modCMap_fuses (d : Dev) (k : Nat) (f : CMap → CMap) : (d.modCMap k f).fuses = d.fuses := rfl
@[simp] theorem modCMap_flash (d : Dev) (k : Nat) (f : CMap → CMap) : (d.modCMap k f).flash = d.flash := rfl
@[simp] theorem modCMap_caps (d : Dev) (k : Nat) (f : CMap → CMap) : (d.modCMap k f).caps = d.caps := rfl
@[simp] theorem modCMap_beat (d : Dev) (k : Nat) (f : CMap → CMap) : (d.modCMap k f).beat = d.beat := rfl
@[simp] theorem modCMap_aux (d : Dev) (k : Nat) (f : CMap → CMap) : (d.modCMap k f).aux = d.aux := rfl
@[simp] theorem modCMap_dies (d : Dev) (k : Nat) (f : CMap → CMap) : (d.modCMap k f).dies = d.dies := rfl
@[simp] theorem modCMap_mesh (d : Dev) (k : Nat) (f : CMap → CMap) : (d.modCMap k f).mesh = d.mesh := rfl
@[simp] theorem modCMap_slab (d : Dev) (k : Nat) (f : CMap → CMap) : (d.modCMap k f).slab = d.slab := rfl
@[simp] theorem modCMap_peb (d : Dev) (k : Nat) (f : CMap → CMap) : (d.modCMap k f).peb = d.peb := rfl
@[simp] theorem modCMap_mem (d : Dev) (k : Nat) (f : CMap → CMap) : (d.modCMap k f).mem = d.mem := rfl
@[simp] theorem modCMap_barr (d : Dev) (k : Nat) (f : CMap → CMap) : (d.modCMap k f).barr = d.barr := rfl
@[simp] theorem modCMap_fab (d : Dev) (k : Nat) (f : CMap → CMap) : (d.modCMap k f).fab = d.fab := rfl
@[simp] theorem modCMap_links (d : Dev) (k : Nat) (f : CMap → CMap) : (d.modCMap k f).links = d.links := rfl
@[simp] theorem modCMap_host (d : Dev) (k : Nat) (f : CMap → CMap) : (d.modCMap k f).host = d.host := rfl
@[simp] theorem modCMap_bed (d : Dev) (k : Nat) (f : CMap → CMap) : (d.modCMap k f).bed = d.bed := rfl
@[simp] theorem modCMap_idle (d : Dev) (k : Nat) (f : CMap → CMap) : (d.modCMap k f).idle = d.idle := rfl
@[simp] theorem modCMap_parts (d : Dev) (k : Nat) (f : CMap → CMap) : (d.modCMap k f).parts = d.parts := rfl
@[simp] theorem modCMap_sec (d : Dev) (k : Nat) (f : CMap → CMap) : (d.modCMap k f).sec = d.sec := rfl
@[simp] theorem modCMap_pow (d : Dev) (k : Nat) (f : CMap → CMap) : (d.modCMap k f).pow = d.pow := rfl
@[simp] theorem modCMap_powu (d : Dev) (k : Nat) (f : CMap → CMap) : (d.modCMap k f).powu = d.powu := rfl
@[simp] theorem modCMap_therm (d : Dev) (k : Nat) (f : CMap → CMap) : (d.modCMap k f).therm = d.therm := rfl
@[simp] theorem modCMap_evt (d : Dev) (k : Nat) (f : CMap → CMap) : (d.modCMap k f).evt = d.evt := rfl
@[simp] theorem modCMap_mirror (d : Dev) (k : Nat) (f : CMap → CMap) : (d.modCMap k f).mirror = d.mirror := rfl
@[simp] theorem modCMap_mgmt (d : Dev) (k : Nat) (f : CMap → CMap) : (d.modCMap k f).mgmt = d.mgmt := rfl
@[simp] theorem modCMap_test (d : Dev) (k : Nat) (f : CMap → CMap) : (d.modCMap k f).test = d.test := rfl
@[simp] theorem modCMap_cairn_values (d : Dev) (k : Nat) (f : CMap → CMap) : (d.modCMap k f).cairn.values = d.cairn.values := rfl
@[simp] theorem modCMap_cairn_ops (d : Dev) (k : Nat) (f : CMap → CMap) : (d.modCMap k f).cairn.ops = d.cairn.ops := rfl
@[simp] theorem modCMap_cairn_waiters (d : Dev) (k : Nat) (f : CMap → CMap) : (d.modCMap k f).cairn.waiters = d.cairn.waiters := rfl
@[simp] theorem modCMap_cairn_signals (d : Dev) (k : Nat) (f : CMap → CMap) : (d.modCMap k f).cairn.signals = d.cairn.signals := rfl
@[simp] theorem modCMap_cairn_tiles (d : Dev) (k : Nat) (f : CMap → CMap) : (d.modCMap k f).cairn.tiles = d.cairn.tiles := rfl
@[simp] theorem modCMap_getSlab (d : Dev) (k j : Nat) (f : CMap → CMap) : (d.modCMap k f).getSlab j = d.getSlab j := rfl
@[simp] theorem modCMap_getSCtx (d : Dev) (k j : Nat) (f : CMap → CMap) : (d.modCMap k f).getSCtx j = d.getSCtx j := rfl
@[simp] theorem modCMap_getHalf (d : Dev) (k j : Nat) (f : CMap → CMap) : (d.modCMap k f).getHalf j = d.getHalf j := rfl
@[simp] theorem modCMap_getSeam (d : Dev) (k j : Nat) (f : CMap → CMap) : (d.modCMap k f).getSeam j = d.getSeam j := rfl
@[simp] theorem modCMap_getCluster (d : Dev) (k j : Nat) (f : CMap → CMap) : (d.modCMap k f).getCluster j = d.getCluster j := rfl
@[simp] theorem modCMap_getPebble (d : Dev) (k j : Nat) (f : CMap → CMap) : (d.modCMap k f).getPebble j = d.getPebble j := rfl
@[simp] theorem modCMap_getPCtx (d : Dev) (k j : Nat) (f : CMap → CMap) : (d.modCMap k f).getPCtx j = d.getPCtx j := rfl
@[simp] theorem modCMap_getLink (d : Dev) (k j : Nat) (f : CMap → CMap) : (d.modCMap k f).getLink j = d.getLink j := rfl
@[simp] theorem modCMap_getRing (d : Dev) (k j : Nat) (f : CMap → CMap) : (d.modCMap k f).getRing j = d.getRing j := rfl
@[simp] theorem modCMap_getPart (d : Dev) (k j : Nat) (f : CMap → CMap) : (d.modCMap k f).getPart j = d.getPart j := rfl
@[simp] theorem modCMap_getCairnTile (d : Dev) (k j : Nat) (f : CMap → CMap) : (d.modCMap k f).getCairnTile j = d.getCairnTile j := rfl
@[simp] theorem modCMap_getChan (d : Dev) (k j : Nat) (f : CMap → CMap) : (d.modCMap k f).getChan j = d.getChan j := rfl
@[simp] theorem modCMap_getTree (d : Dev) (k j : Nat) (f : CMap → CMap) : (d.modCMap k f).getTree j = d.getTree j := rfl
@[simp] theorem modCMap_getStack (d : Dev) (k j : Nat) (f : CMap → CMap) : (d.modCMap k f).getStack j = d.getStack j := rfl
@[simp] theorem modCMap_getRegion (d : Dev) (k j : Nat) (f : CMap → CMap) : (d.modCMap k f).getRegion j = d.getRegion j := rfl
@[simp] theorem modCMap_getScrub (d : Dev) (k j : Nat) (f : CMap → CMap) : (d.modCMap k f).getScrub j = d.getScrub j := rfl
@[simp] theorem modCMap_getAssay (d : Dev) (k j : Nat) (f : CMap → CMap) : (d.modCMap k f).getAssay j = d.getAssay j := rfl
@[simp] theorem modCMap_getTap (d : Dev) (k j : Nat) (f : CMap → CMap) : (d.modCMap k f).getTap j = d.getTap j := rfl
@[simp] theorem modCMap_getHalfPow (d : Dev) (k j : Nat) (f : CMap → CMap) : (d.modCMap k f).getHalfPow j = d.getHalfPow j := rfl
@[simp] theorem modCMap_getRail (d : Dev) (k j : Nat) (f : CMap → CMap) : (d.modCMap k f).getRail j = d.getRail j := rfl
@[simp] theorem modCMap_getGuar (d : Dev) (k j : Nat) (f : CMap → CMap) : (d.modCMap k f).getGuar j = d.getGuar j := rfl
@[simp] theorem modCMap_getBPort (d : Dev) (k j : Nat) (f : CMap → CMap) : (d.modCMap k f).getBPort j = d.getBPort j := rfl
@[simp] theorem modCMap_getPartFab (d : Dev) (k j : Nat) (f : CMap → CMap) : (d.modCMap k f).getPartFab j = d.getPartFab j := rfl
@[simp] theorem modCMap_getDrop (d : Dev) (k j : Nat) (f : CMap → CMap) : (d.modCMap k f).getDrop j = d.getDrop j := rfl
@[simp] theorem modCMap_getPortCnt (d : Dev) (k j : Nat) (f : CMap → CMap) : (d.modCMap k f).getPortCnt j = d.getPortCnt j := rfl
@[simp] theorem modCMap_getWindow (d : Dev) (k j : Nat) (f : CMap → CMap) : (d.modCMap k f).getWindow j = d.getWindow j := rfl

/-! `Dev.modChan` changes `barr.ch` under one key. -/
@[simp] theorem modChan_same (d : Dev) (k : Nat) (f : BarrierCh → BarrierCh) : (d.modChan k f).getChan k = f (d.getChan k) := by simp [Dev.modChan, Dev.getChan]
theorem modChan_ne (d : Dev) (f : BarrierCh → BarrierCh) {k j : Nat} (h : j ≠ k) : (d.modChan k f).getChan j = d.getChan j := tabGet_tabSet_ne _ _ h _
@[simp] theorem modChan_clock (d : Dev) (k : Nat) (f : BarrierCh → BarrierCh) : (d.modChan k f).clock = d.clock := rfl
@[simp] theorem modChan_pins (d : Dev) (k : Nat) (f : BarrierCh → BarrierCh) : (d.modChan k f).pins = d.pins := rfl
@[simp] theorem modChan_boot (d : Dev) (k : Nat) (f : BarrierCh → BarrierCh) : (d.modChan k f).boot = d.boot := rfl
@[simp] theorem modChan_fuses (d : Dev) (k : Nat) (f : BarrierCh → BarrierCh) : (d.modChan k f).fuses = d.fuses := rfl
@[simp] theorem modChan_flash (d : Dev) (k : Nat) (f : BarrierCh → BarrierCh) : (d.modChan k f).flash = d.flash := rfl
@[simp] theorem modChan_caps (d : Dev) (k : Nat) (f : BarrierCh → BarrierCh) : (d.modChan k f).caps = d.caps := rfl
@[simp] theorem modChan_beat (d : Dev) (k : Nat) (f : BarrierCh → BarrierCh) : (d.modChan k f).beat = d.beat := rfl
@[simp] theorem modChan_aux (d : Dev) (k : Nat) (f : BarrierCh → BarrierCh) : (d.modChan k f).aux = d.aux := rfl
@[simp] theorem modChan_dies (d : Dev) (k : Nat) (f : BarrierCh → BarrierCh) : (d.modChan k f).dies = d.dies := rfl
@[simp] theorem modChan_mesh (d : Dev) (k : Nat) (f : BarrierCh → BarrierCh) : (d.modChan k f).mesh = d.mesh := rfl
@[simp] theorem modChan_slab (d : Dev) (k : Nat) (f : BarrierCh → BarrierCh) : (d.modChan k f).slab = d.slab := rfl
@[simp] theorem modChan_peb (d : Dev) (k : Nat) (f : BarrierCh → BarrierCh) : (d.modChan k f).peb = d.peb := rfl
@[simp] theorem modChan_mem (d : Dev) (k : Nat) (f : BarrierCh → BarrierCh) : (d.modChan k f).mem = d.mem := rfl
@[simp] theorem modChan_cairn (d : Dev) (k : Nat) (f : BarrierCh → BarrierCh) : (d.modChan k f).cairn = d.cairn := rfl
@[simp] theorem modChan_fab (d : Dev) (k : Nat) (f : BarrierCh → BarrierCh) : (d.modChan k f).fab = d.fab := rfl
@[simp] theorem modChan_links (d : Dev) (k : Nat) (f : BarrierCh → BarrierCh) : (d.modChan k f).links = d.links := rfl
@[simp] theorem modChan_host (d : Dev) (k : Nat) (f : BarrierCh → BarrierCh) : (d.modChan k f).host = d.host := rfl
@[simp] theorem modChan_bed (d : Dev) (k : Nat) (f : BarrierCh → BarrierCh) : (d.modChan k f).bed = d.bed := rfl
@[simp] theorem modChan_idle (d : Dev) (k : Nat) (f : BarrierCh → BarrierCh) : (d.modChan k f).idle = d.idle := rfl
@[simp] theorem modChan_parts (d : Dev) (k : Nat) (f : BarrierCh → BarrierCh) : (d.modChan k f).parts = d.parts := rfl
@[simp] theorem modChan_sec (d : Dev) (k : Nat) (f : BarrierCh → BarrierCh) : (d.modChan k f).sec = d.sec := rfl
@[simp] theorem modChan_pow (d : Dev) (k : Nat) (f : BarrierCh → BarrierCh) : (d.modChan k f).pow = d.pow := rfl
@[simp] theorem modChan_powu (d : Dev) (k : Nat) (f : BarrierCh → BarrierCh) : (d.modChan k f).powu = d.powu := rfl
@[simp] theorem modChan_therm (d : Dev) (k : Nat) (f : BarrierCh → BarrierCh) : (d.modChan k f).therm = d.therm := rfl
@[simp] theorem modChan_evt (d : Dev) (k : Nat) (f : BarrierCh → BarrierCh) : (d.modChan k f).evt = d.evt := rfl
@[simp] theorem modChan_mirror (d : Dev) (k : Nat) (f : BarrierCh → BarrierCh) : (d.modChan k f).mirror = d.mirror := rfl
@[simp] theorem modChan_mgmt (d : Dev) (k : Nat) (f : BarrierCh → BarrierCh) : (d.modChan k f).mgmt = d.mgmt := rfl
@[simp] theorem modChan_test (d : Dev) (k : Nat) (f : BarrierCh → BarrierCh) : (d.modChan k f).test = d.test := rfl
@[simp] theorem modChan_barr_tree (d : Dev) (k : Nat) (f : BarrierCh → BarrierCh) : (d.modChan k f).barr.tree = d.barr.tree := rfl
@[simp] theorem modChan_getSlab (d : Dev) (k j : Nat) (f : BarrierCh → BarrierCh) : (d.modChan k f).getSlab j = d.getSlab j := rfl
@[simp] theorem modChan_getSCtx (d : Dev) (k j : Nat) (f : BarrierCh → BarrierCh) : (d.modChan k f).getSCtx j = d.getSCtx j := rfl
@[simp] theorem modChan_getHalf (d : Dev) (k j : Nat) (f : BarrierCh → BarrierCh) : (d.modChan k f).getHalf j = d.getHalf j := rfl
@[simp] theorem modChan_getSeam (d : Dev) (k j : Nat) (f : BarrierCh → BarrierCh) : (d.modChan k f).getSeam j = d.getSeam j := rfl
@[simp] theorem modChan_getCluster (d : Dev) (k j : Nat) (f : BarrierCh → BarrierCh) : (d.modChan k f).getCluster j = d.getCluster j := rfl
@[simp] theorem modChan_getPebble (d : Dev) (k j : Nat) (f : BarrierCh → BarrierCh) : (d.modChan k f).getPebble j = d.getPebble j := rfl
@[simp] theorem modChan_getPCtx (d : Dev) (k j : Nat) (f : BarrierCh → BarrierCh) : (d.modChan k f).getPCtx j = d.getPCtx j := rfl
@[simp] theorem modChan_getLink (d : Dev) (k j : Nat) (f : BarrierCh → BarrierCh) : (d.modChan k f).getLink j = d.getLink j := rfl
@[simp] theorem modChan_getRing (d : Dev) (k j : Nat) (f : BarrierCh → BarrierCh) : (d.modChan k f).getRing j = d.getRing j := rfl
@[simp] theorem modChan_getPart (d : Dev) (k j : Nat) (f : BarrierCh → BarrierCh) : (d.modChan k f).getPart j = d.getPart j := rfl
@[simp] theorem modChan_getCairnTile (d : Dev) (k j : Nat) (f : BarrierCh → BarrierCh) : (d.modChan k f).getCairnTile j = d.getCairnTile j := rfl
@[simp] theorem modChan_getCMap (d : Dev) (k j : Nat) (f : BarrierCh → BarrierCh) : (d.modChan k f).getCMap j = d.getCMap j := rfl
@[simp] theorem modChan_getTree (d : Dev) (k j : Nat) (f : BarrierCh → BarrierCh) : (d.modChan k f).getTree j = d.getTree j := rfl
@[simp] theorem modChan_getStack (d : Dev) (k j : Nat) (f : BarrierCh → BarrierCh) : (d.modChan k f).getStack j = d.getStack j := rfl
@[simp] theorem modChan_getRegion (d : Dev) (k j : Nat) (f : BarrierCh → BarrierCh) : (d.modChan k f).getRegion j = d.getRegion j := rfl
@[simp] theorem modChan_getScrub (d : Dev) (k j : Nat) (f : BarrierCh → BarrierCh) : (d.modChan k f).getScrub j = d.getScrub j := rfl
@[simp] theorem modChan_getAssay (d : Dev) (k j : Nat) (f : BarrierCh → BarrierCh) : (d.modChan k f).getAssay j = d.getAssay j := rfl
@[simp] theorem modChan_getTap (d : Dev) (k j : Nat) (f : BarrierCh → BarrierCh) : (d.modChan k f).getTap j = d.getTap j := rfl
@[simp] theorem modChan_getHalfPow (d : Dev) (k j : Nat) (f : BarrierCh → BarrierCh) : (d.modChan k f).getHalfPow j = d.getHalfPow j := rfl
@[simp] theorem modChan_getRail (d : Dev) (k j : Nat) (f : BarrierCh → BarrierCh) : (d.modChan k f).getRail j = d.getRail j := rfl
@[simp] theorem modChan_getGuar (d : Dev) (k j : Nat) (f : BarrierCh → BarrierCh) : (d.modChan k f).getGuar j = d.getGuar j := rfl
@[simp] theorem modChan_getBPort (d : Dev) (k j : Nat) (f : BarrierCh → BarrierCh) : (d.modChan k f).getBPort j = d.getBPort j := rfl
@[simp] theorem modChan_getPartFab (d : Dev) (k j : Nat) (f : BarrierCh → BarrierCh) : (d.modChan k f).getPartFab j = d.getPartFab j := rfl
@[simp] theorem modChan_getDrop (d : Dev) (k j : Nat) (f : BarrierCh → BarrierCh) : (d.modChan k f).getDrop j = d.getDrop j := rfl
@[simp] theorem modChan_getPortCnt (d : Dev) (k j : Nat) (f : BarrierCh → BarrierCh) : (d.modChan k f).getPortCnt j = d.getPortCnt j := rfl
@[simp] theorem modChan_getWindow (d : Dev) (k j : Nat) (f : BarrierCh → BarrierCh) : (d.modChan k f).getWindow j = d.getWindow j := rfl

/-! `Dev.modTree` changes `barr.tree` under one key. -/
@[simp] theorem modTree_same (d : Dev) (k : Nat) (f : BarrierTree → BarrierTree) : (d.modTree k f).getTree k = f (d.getTree k) := by simp [Dev.modTree, Dev.getTree]
theorem modTree_ne (d : Dev) (f : BarrierTree → BarrierTree) {k j : Nat} (h : j ≠ k) : (d.modTree k f).getTree j = d.getTree j := tabGet_tabSet_ne _ _ h _
@[simp] theorem modTree_clock (d : Dev) (k : Nat) (f : BarrierTree → BarrierTree) : (d.modTree k f).clock = d.clock := rfl
@[simp] theorem modTree_pins (d : Dev) (k : Nat) (f : BarrierTree → BarrierTree) : (d.modTree k f).pins = d.pins := rfl
@[simp] theorem modTree_boot (d : Dev) (k : Nat) (f : BarrierTree → BarrierTree) : (d.modTree k f).boot = d.boot := rfl
@[simp] theorem modTree_fuses (d : Dev) (k : Nat) (f : BarrierTree → BarrierTree) : (d.modTree k f).fuses = d.fuses := rfl
@[simp] theorem modTree_flash (d : Dev) (k : Nat) (f : BarrierTree → BarrierTree) : (d.modTree k f).flash = d.flash := rfl
@[simp] theorem modTree_caps (d : Dev) (k : Nat) (f : BarrierTree → BarrierTree) : (d.modTree k f).caps = d.caps := rfl
@[simp] theorem modTree_beat (d : Dev) (k : Nat) (f : BarrierTree → BarrierTree) : (d.modTree k f).beat = d.beat := rfl
@[simp] theorem modTree_aux (d : Dev) (k : Nat) (f : BarrierTree → BarrierTree) : (d.modTree k f).aux = d.aux := rfl
@[simp] theorem modTree_dies (d : Dev) (k : Nat) (f : BarrierTree → BarrierTree) : (d.modTree k f).dies = d.dies := rfl
@[simp] theorem modTree_mesh (d : Dev) (k : Nat) (f : BarrierTree → BarrierTree) : (d.modTree k f).mesh = d.mesh := rfl
@[simp] theorem modTree_slab (d : Dev) (k : Nat) (f : BarrierTree → BarrierTree) : (d.modTree k f).slab = d.slab := rfl
@[simp] theorem modTree_peb (d : Dev) (k : Nat) (f : BarrierTree → BarrierTree) : (d.modTree k f).peb = d.peb := rfl
@[simp] theorem modTree_mem (d : Dev) (k : Nat) (f : BarrierTree → BarrierTree) : (d.modTree k f).mem = d.mem := rfl
@[simp] theorem modTree_cairn (d : Dev) (k : Nat) (f : BarrierTree → BarrierTree) : (d.modTree k f).cairn = d.cairn := rfl
@[simp] theorem modTree_fab (d : Dev) (k : Nat) (f : BarrierTree → BarrierTree) : (d.modTree k f).fab = d.fab := rfl
@[simp] theorem modTree_links (d : Dev) (k : Nat) (f : BarrierTree → BarrierTree) : (d.modTree k f).links = d.links := rfl
@[simp] theorem modTree_host (d : Dev) (k : Nat) (f : BarrierTree → BarrierTree) : (d.modTree k f).host = d.host := rfl
@[simp] theorem modTree_bed (d : Dev) (k : Nat) (f : BarrierTree → BarrierTree) : (d.modTree k f).bed = d.bed := rfl
@[simp] theorem modTree_idle (d : Dev) (k : Nat) (f : BarrierTree → BarrierTree) : (d.modTree k f).idle = d.idle := rfl
@[simp] theorem modTree_parts (d : Dev) (k : Nat) (f : BarrierTree → BarrierTree) : (d.modTree k f).parts = d.parts := rfl
@[simp] theorem modTree_sec (d : Dev) (k : Nat) (f : BarrierTree → BarrierTree) : (d.modTree k f).sec = d.sec := rfl
@[simp] theorem modTree_pow (d : Dev) (k : Nat) (f : BarrierTree → BarrierTree) : (d.modTree k f).pow = d.pow := rfl
@[simp] theorem modTree_powu (d : Dev) (k : Nat) (f : BarrierTree → BarrierTree) : (d.modTree k f).powu = d.powu := rfl
@[simp] theorem modTree_therm (d : Dev) (k : Nat) (f : BarrierTree → BarrierTree) : (d.modTree k f).therm = d.therm := rfl
@[simp] theorem modTree_evt (d : Dev) (k : Nat) (f : BarrierTree → BarrierTree) : (d.modTree k f).evt = d.evt := rfl
@[simp] theorem modTree_mirror (d : Dev) (k : Nat) (f : BarrierTree → BarrierTree) : (d.modTree k f).mirror = d.mirror := rfl
@[simp] theorem modTree_mgmt (d : Dev) (k : Nat) (f : BarrierTree → BarrierTree) : (d.modTree k f).mgmt = d.mgmt := rfl
@[simp] theorem modTree_test (d : Dev) (k : Nat) (f : BarrierTree → BarrierTree) : (d.modTree k f).test = d.test := rfl
@[simp] theorem modTree_barr_ch (d : Dev) (k : Nat) (f : BarrierTree → BarrierTree) : (d.modTree k f).barr.ch = d.barr.ch := rfl
@[simp] theorem modTree_getSlab (d : Dev) (k j : Nat) (f : BarrierTree → BarrierTree) : (d.modTree k f).getSlab j = d.getSlab j := rfl
@[simp] theorem modTree_getSCtx (d : Dev) (k j : Nat) (f : BarrierTree → BarrierTree) : (d.modTree k f).getSCtx j = d.getSCtx j := rfl
@[simp] theorem modTree_getHalf (d : Dev) (k j : Nat) (f : BarrierTree → BarrierTree) : (d.modTree k f).getHalf j = d.getHalf j := rfl
@[simp] theorem modTree_getSeam (d : Dev) (k j : Nat) (f : BarrierTree → BarrierTree) : (d.modTree k f).getSeam j = d.getSeam j := rfl
@[simp] theorem modTree_getCluster (d : Dev) (k j : Nat) (f : BarrierTree → BarrierTree) : (d.modTree k f).getCluster j = d.getCluster j := rfl
@[simp] theorem modTree_getPebble (d : Dev) (k j : Nat) (f : BarrierTree → BarrierTree) : (d.modTree k f).getPebble j = d.getPebble j := rfl
@[simp] theorem modTree_getPCtx (d : Dev) (k j : Nat) (f : BarrierTree → BarrierTree) : (d.modTree k f).getPCtx j = d.getPCtx j := rfl
@[simp] theorem modTree_getLink (d : Dev) (k j : Nat) (f : BarrierTree → BarrierTree) : (d.modTree k f).getLink j = d.getLink j := rfl
@[simp] theorem modTree_getRing (d : Dev) (k j : Nat) (f : BarrierTree → BarrierTree) : (d.modTree k f).getRing j = d.getRing j := rfl
@[simp] theorem modTree_getPart (d : Dev) (k j : Nat) (f : BarrierTree → BarrierTree) : (d.modTree k f).getPart j = d.getPart j := rfl
@[simp] theorem modTree_getCairnTile (d : Dev) (k j : Nat) (f : BarrierTree → BarrierTree) : (d.modTree k f).getCairnTile j = d.getCairnTile j := rfl
@[simp] theorem modTree_getCMap (d : Dev) (k j : Nat) (f : BarrierTree → BarrierTree) : (d.modTree k f).getCMap j = d.getCMap j := rfl
@[simp] theorem modTree_getChan (d : Dev) (k j : Nat) (f : BarrierTree → BarrierTree) : (d.modTree k f).getChan j = d.getChan j := rfl
@[simp] theorem modTree_getStack (d : Dev) (k j : Nat) (f : BarrierTree → BarrierTree) : (d.modTree k f).getStack j = d.getStack j := rfl
@[simp] theorem modTree_getRegion (d : Dev) (k j : Nat) (f : BarrierTree → BarrierTree) : (d.modTree k f).getRegion j = d.getRegion j := rfl
@[simp] theorem modTree_getScrub (d : Dev) (k j : Nat) (f : BarrierTree → BarrierTree) : (d.modTree k f).getScrub j = d.getScrub j := rfl
@[simp] theorem modTree_getAssay (d : Dev) (k j : Nat) (f : BarrierTree → BarrierTree) : (d.modTree k f).getAssay j = d.getAssay j := rfl
@[simp] theorem modTree_getTap (d : Dev) (k j : Nat) (f : BarrierTree → BarrierTree) : (d.modTree k f).getTap j = d.getTap j := rfl
@[simp] theorem modTree_getHalfPow (d : Dev) (k j : Nat) (f : BarrierTree → BarrierTree) : (d.modTree k f).getHalfPow j = d.getHalfPow j := rfl
@[simp] theorem modTree_getRail (d : Dev) (k j : Nat) (f : BarrierTree → BarrierTree) : (d.modTree k f).getRail j = d.getRail j := rfl
@[simp] theorem modTree_getGuar (d : Dev) (k j : Nat) (f : BarrierTree → BarrierTree) : (d.modTree k f).getGuar j = d.getGuar j := rfl
@[simp] theorem modTree_getBPort (d : Dev) (k j : Nat) (f : BarrierTree → BarrierTree) : (d.modTree k f).getBPort j = d.getBPort j := rfl
@[simp] theorem modTree_getPartFab (d : Dev) (k j : Nat) (f : BarrierTree → BarrierTree) : (d.modTree k f).getPartFab j = d.getPartFab j := rfl
@[simp] theorem modTree_getDrop (d : Dev) (k j : Nat) (f : BarrierTree → BarrierTree) : (d.modTree k f).getDrop j = d.getDrop j := rfl
@[simp] theorem modTree_getPortCnt (d : Dev) (k j : Nat) (f : BarrierTree → BarrierTree) : (d.modTree k f).getPortCnt j = d.getPortCnt j := rfl
@[simp] theorem modTree_getWindow (d : Dev) (k j : Nat) (f : BarrierTree → BarrierTree) : (d.modTree k f).getWindow j = d.getWindow j := rfl

/-! `Dev.modStack` changes `mem.stackTab` under one key. -/
@[simp] theorem modStack_same (d : Dev) (k : Nat) (f : Stack → Stack) : (d.modStack k f).getStack k = f (d.getStack k) := by simp [Dev.modStack, Dev.getStack]
theorem modStack_ne (d : Dev) (f : Stack → Stack) {k j : Nat} (h : j ≠ k) : (d.modStack k f).getStack j = d.getStack j := tabGet_tabSet_ne _ _ h _
@[simp] theorem modStack_clock (d : Dev) (k : Nat) (f : Stack → Stack) : (d.modStack k f).clock = d.clock := rfl
@[simp] theorem modStack_pins (d : Dev) (k : Nat) (f : Stack → Stack) : (d.modStack k f).pins = d.pins := rfl
@[simp] theorem modStack_boot (d : Dev) (k : Nat) (f : Stack → Stack) : (d.modStack k f).boot = d.boot := rfl
@[simp] theorem modStack_fuses (d : Dev) (k : Nat) (f : Stack → Stack) : (d.modStack k f).fuses = d.fuses := rfl
@[simp] theorem modStack_flash (d : Dev) (k : Nat) (f : Stack → Stack) : (d.modStack k f).flash = d.flash := rfl
@[simp] theorem modStack_caps (d : Dev) (k : Nat) (f : Stack → Stack) : (d.modStack k f).caps = d.caps := rfl
@[simp] theorem modStack_beat (d : Dev) (k : Nat) (f : Stack → Stack) : (d.modStack k f).beat = d.beat := rfl
@[simp] theorem modStack_aux (d : Dev) (k : Nat) (f : Stack → Stack) : (d.modStack k f).aux = d.aux := rfl
@[simp] theorem modStack_dies (d : Dev) (k : Nat) (f : Stack → Stack) : (d.modStack k f).dies = d.dies := rfl
@[simp] theorem modStack_mesh (d : Dev) (k : Nat) (f : Stack → Stack) : (d.modStack k f).mesh = d.mesh := rfl
@[simp] theorem modStack_slab (d : Dev) (k : Nat) (f : Stack → Stack) : (d.modStack k f).slab = d.slab := rfl
@[simp] theorem modStack_peb (d : Dev) (k : Nat) (f : Stack → Stack) : (d.modStack k f).peb = d.peb := rfl
@[simp] theorem modStack_cairn (d : Dev) (k : Nat) (f : Stack → Stack) : (d.modStack k f).cairn = d.cairn := rfl
@[simp] theorem modStack_barr (d : Dev) (k : Nat) (f : Stack → Stack) : (d.modStack k f).barr = d.barr := rfl
@[simp] theorem modStack_fab (d : Dev) (k : Nat) (f : Stack → Stack) : (d.modStack k f).fab = d.fab := rfl
@[simp] theorem modStack_links (d : Dev) (k : Nat) (f : Stack → Stack) : (d.modStack k f).links = d.links := rfl
@[simp] theorem modStack_host (d : Dev) (k : Nat) (f : Stack → Stack) : (d.modStack k f).host = d.host := rfl
@[simp] theorem modStack_bed (d : Dev) (k : Nat) (f : Stack → Stack) : (d.modStack k f).bed = d.bed := rfl
@[simp] theorem modStack_idle (d : Dev) (k : Nat) (f : Stack → Stack) : (d.modStack k f).idle = d.idle := rfl
@[simp] theorem modStack_parts (d : Dev) (k : Nat) (f : Stack → Stack) : (d.modStack k f).parts = d.parts := rfl
@[simp] theorem modStack_sec (d : Dev) (k : Nat) (f : Stack → Stack) : (d.modStack k f).sec = d.sec := rfl
@[simp] theorem modStack_pow (d : Dev) (k : Nat) (f : Stack → Stack) : (d.modStack k f).pow = d.pow := rfl
@[simp] theorem modStack_powu (d : Dev) (k : Nat) (f : Stack → Stack) : (d.modStack k f).powu = d.powu := rfl
@[simp] theorem modStack_therm (d : Dev) (k : Nat) (f : Stack → Stack) : (d.modStack k f).therm = d.therm := rfl
@[simp] theorem modStack_evt (d : Dev) (k : Nat) (f : Stack → Stack) : (d.modStack k f).evt = d.evt := rfl
@[simp] theorem modStack_mirror (d : Dev) (k : Nat) (f : Stack → Stack) : (d.modStack k f).mirror = d.mirror := rfl
@[simp] theorem modStack_mgmt (d : Dev) (k : Nat) (f : Stack → Stack) : (d.modStack k f).mgmt = d.mgmt := rfl
@[simp] theorem modStack_test (d : Dev) (k : Nat) (f : Stack → Stack) : (d.modStack k f).test = d.test := rfl
@[simp] theorem modStack_mem_cells (d : Dev) (k : Nat) (f : Stack → Stack) : (d.modStack k f).mem.cells = d.mem.cells := rfl
@[simp] theorem modStack_mem_err (d : Dev) (k : Nat) (f : Stack → Stack) : (d.modStack k f).mem.err = d.mem.err := rfl
@[simp] theorem modStack_mem_writeBacks (d : Dev) (k : Nat) (f : Stack → Stack) : (d.modStack k f).mem.writeBacks = d.mem.writeBacks := rfl
@[simp] theorem modStack_mem_regions (d : Dev) (k : Nat) (f : Stack → Stack) : (d.modStack k f).mem.regions = d.mem.regions := rfl
@[simp] theorem modStack_mem_scrub (d : Dev) (k : Nat) (f : Stack → Stack) : (d.modStack k f).mem.scrub = d.mem.scrub := rfl
@[simp] theorem modStack_getSlab (d : Dev) (k j : Nat) (f : Stack → Stack) : (d.modStack k f).getSlab j = d.getSlab j := rfl
@[simp] theorem modStack_getSCtx (d : Dev) (k j : Nat) (f : Stack → Stack) : (d.modStack k f).getSCtx j = d.getSCtx j := rfl
@[simp] theorem modStack_getHalf (d : Dev) (k j : Nat) (f : Stack → Stack) : (d.modStack k f).getHalf j = d.getHalf j := rfl
@[simp] theorem modStack_getSeam (d : Dev) (k j : Nat) (f : Stack → Stack) : (d.modStack k f).getSeam j = d.getSeam j := rfl
@[simp] theorem modStack_getCluster (d : Dev) (k j : Nat) (f : Stack → Stack) : (d.modStack k f).getCluster j = d.getCluster j := rfl
@[simp] theorem modStack_getPebble (d : Dev) (k j : Nat) (f : Stack → Stack) : (d.modStack k f).getPebble j = d.getPebble j := rfl
@[simp] theorem modStack_getPCtx (d : Dev) (k j : Nat) (f : Stack → Stack) : (d.modStack k f).getPCtx j = d.getPCtx j := rfl
@[simp] theorem modStack_getLink (d : Dev) (k j : Nat) (f : Stack → Stack) : (d.modStack k f).getLink j = d.getLink j := rfl
@[simp] theorem modStack_getRing (d : Dev) (k j : Nat) (f : Stack → Stack) : (d.modStack k f).getRing j = d.getRing j := rfl
@[simp] theorem modStack_getPart (d : Dev) (k j : Nat) (f : Stack → Stack) : (d.modStack k f).getPart j = d.getPart j := rfl
@[simp] theorem modStack_getCairnTile (d : Dev) (k j : Nat) (f : Stack → Stack) : (d.modStack k f).getCairnTile j = d.getCairnTile j := rfl
@[simp] theorem modStack_getCMap (d : Dev) (k j : Nat) (f : Stack → Stack) : (d.modStack k f).getCMap j = d.getCMap j := rfl
@[simp] theorem modStack_getChan (d : Dev) (k j : Nat) (f : Stack → Stack) : (d.modStack k f).getChan j = d.getChan j := rfl
@[simp] theorem modStack_getTree (d : Dev) (k j : Nat) (f : Stack → Stack) : (d.modStack k f).getTree j = d.getTree j := rfl
@[simp] theorem modStack_getRegion (d : Dev) (k j : Nat) (f : Stack → Stack) : (d.modStack k f).getRegion j = d.getRegion j := rfl
@[simp] theorem modStack_getScrub (d : Dev) (k j : Nat) (f : Stack → Stack) : (d.modStack k f).getScrub j = d.getScrub j := rfl
@[simp] theorem modStack_getAssay (d : Dev) (k j : Nat) (f : Stack → Stack) : (d.modStack k f).getAssay j = d.getAssay j := rfl
@[simp] theorem modStack_getTap (d : Dev) (k j : Nat) (f : Stack → Stack) : (d.modStack k f).getTap j = d.getTap j := rfl
@[simp] theorem modStack_getHalfPow (d : Dev) (k j : Nat) (f : Stack → Stack) : (d.modStack k f).getHalfPow j = d.getHalfPow j := rfl
@[simp] theorem modStack_getRail (d : Dev) (k j : Nat) (f : Stack → Stack) : (d.modStack k f).getRail j = d.getRail j := rfl
@[simp] theorem modStack_getGuar (d : Dev) (k j : Nat) (f : Stack → Stack) : (d.modStack k f).getGuar j = d.getGuar j := rfl
@[simp] theorem modStack_getBPort (d : Dev) (k j : Nat) (f : Stack → Stack) : (d.modStack k f).getBPort j = d.getBPort j := rfl
@[simp] theorem modStack_getPartFab (d : Dev) (k j : Nat) (f : Stack → Stack) : (d.modStack k f).getPartFab j = d.getPartFab j := rfl
@[simp] theorem modStack_getDrop (d : Dev) (k j : Nat) (f : Stack → Stack) : (d.modStack k f).getDrop j = d.getDrop j := rfl
@[simp] theorem modStack_getPortCnt (d : Dev) (k j : Nat) (f : Stack → Stack) : (d.modStack k f).getPortCnt j = d.getPortCnt j := rfl
@[simp] theorem modStack_getWindow (d : Dev) (k j : Nat) (f : Stack → Stack) : (d.modStack k f).getWindow j = d.getWindow j := rfl

/-! `Dev.modRegion` changes `mem.regions` under one key. -/
@[simp] theorem modRegion_same (d : Dev) (k : Nat) (f : Region → Region) : (d.modRegion k f).getRegion k = f (d.getRegion k) := by simp [Dev.modRegion, Dev.getRegion]
theorem modRegion_ne (d : Dev) (f : Region → Region) {k j : Nat} (h : j ≠ k) : (d.modRegion k f).getRegion j = d.getRegion j := tabGet_tabSet_ne _ _ h _
@[simp] theorem modRegion_clock (d : Dev) (k : Nat) (f : Region → Region) : (d.modRegion k f).clock = d.clock := rfl
@[simp] theorem modRegion_pins (d : Dev) (k : Nat) (f : Region → Region) : (d.modRegion k f).pins = d.pins := rfl
@[simp] theorem modRegion_boot (d : Dev) (k : Nat) (f : Region → Region) : (d.modRegion k f).boot = d.boot := rfl
@[simp] theorem modRegion_fuses (d : Dev) (k : Nat) (f : Region → Region) : (d.modRegion k f).fuses = d.fuses := rfl
@[simp] theorem modRegion_flash (d : Dev) (k : Nat) (f : Region → Region) : (d.modRegion k f).flash = d.flash := rfl
@[simp] theorem modRegion_caps (d : Dev) (k : Nat) (f : Region → Region) : (d.modRegion k f).caps = d.caps := rfl
@[simp] theorem modRegion_beat (d : Dev) (k : Nat) (f : Region → Region) : (d.modRegion k f).beat = d.beat := rfl
@[simp] theorem modRegion_aux (d : Dev) (k : Nat) (f : Region → Region) : (d.modRegion k f).aux = d.aux := rfl
@[simp] theorem modRegion_dies (d : Dev) (k : Nat) (f : Region → Region) : (d.modRegion k f).dies = d.dies := rfl
@[simp] theorem modRegion_mesh (d : Dev) (k : Nat) (f : Region → Region) : (d.modRegion k f).mesh = d.mesh := rfl
@[simp] theorem modRegion_slab (d : Dev) (k : Nat) (f : Region → Region) : (d.modRegion k f).slab = d.slab := rfl
@[simp] theorem modRegion_peb (d : Dev) (k : Nat) (f : Region → Region) : (d.modRegion k f).peb = d.peb := rfl
@[simp] theorem modRegion_cairn (d : Dev) (k : Nat) (f : Region → Region) : (d.modRegion k f).cairn = d.cairn := rfl
@[simp] theorem modRegion_barr (d : Dev) (k : Nat) (f : Region → Region) : (d.modRegion k f).barr = d.barr := rfl
@[simp] theorem modRegion_fab (d : Dev) (k : Nat) (f : Region → Region) : (d.modRegion k f).fab = d.fab := rfl
@[simp] theorem modRegion_links (d : Dev) (k : Nat) (f : Region → Region) : (d.modRegion k f).links = d.links := rfl
@[simp] theorem modRegion_host (d : Dev) (k : Nat) (f : Region → Region) : (d.modRegion k f).host = d.host := rfl
@[simp] theorem modRegion_bed (d : Dev) (k : Nat) (f : Region → Region) : (d.modRegion k f).bed = d.bed := rfl
@[simp] theorem modRegion_idle (d : Dev) (k : Nat) (f : Region → Region) : (d.modRegion k f).idle = d.idle := rfl
@[simp] theorem modRegion_parts (d : Dev) (k : Nat) (f : Region → Region) : (d.modRegion k f).parts = d.parts := rfl
@[simp] theorem modRegion_sec (d : Dev) (k : Nat) (f : Region → Region) : (d.modRegion k f).sec = d.sec := rfl
@[simp] theorem modRegion_pow (d : Dev) (k : Nat) (f : Region → Region) : (d.modRegion k f).pow = d.pow := rfl
@[simp] theorem modRegion_powu (d : Dev) (k : Nat) (f : Region → Region) : (d.modRegion k f).powu = d.powu := rfl
@[simp] theorem modRegion_therm (d : Dev) (k : Nat) (f : Region → Region) : (d.modRegion k f).therm = d.therm := rfl
@[simp] theorem modRegion_evt (d : Dev) (k : Nat) (f : Region → Region) : (d.modRegion k f).evt = d.evt := rfl
@[simp] theorem modRegion_mirror (d : Dev) (k : Nat) (f : Region → Region) : (d.modRegion k f).mirror = d.mirror := rfl
@[simp] theorem modRegion_mgmt (d : Dev) (k : Nat) (f : Region → Region) : (d.modRegion k f).mgmt = d.mgmt := rfl
@[simp] theorem modRegion_test (d : Dev) (k : Nat) (f : Region → Region) : (d.modRegion k f).test = d.test := rfl
@[simp] theorem modRegion_mem_cells (d : Dev) (k : Nat) (f : Region → Region) : (d.modRegion k f).mem.cells = d.mem.cells := rfl
@[simp] theorem modRegion_mem_err (d : Dev) (k : Nat) (f : Region → Region) : (d.modRegion k f).mem.err = d.mem.err := rfl
@[simp] theorem modRegion_mem_writeBacks (d : Dev) (k : Nat) (f : Region → Region) : (d.modRegion k f).mem.writeBacks = d.mem.writeBacks := rfl
@[simp] theorem modRegion_mem_stackTab (d : Dev) (k : Nat) (f : Region → Region) : (d.modRegion k f).mem.stackTab = d.mem.stackTab := rfl
@[simp] theorem modRegion_mem_scrub (d : Dev) (k : Nat) (f : Region → Region) : (d.modRegion k f).mem.scrub = d.mem.scrub := rfl
@[simp] theorem modRegion_getSlab (d : Dev) (k j : Nat) (f : Region → Region) : (d.modRegion k f).getSlab j = d.getSlab j := rfl
@[simp] theorem modRegion_getSCtx (d : Dev) (k j : Nat) (f : Region → Region) : (d.modRegion k f).getSCtx j = d.getSCtx j := rfl
@[simp] theorem modRegion_getHalf (d : Dev) (k j : Nat) (f : Region → Region) : (d.modRegion k f).getHalf j = d.getHalf j := rfl
@[simp] theorem modRegion_getSeam (d : Dev) (k j : Nat) (f : Region → Region) : (d.modRegion k f).getSeam j = d.getSeam j := rfl
@[simp] theorem modRegion_getCluster (d : Dev) (k j : Nat) (f : Region → Region) : (d.modRegion k f).getCluster j = d.getCluster j := rfl
@[simp] theorem modRegion_getPebble (d : Dev) (k j : Nat) (f : Region → Region) : (d.modRegion k f).getPebble j = d.getPebble j := rfl
@[simp] theorem modRegion_getPCtx (d : Dev) (k j : Nat) (f : Region → Region) : (d.modRegion k f).getPCtx j = d.getPCtx j := rfl
@[simp] theorem modRegion_getLink (d : Dev) (k j : Nat) (f : Region → Region) : (d.modRegion k f).getLink j = d.getLink j := rfl
@[simp] theorem modRegion_getRing (d : Dev) (k j : Nat) (f : Region → Region) : (d.modRegion k f).getRing j = d.getRing j := rfl
@[simp] theorem modRegion_getPart (d : Dev) (k j : Nat) (f : Region → Region) : (d.modRegion k f).getPart j = d.getPart j := rfl
@[simp] theorem modRegion_getCairnTile (d : Dev) (k j : Nat) (f : Region → Region) : (d.modRegion k f).getCairnTile j = d.getCairnTile j := rfl
@[simp] theorem modRegion_getCMap (d : Dev) (k j : Nat) (f : Region → Region) : (d.modRegion k f).getCMap j = d.getCMap j := rfl
@[simp] theorem modRegion_getChan (d : Dev) (k j : Nat) (f : Region → Region) : (d.modRegion k f).getChan j = d.getChan j := rfl
@[simp] theorem modRegion_getTree (d : Dev) (k j : Nat) (f : Region → Region) : (d.modRegion k f).getTree j = d.getTree j := rfl
@[simp] theorem modRegion_getStack (d : Dev) (k j : Nat) (f : Region → Region) : (d.modRegion k f).getStack j = d.getStack j := rfl
@[simp] theorem modRegion_getScrub (d : Dev) (k j : Nat) (f : Region → Region) : (d.modRegion k f).getScrub j = d.getScrub j := rfl
@[simp] theorem modRegion_getAssay (d : Dev) (k j : Nat) (f : Region → Region) : (d.modRegion k f).getAssay j = d.getAssay j := rfl
@[simp] theorem modRegion_getTap (d : Dev) (k j : Nat) (f : Region → Region) : (d.modRegion k f).getTap j = d.getTap j := rfl
@[simp] theorem modRegion_getHalfPow (d : Dev) (k j : Nat) (f : Region → Region) : (d.modRegion k f).getHalfPow j = d.getHalfPow j := rfl
@[simp] theorem modRegion_getRail (d : Dev) (k j : Nat) (f : Region → Region) : (d.modRegion k f).getRail j = d.getRail j := rfl
@[simp] theorem modRegion_getGuar (d : Dev) (k j : Nat) (f : Region → Region) : (d.modRegion k f).getGuar j = d.getGuar j := rfl
@[simp] theorem modRegion_getBPort (d : Dev) (k j : Nat) (f : Region → Region) : (d.modRegion k f).getBPort j = d.getBPort j := rfl
@[simp] theorem modRegion_getPartFab (d : Dev) (k j : Nat) (f : Region → Region) : (d.modRegion k f).getPartFab j = d.getPartFab j := rfl
@[simp] theorem modRegion_getDrop (d : Dev) (k j : Nat) (f : Region → Region) : (d.modRegion k f).getDrop j = d.getDrop j := rfl
@[simp] theorem modRegion_getPortCnt (d : Dev) (k j : Nat) (f : Region → Region) : (d.modRegion k f).getPortCnt j = d.getPortCnt j := rfl
@[simp] theorem modRegion_getWindow (d : Dev) (k j : Nat) (f : Region → Region) : (d.modRegion k f).getWindow j = d.getWindow j := rfl

/-! `Dev.modScrub` changes `mem.scrub` under one key. -/
@[simp] theorem modScrub_same (d : Dev) (k : Nat) (f : Scrub → Scrub) : (d.modScrub k f).getScrub k = f (d.getScrub k) := by simp [Dev.modScrub, Dev.getScrub]
theorem modScrub_ne (d : Dev) (f : Scrub → Scrub) {k j : Nat} (h : j ≠ k) : (d.modScrub k f).getScrub j = d.getScrub j := tabGet_tabSet_ne _ _ h _
@[simp] theorem modScrub_clock (d : Dev) (k : Nat) (f : Scrub → Scrub) : (d.modScrub k f).clock = d.clock := rfl
@[simp] theorem modScrub_pins (d : Dev) (k : Nat) (f : Scrub → Scrub) : (d.modScrub k f).pins = d.pins := rfl
@[simp] theorem modScrub_boot (d : Dev) (k : Nat) (f : Scrub → Scrub) : (d.modScrub k f).boot = d.boot := rfl
@[simp] theorem modScrub_fuses (d : Dev) (k : Nat) (f : Scrub → Scrub) : (d.modScrub k f).fuses = d.fuses := rfl
@[simp] theorem modScrub_flash (d : Dev) (k : Nat) (f : Scrub → Scrub) : (d.modScrub k f).flash = d.flash := rfl
@[simp] theorem modScrub_caps (d : Dev) (k : Nat) (f : Scrub → Scrub) : (d.modScrub k f).caps = d.caps := rfl
@[simp] theorem modScrub_beat (d : Dev) (k : Nat) (f : Scrub → Scrub) : (d.modScrub k f).beat = d.beat := rfl
@[simp] theorem modScrub_aux (d : Dev) (k : Nat) (f : Scrub → Scrub) : (d.modScrub k f).aux = d.aux := rfl
@[simp] theorem modScrub_dies (d : Dev) (k : Nat) (f : Scrub → Scrub) : (d.modScrub k f).dies = d.dies := rfl
@[simp] theorem modScrub_mesh (d : Dev) (k : Nat) (f : Scrub → Scrub) : (d.modScrub k f).mesh = d.mesh := rfl
@[simp] theorem modScrub_slab (d : Dev) (k : Nat) (f : Scrub → Scrub) : (d.modScrub k f).slab = d.slab := rfl
@[simp] theorem modScrub_peb (d : Dev) (k : Nat) (f : Scrub → Scrub) : (d.modScrub k f).peb = d.peb := rfl
@[simp] theorem modScrub_cairn (d : Dev) (k : Nat) (f : Scrub → Scrub) : (d.modScrub k f).cairn = d.cairn := rfl
@[simp] theorem modScrub_barr (d : Dev) (k : Nat) (f : Scrub → Scrub) : (d.modScrub k f).barr = d.barr := rfl
@[simp] theorem modScrub_fab (d : Dev) (k : Nat) (f : Scrub → Scrub) : (d.modScrub k f).fab = d.fab := rfl
@[simp] theorem modScrub_links (d : Dev) (k : Nat) (f : Scrub → Scrub) : (d.modScrub k f).links = d.links := rfl
@[simp] theorem modScrub_host (d : Dev) (k : Nat) (f : Scrub → Scrub) : (d.modScrub k f).host = d.host := rfl
@[simp] theorem modScrub_bed (d : Dev) (k : Nat) (f : Scrub → Scrub) : (d.modScrub k f).bed = d.bed := rfl
@[simp] theorem modScrub_idle (d : Dev) (k : Nat) (f : Scrub → Scrub) : (d.modScrub k f).idle = d.idle := rfl
@[simp] theorem modScrub_parts (d : Dev) (k : Nat) (f : Scrub → Scrub) : (d.modScrub k f).parts = d.parts := rfl
@[simp] theorem modScrub_sec (d : Dev) (k : Nat) (f : Scrub → Scrub) : (d.modScrub k f).sec = d.sec := rfl
@[simp] theorem modScrub_pow (d : Dev) (k : Nat) (f : Scrub → Scrub) : (d.modScrub k f).pow = d.pow := rfl
@[simp] theorem modScrub_powu (d : Dev) (k : Nat) (f : Scrub → Scrub) : (d.modScrub k f).powu = d.powu := rfl
@[simp] theorem modScrub_therm (d : Dev) (k : Nat) (f : Scrub → Scrub) : (d.modScrub k f).therm = d.therm := rfl
@[simp] theorem modScrub_evt (d : Dev) (k : Nat) (f : Scrub → Scrub) : (d.modScrub k f).evt = d.evt := rfl
@[simp] theorem modScrub_mirror (d : Dev) (k : Nat) (f : Scrub → Scrub) : (d.modScrub k f).mirror = d.mirror := rfl
@[simp] theorem modScrub_mgmt (d : Dev) (k : Nat) (f : Scrub → Scrub) : (d.modScrub k f).mgmt = d.mgmt := rfl
@[simp] theorem modScrub_test (d : Dev) (k : Nat) (f : Scrub → Scrub) : (d.modScrub k f).test = d.test := rfl
@[simp] theorem modScrub_mem_cells (d : Dev) (k : Nat) (f : Scrub → Scrub) : (d.modScrub k f).mem.cells = d.mem.cells := rfl
@[simp] theorem modScrub_mem_err (d : Dev) (k : Nat) (f : Scrub → Scrub) : (d.modScrub k f).mem.err = d.mem.err := rfl
@[simp] theorem modScrub_mem_writeBacks (d : Dev) (k : Nat) (f : Scrub → Scrub) : (d.modScrub k f).mem.writeBacks = d.mem.writeBacks := rfl
@[simp] theorem modScrub_mem_regions (d : Dev) (k : Nat) (f : Scrub → Scrub) : (d.modScrub k f).mem.regions = d.mem.regions := rfl
@[simp] theorem modScrub_mem_stackTab (d : Dev) (k : Nat) (f : Scrub → Scrub) : (d.modScrub k f).mem.stackTab = d.mem.stackTab := rfl
@[simp] theorem modScrub_getSlab (d : Dev) (k j : Nat) (f : Scrub → Scrub) : (d.modScrub k f).getSlab j = d.getSlab j := rfl
@[simp] theorem modScrub_getSCtx (d : Dev) (k j : Nat) (f : Scrub → Scrub) : (d.modScrub k f).getSCtx j = d.getSCtx j := rfl
@[simp] theorem modScrub_getHalf (d : Dev) (k j : Nat) (f : Scrub → Scrub) : (d.modScrub k f).getHalf j = d.getHalf j := rfl
@[simp] theorem modScrub_getSeam (d : Dev) (k j : Nat) (f : Scrub → Scrub) : (d.modScrub k f).getSeam j = d.getSeam j := rfl
@[simp] theorem modScrub_getCluster (d : Dev) (k j : Nat) (f : Scrub → Scrub) : (d.modScrub k f).getCluster j = d.getCluster j := rfl
@[simp] theorem modScrub_getPebble (d : Dev) (k j : Nat) (f : Scrub → Scrub) : (d.modScrub k f).getPebble j = d.getPebble j := rfl
@[simp] theorem modScrub_getPCtx (d : Dev) (k j : Nat) (f : Scrub → Scrub) : (d.modScrub k f).getPCtx j = d.getPCtx j := rfl
@[simp] theorem modScrub_getLink (d : Dev) (k j : Nat) (f : Scrub → Scrub) : (d.modScrub k f).getLink j = d.getLink j := rfl
@[simp] theorem modScrub_getRing (d : Dev) (k j : Nat) (f : Scrub → Scrub) : (d.modScrub k f).getRing j = d.getRing j := rfl
@[simp] theorem modScrub_getPart (d : Dev) (k j : Nat) (f : Scrub → Scrub) : (d.modScrub k f).getPart j = d.getPart j := rfl
@[simp] theorem modScrub_getCairnTile (d : Dev) (k j : Nat) (f : Scrub → Scrub) : (d.modScrub k f).getCairnTile j = d.getCairnTile j := rfl
@[simp] theorem modScrub_getCMap (d : Dev) (k j : Nat) (f : Scrub → Scrub) : (d.modScrub k f).getCMap j = d.getCMap j := rfl
@[simp] theorem modScrub_getChan (d : Dev) (k j : Nat) (f : Scrub → Scrub) : (d.modScrub k f).getChan j = d.getChan j := rfl
@[simp] theorem modScrub_getTree (d : Dev) (k j : Nat) (f : Scrub → Scrub) : (d.modScrub k f).getTree j = d.getTree j := rfl
@[simp] theorem modScrub_getStack (d : Dev) (k j : Nat) (f : Scrub → Scrub) : (d.modScrub k f).getStack j = d.getStack j := rfl
@[simp] theorem modScrub_getRegion (d : Dev) (k j : Nat) (f : Scrub → Scrub) : (d.modScrub k f).getRegion j = d.getRegion j := rfl
@[simp] theorem modScrub_getAssay (d : Dev) (k j : Nat) (f : Scrub → Scrub) : (d.modScrub k f).getAssay j = d.getAssay j := rfl
@[simp] theorem modScrub_getTap (d : Dev) (k j : Nat) (f : Scrub → Scrub) : (d.modScrub k f).getTap j = d.getTap j := rfl
@[simp] theorem modScrub_getHalfPow (d : Dev) (k j : Nat) (f : Scrub → Scrub) : (d.modScrub k f).getHalfPow j = d.getHalfPow j := rfl
@[simp] theorem modScrub_getRail (d : Dev) (k j : Nat) (f : Scrub → Scrub) : (d.modScrub k f).getRail j = d.getRail j := rfl
@[simp] theorem modScrub_getGuar (d : Dev) (k j : Nat) (f : Scrub → Scrub) : (d.modScrub k f).getGuar j = d.getGuar j := rfl
@[simp] theorem modScrub_getBPort (d : Dev) (k j : Nat) (f : Scrub → Scrub) : (d.modScrub k f).getBPort j = d.getBPort j := rfl
@[simp] theorem modScrub_getPartFab (d : Dev) (k j : Nat) (f : Scrub → Scrub) : (d.modScrub k f).getPartFab j = d.getPartFab j := rfl
@[simp] theorem modScrub_getDrop (d : Dev) (k j : Nat) (f : Scrub → Scrub) : (d.modScrub k f).getDrop j = d.getDrop j := rfl
@[simp] theorem modScrub_getPortCnt (d : Dev) (k j : Nat) (f : Scrub → Scrub) : (d.modScrub k f).getPortCnt j = d.getPortCnt j := rfl
@[simp] theorem modScrub_getWindow (d : Dev) (k j : Nat) (f : Scrub → Scrub) : (d.modScrub k f).getWindow j = d.getWindow j := rfl

/-! `Dev.modAssay` changes `test.assay` under one key. -/
@[simp] theorem modAssay_same (d : Dev) (k : Nat) (f : Assay → Assay) : (d.modAssay k f).getAssay k = f (d.getAssay k) := by simp [Dev.modAssay, Dev.getAssay]
theorem modAssay_ne (d : Dev) (f : Assay → Assay) {k j : Nat} (h : j ≠ k) : (d.modAssay k f).getAssay j = d.getAssay j := tabGet_tabSet_ne _ _ h _
@[simp] theorem modAssay_clock (d : Dev) (k : Nat) (f : Assay → Assay) : (d.modAssay k f).clock = d.clock := rfl
@[simp] theorem modAssay_pins (d : Dev) (k : Nat) (f : Assay → Assay) : (d.modAssay k f).pins = d.pins := rfl
@[simp] theorem modAssay_boot (d : Dev) (k : Nat) (f : Assay → Assay) : (d.modAssay k f).boot = d.boot := rfl
@[simp] theorem modAssay_fuses (d : Dev) (k : Nat) (f : Assay → Assay) : (d.modAssay k f).fuses = d.fuses := rfl
@[simp] theorem modAssay_flash (d : Dev) (k : Nat) (f : Assay → Assay) : (d.modAssay k f).flash = d.flash := rfl
@[simp] theorem modAssay_caps (d : Dev) (k : Nat) (f : Assay → Assay) : (d.modAssay k f).caps = d.caps := rfl
@[simp] theorem modAssay_beat (d : Dev) (k : Nat) (f : Assay → Assay) : (d.modAssay k f).beat = d.beat := rfl
@[simp] theorem modAssay_aux (d : Dev) (k : Nat) (f : Assay → Assay) : (d.modAssay k f).aux = d.aux := rfl
@[simp] theorem modAssay_dies (d : Dev) (k : Nat) (f : Assay → Assay) : (d.modAssay k f).dies = d.dies := rfl
@[simp] theorem modAssay_mesh (d : Dev) (k : Nat) (f : Assay → Assay) : (d.modAssay k f).mesh = d.mesh := rfl
@[simp] theorem modAssay_slab (d : Dev) (k : Nat) (f : Assay → Assay) : (d.modAssay k f).slab = d.slab := rfl
@[simp] theorem modAssay_peb (d : Dev) (k : Nat) (f : Assay → Assay) : (d.modAssay k f).peb = d.peb := rfl
@[simp] theorem modAssay_mem (d : Dev) (k : Nat) (f : Assay → Assay) : (d.modAssay k f).mem = d.mem := rfl
@[simp] theorem modAssay_cairn (d : Dev) (k : Nat) (f : Assay → Assay) : (d.modAssay k f).cairn = d.cairn := rfl
@[simp] theorem modAssay_barr (d : Dev) (k : Nat) (f : Assay → Assay) : (d.modAssay k f).barr = d.barr := rfl
@[simp] theorem modAssay_fab (d : Dev) (k : Nat) (f : Assay → Assay) : (d.modAssay k f).fab = d.fab := rfl
@[simp] theorem modAssay_links (d : Dev) (k : Nat) (f : Assay → Assay) : (d.modAssay k f).links = d.links := rfl
@[simp] theorem modAssay_host (d : Dev) (k : Nat) (f : Assay → Assay) : (d.modAssay k f).host = d.host := rfl
@[simp] theorem modAssay_bed (d : Dev) (k : Nat) (f : Assay → Assay) : (d.modAssay k f).bed = d.bed := rfl
@[simp] theorem modAssay_idle (d : Dev) (k : Nat) (f : Assay → Assay) : (d.modAssay k f).idle = d.idle := rfl
@[simp] theorem modAssay_parts (d : Dev) (k : Nat) (f : Assay → Assay) : (d.modAssay k f).parts = d.parts := rfl
@[simp] theorem modAssay_sec (d : Dev) (k : Nat) (f : Assay → Assay) : (d.modAssay k f).sec = d.sec := rfl
@[simp] theorem modAssay_pow (d : Dev) (k : Nat) (f : Assay → Assay) : (d.modAssay k f).pow = d.pow := rfl
@[simp] theorem modAssay_powu (d : Dev) (k : Nat) (f : Assay → Assay) : (d.modAssay k f).powu = d.powu := rfl
@[simp] theorem modAssay_therm (d : Dev) (k : Nat) (f : Assay → Assay) : (d.modAssay k f).therm = d.therm := rfl
@[simp] theorem modAssay_evt (d : Dev) (k : Nat) (f : Assay → Assay) : (d.modAssay k f).evt = d.evt := rfl
@[simp] theorem modAssay_mirror (d : Dev) (k : Nat) (f : Assay → Assay) : (d.modAssay k f).mirror = d.mirror := rfl
@[simp] theorem modAssay_mgmt (d : Dev) (k : Nat) (f : Assay → Assay) : (d.modAssay k f).mgmt = d.mgmt := rfl
@[simp] theorem modAssay_test_taps (d : Dev) (k : Nat) (f : Assay → Assay) : (d.modAssay k f).test.taps = d.test.taps := rfl
@[simp] theorem modAssay_test_testMode (d : Dev) (k : Nat) (f : Assay → Assay) : (d.modAssay k f).test.testMode = d.test.testMode := rfl
@[simp] theorem modAssay_getSlab (d : Dev) (k j : Nat) (f : Assay → Assay) : (d.modAssay k f).getSlab j = d.getSlab j := rfl
@[simp] theorem modAssay_getSCtx (d : Dev) (k j : Nat) (f : Assay → Assay) : (d.modAssay k f).getSCtx j = d.getSCtx j := rfl
@[simp] theorem modAssay_getHalf (d : Dev) (k j : Nat) (f : Assay → Assay) : (d.modAssay k f).getHalf j = d.getHalf j := rfl
@[simp] theorem modAssay_getSeam (d : Dev) (k j : Nat) (f : Assay → Assay) : (d.modAssay k f).getSeam j = d.getSeam j := rfl
@[simp] theorem modAssay_getCluster (d : Dev) (k j : Nat) (f : Assay → Assay) : (d.modAssay k f).getCluster j = d.getCluster j := rfl
@[simp] theorem modAssay_getPebble (d : Dev) (k j : Nat) (f : Assay → Assay) : (d.modAssay k f).getPebble j = d.getPebble j := rfl
@[simp] theorem modAssay_getPCtx (d : Dev) (k j : Nat) (f : Assay → Assay) : (d.modAssay k f).getPCtx j = d.getPCtx j := rfl
@[simp] theorem modAssay_getLink (d : Dev) (k j : Nat) (f : Assay → Assay) : (d.modAssay k f).getLink j = d.getLink j := rfl
@[simp] theorem modAssay_getRing (d : Dev) (k j : Nat) (f : Assay → Assay) : (d.modAssay k f).getRing j = d.getRing j := rfl
@[simp] theorem modAssay_getPart (d : Dev) (k j : Nat) (f : Assay → Assay) : (d.modAssay k f).getPart j = d.getPart j := rfl
@[simp] theorem modAssay_getCairnTile (d : Dev) (k j : Nat) (f : Assay → Assay) : (d.modAssay k f).getCairnTile j = d.getCairnTile j := rfl
@[simp] theorem modAssay_getCMap (d : Dev) (k j : Nat) (f : Assay → Assay) : (d.modAssay k f).getCMap j = d.getCMap j := rfl
@[simp] theorem modAssay_getChan (d : Dev) (k j : Nat) (f : Assay → Assay) : (d.modAssay k f).getChan j = d.getChan j := rfl
@[simp] theorem modAssay_getTree (d : Dev) (k j : Nat) (f : Assay → Assay) : (d.modAssay k f).getTree j = d.getTree j := rfl
@[simp] theorem modAssay_getStack (d : Dev) (k j : Nat) (f : Assay → Assay) : (d.modAssay k f).getStack j = d.getStack j := rfl
@[simp] theorem modAssay_getRegion (d : Dev) (k j : Nat) (f : Assay → Assay) : (d.modAssay k f).getRegion j = d.getRegion j := rfl
@[simp] theorem modAssay_getScrub (d : Dev) (k j : Nat) (f : Assay → Assay) : (d.modAssay k f).getScrub j = d.getScrub j := rfl
@[simp] theorem modAssay_getTap (d : Dev) (k j : Nat) (f : Assay → Assay) : (d.modAssay k f).getTap j = d.getTap j := rfl
@[simp] theorem modAssay_getHalfPow (d : Dev) (k j : Nat) (f : Assay → Assay) : (d.modAssay k f).getHalfPow j = d.getHalfPow j := rfl
@[simp] theorem modAssay_getRail (d : Dev) (k j : Nat) (f : Assay → Assay) : (d.modAssay k f).getRail j = d.getRail j := rfl
@[simp] theorem modAssay_getGuar (d : Dev) (k j : Nat) (f : Assay → Assay) : (d.modAssay k f).getGuar j = d.getGuar j := rfl
@[simp] theorem modAssay_getBPort (d : Dev) (k j : Nat) (f : Assay → Assay) : (d.modAssay k f).getBPort j = d.getBPort j := rfl
@[simp] theorem modAssay_getPartFab (d : Dev) (k j : Nat) (f : Assay → Assay) : (d.modAssay k f).getPartFab j = d.getPartFab j := rfl
@[simp] theorem modAssay_getDrop (d : Dev) (k j : Nat) (f : Assay → Assay) : (d.modAssay k f).getDrop j = d.getDrop j := rfl
@[simp] theorem modAssay_getPortCnt (d : Dev) (k j : Nat) (f : Assay → Assay) : (d.modAssay k f).getPortCnt j = d.getPortCnt j := rfl
@[simp] theorem modAssay_getWindow (d : Dev) (k j : Nat) (f : Assay → Assay) : (d.modAssay k f).getWindow j = d.getWindow j := rfl

/-! `Dev.modTap` changes `test.taps` under one key. -/
@[simp] theorem modTap_same (d : Dev) (k : Nat) (f : Tap → Tap) : (d.modTap k f).getTap k = f (d.getTap k) := by simp [Dev.modTap, Dev.getTap]
theorem modTap_ne (d : Dev) (f : Tap → Tap) {k j : Nat} (h : j ≠ k) : (d.modTap k f).getTap j = d.getTap j := tabGet_tabSet_ne _ _ h _
@[simp] theorem modTap_clock (d : Dev) (k : Nat) (f : Tap → Tap) : (d.modTap k f).clock = d.clock := rfl
@[simp] theorem modTap_pins (d : Dev) (k : Nat) (f : Tap → Tap) : (d.modTap k f).pins = d.pins := rfl
@[simp] theorem modTap_boot (d : Dev) (k : Nat) (f : Tap → Tap) : (d.modTap k f).boot = d.boot := rfl
@[simp] theorem modTap_fuses (d : Dev) (k : Nat) (f : Tap → Tap) : (d.modTap k f).fuses = d.fuses := rfl
@[simp] theorem modTap_flash (d : Dev) (k : Nat) (f : Tap → Tap) : (d.modTap k f).flash = d.flash := rfl
@[simp] theorem modTap_caps (d : Dev) (k : Nat) (f : Tap → Tap) : (d.modTap k f).caps = d.caps := rfl
@[simp] theorem modTap_beat (d : Dev) (k : Nat) (f : Tap → Tap) : (d.modTap k f).beat = d.beat := rfl
@[simp] theorem modTap_aux (d : Dev) (k : Nat) (f : Tap → Tap) : (d.modTap k f).aux = d.aux := rfl
@[simp] theorem modTap_dies (d : Dev) (k : Nat) (f : Tap → Tap) : (d.modTap k f).dies = d.dies := rfl
@[simp] theorem modTap_mesh (d : Dev) (k : Nat) (f : Tap → Tap) : (d.modTap k f).mesh = d.mesh := rfl
@[simp] theorem modTap_slab (d : Dev) (k : Nat) (f : Tap → Tap) : (d.modTap k f).slab = d.slab := rfl
@[simp] theorem modTap_peb (d : Dev) (k : Nat) (f : Tap → Tap) : (d.modTap k f).peb = d.peb := rfl
@[simp] theorem modTap_mem (d : Dev) (k : Nat) (f : Tap → Tap) : (d.modTap k f).mem = d.mem := rfl
@[simp] theorem modTap_cairn (d : Dev) (k : Nat) (f : Tap → Tap) : (d.modTap k f).cairn = d.cairn := rfl
@[simp] theorem modTap_barr (d : Dev) (k : Nat) (f : Tap → Tap) : (d.modTap k f).barr = d.barr := rfl
@[simp] theorem modTap_fab (d : Dev) (k : Nat) (f : Tap → Tap) : (d.modTap k f).fab = d.fab := rfl
@[simp] theorem modTap_links (d : Dev) (k : Nat) (f : Tap → Tap) : (d.modTap k f).links = d.links := rfl
@[simp] theorem modTap_host (d : Dev) (k : Nat) (f : Tap → Tap) : (d.modTap k f).host = d.host := rfl
@[simp] theorem modTap_bed (d : Dev) (k : Nat) (f : Tap → Tap) : (d.modTap k f).bed = d.bed := rfl
@[simp] theorem modTap_idle (d : Dev) (k : Nat) (f : Tap → Tap) : (d.modTap k f).idle = d.idle := rfl
@[simp] theorem modTap_parts (d : Dev) (k : Nat) (f : Tap → Tap) : (d.modTap k f).parts = d.parts := rfl
@[simp] theorem modTap_sec (d : Dev) (k : Nat) (f : Tap → Tap) : (d.modTap k f).sec = d.sec := rfl
@[simp] theorem modTap_pow (d : Dev) (k : Nat) (f : Tap → Tap) : (d.modTap k f).pow = d.pow := rfl
@[simp] theorem modTap_powu (d : Dev) (k : Nat) (f : Tap → Tap) : (d.modTap k f).powu = d.powu := rfl
@[simp] theorem modTap_therm (d : Dev) (k : Nat) (f : Tap → Tap) : (d.modTap k f).therm = d.therm := rfl
@[simp] theorem modTap_evt (d : Dev) (k : Nat) (f : Tap → Tap) : (d.modTap k f).evt = d.evt := rfl
@[simp] theorem modTap_mirror (d : Dev) (k : Nat) (f : Tap → Tap) : (d.modTap k f).mirror = d.mirror := rfl
@[simp] theorem modTap_mgmt (d : Dev) (k : Nat) (f : Tap → Tap) : (d.modTap k f).mgmt = d.mgmt := rfl
@[simp] theorem modTap_test_assay (d : Dev) (k : Nat) (f : Tap → Tap) : (d.modTap k f).test.assay = d.test.assay := rfl
@[simp] theorem modTap_test_testMode (d : Dev) (k : Nat) (f : Tap → Tap) : (d.modTap k f).test.testMode = d.test.testMode := rfl
@[simp] theorem modTap_getSlab (d : Dev) (k j : Nat) (f : Tap → Tap) : (d.modTap k f).getSlab j = d.getSlab j := rfl
@[simp] theorem modTap_getSCtx (d : Dev) (k j : Nat) (f : Tap → Tap) : (d.modTap k f).getSCtx j = d.getSCtx j := rfl
@[simp] theorem modTap_getHalf (d : Dev) (k j : Nat) (f : Tap → Tap) : (d.modTap k f).getHalf j = d.getHalf j := rfl
@[simp] theorem modTap_getSeam (d : Dev) (k j : Nat) (f : Tap → Tap) : (d.modTap k f).getSeam j = d.getSeam j := rfl
@[simp] theorem modTap_getCluster (d : Dev) (k j : Nat) (f : Tap → Tap) : (d.modTap k f).getCluster j = d.getCluster j := rfl
@[simp] theorem modTap_getPebble (d : Dev) (k j : Nat) (f : Tap → Tap) : (d.modTap k f).getPebble j = d.getPebble j := rfl
@[simp] theorem modTap_getPCtx (d : Dev) (k j : Nat) (f : Tap → Tap) : (d.modTap k f).getPCtx j = d.getPCtx j := rfl
@[simp] theorem modTap_getLink (d : Dev) (k j : Nat) (f : Tap → Tap) : (d.modTap k f).getLink j = d.getLink j := rfl
@[simp] theorem modTap_getRing (d : Dev) (k j : Nat) (f : Tap → Tap) : (d.modTap k f).getRing j = d.getRing j := rfl
@[simp] theorem modTap_getPart (d : Dev) (k j : Nat) (f : Tap → Tap) : (d.modTap k f).getPart j = d.getPart j := rfl
@[simp] theorem modTap_getCairnTile (d : Dev) (k j : Nat) (f : Tap → Tap) : (d.modTap k f).getCairnTile j = d.getCairnTile j := rfl
@[simp] theorem modTap_getCMap (d : Dev) (k j : Nat) (f : Tap → Tap) : (d.modTap k f).getCMap j = d.getCMap j := rfl
@[simp] theorem modTap_getChan (d : Dev) (k j : Nat) (f : Tap → Tap) : (d.modTap k f).getChan j = d.getChan j := rfl
@[simp] theorem modTap_getTree (d : Dev) (k j : Nat) (f : Tap → Tap) : (d.modTap k f).getTree j = d.getTree j := rfl
@[simp] theorem modTap_getStack (d : Dev) (k j : Nat) (f : Tap → Tap) : (d.modTap k f).getStack j = d.getStack j := rfl
@[simp] theorem modTap_getRegion (d : Dev) (k j : Nat) (f : Tap → Tap) : (d.modTap k f).getRegion j = d.getRegion j := rfl
@[simp] theorem modTap_getScrub (d : Dev) (k j : Nat) (f : Tap → Tap) : (d.modTap k f).getScrub j = d.getScrub j := rfl
@[simp] theorem modTap_getAssay (d : Dev) (k j : Nat) (f : Tap → Tap) : (d.modTap k f).getAssay j = d.getAssay j := rfl
@[simp] theorem modTap_getHalfPow (d : Dev) (k j : Nat) (f : Tap → Tap) : (d.modTap k f).getHalfPow j = d.getHalfPow j := rfl
@[simp] theorem modTap_getRail (d : Dev) (k j : Nat) (f : Tap → Tap) : (d.modTap k f).getRail j = d.getRail j := rfl
@[simp] theorem modTap_getGuar (d : Dev) (k j : Nat) (f : Tap → Tap) : (d.modTap k f).getGuar j = d.getGuar j := rfl
@[simp] theorem modTap_getBPort (d : Dev) (k j : Nat) (f : Tap → Tap) : (d.modTap k f).getBPort j = d.getBPort j := rfl
@[simp] theorem modTap_getPartFab (d : Dev) (k j : Nat) (f : Tap → Tap) : (d.modTap k f).getPartFab j = d.getPartFab j := rfl
@[simp] theorem modTap_getDrop (d : Dev) (k j : Nat) (f : Tap → Tap) : (d.modTap k f).getDrop j = d.getDrop j := rfl
@[simp] theorem modTap_getPortCnt (d : Dev) (k j : Nat) (f : Tap → Tap) : (d.modTap k f).getPortCnt j = d.getPortCnt j := rfl
@[simp] theorem modTap_getWindow (d : Dev) (k j : Nat) (f : Tap → Tap) : (d.modTap k f).getWindow j = d.getWindow j := rfl

/-! `Dev.modHalfPow` changes `powu.halves` under one key. -/
@[simp] theorem modHalfPow_same (d : Dev) (k : Nat) (f : HalfPower → HalfPower) : (d.modHalfPow k f).getHalfPow k = f (d.getHalfPow k) := by simp [Dev.modHalfPow, Dev.getHalfPow]
theorem modHalfPow_ne (d : Dev) (f : HalfPower → HalfPower) {k j : Nat} (h : j ≠ k) : (d.modHalfPow k f).getHalfPow j = d.getHalfPow j := tabGet_tabSet_ne _ _ h _
@[simp] theorem modHalfPow_clock (d : Dev) (k : Nat) (f : HalfPower → HalfPower) : (d.modHalfPow k f).clock = d.clock := rfl
@[simp] theorem modHalfPow_pins (d : Dev) (k : Nat) (f : HalfPower → HalfPower) : (d.modHalfPow k f).pins = d.pins := rfl
@[simp] theorem modHalfPow_boot (d : Dev) (k : Nat) (f : HalfPower → HalfPower) : (d.modHalfPow k f).boot = d.boot := rfl
@[simp] theorem modHalfPow_fuses (d : Dev) (k : Nat) (f : HalfPower → HalfPower) : (d.modHalfPow k f).fuses = d.fuses := rfl
@[simp] theorem modHalfPow_flash (d : Dev) (k : Nat) (f : HalfPower → HalfPower) : (d.modHalfPow k f).flash = d.flash := rfl
@[simp] theorem modHalfPow_caps (d : Dev) (k : Nat) (f : HalfPower → HalfPower) : (d.modHalfPow k f).caps = d.caps := rfl
@[simp] theorem modHalfPow_beat (d : Dev) (k : Nat) (f : HalfPower → HalfPower) : (d.modHalfPow k f).beat = d.beat := rfl
@[simp] theorem modHalfPow_aux (d : Dev) (k : Nat) (f : HalfPower → HalfPower) : (d.modHalfPow k f).aux = d.aux := rfl
@[simp] theorem modHalfPow_dies (d : Dev) (k : Nat) (f : HalfPower → HalfPower) : (d.modHalfPow k f).dies = d.dies := rfl
@[simp] theorem modHalfPow_mesh (d : Dev) (k : Nat) (f : HalfPower → HalfPower) : (d.modHalfPow k f).mesh = d.mesh := rfl
@[simp] theorem modHalfPow_slab (d : Dev) (k : Nat) (f : HalfPower → HalfPower) : (d.modHalfPow k f).slab = d.slab := rfl
@[simp] theorem modHalfPow_peb (d : Dev) (k : Nat) (f : HalfPower → HalfPower) : (d.modHalfPow k f).peb = d.peb := rfl
@[simp] theorem modHalfPow_mem (d : Dev) (k : Nat) (f : HalfPower → HalfPower) : (d.modHalfPow k f).mem = d.mem := rfl
@[simp] theorem modHalfPow_cairn (d : Dev) (k : Nat) (f : HalfPower → HalfPower) : (d.modHalfPow k f).cairn = d.cairn := rfl
@[simp] theorem modHalfPow_barr (d : Dev) (k : Nat) (f : HalfPower → HalfPower) : (d.modHalfPow k f).barr = d.barr := rfl
@[simp] theorem modHalfPow_fab (d : Dev) (k : Nat) (f : HalfPower → HalfPower) : (d.modHalfPow k f).fab = d.fab := rfl
@[simp] theorem modHalfPow_links (d : Dev) (k : Nat) (f : HalfPower → HalfPower) : (d.modHalfPow k f).links = d.links := rfl
@[simp] theorem modHalfPow_host (d : Dev) (k : Nat) (f : HalfPower → HalfPower) : (d.modHalfPow k f).host = d.host := rfl
@[simp] theorem modHalfPow_bed (d : Dev) (k : Nat) (f : HalfPower → HalfPower) : (d.modHalfPow k f).bed = d.bed := rfl
@[simp] theorem modHalfPow_idle (d : Dev) (k : Nat) (f : HalfPower → HalfPower) : (d.modHalfPow k f).idle = d.idle := rfl
@[simp] theorem modHalfPow_parts (d : Dev) (k : Nat) (f : HalfPower → HalfPower) : (d.modHalfPow k f).parts = d.parts := rfl
@[simp] theorem modHalfPow_sec (d : Dev) (k : Nat) (f : HalfPower → HalfPower) : (d.modHalfPow k f).sec = d.sec := rfl
@[simp] theorem modHalfPow_pow (d : Dev) (k : Nat) (f : HalfPower → HalfPower) : (d.modHalfPow k f).pow = d.pow := rfl
@[simp] theorem modHalfPow_therm (d : Dev) (k : Nat) (f : HalfPower → HalfPower) : (d.modHalfPow k f).therm = d.therm := rfl
@[simp] theorem modHalfPow_evt (d : Dev) (k : Nat) (f : HalfPower → HalfPower) : (d.modHalfPow k f).evt = d.evt := rfl
@[simp] theorem modHalfPow_mirror (d : Dev) (k : Nat) (f : HalfPower → HalfPower) : (d.modHalfPow k f).mirror = d.mirror := rfl
@[simp] theorem modHalfPow_mgmt (d : Dev) (k : Nat) (f : HalfPower → HalfPower) : (d.modHalfPow k f).mgmt = d.mgmt := rfl
@[simp] theorem modHalfPow_test (d : Dev) (k : Nat) (f : HalfPower → HalfPower) : (d.modHalfPow k f).test = d.test := rfl
@[simp] theorem modHalfPow_powu_guar (d : Dev) (k : Nat) (f : HalfPower → HalfPower) : (d.modHalfPow k f).powu.guar = d.powu.guar := rfl
@[simp] theorem modHalfPow_powu_rails (d : Dev) (k : Nat) (f : HalfPower → HalfPower) : (d.modHalfPow k f).powu.rails = d.powu.rails := rfl
@[simp] theorem modHalfPow_getSlab (d : Dev) (k j : Nat) (f : HalfPower → HalfPower) : (d.modHalfPow k f).getSlab j = d.getSlab j := rfl
@[simp] theorem modHalfPow_getSCtx (d : Dev) (k j : Nat) (f : HalfPower → HalfPower) : (d.modHalfPow k f).getSCtx j = d.getSCtx j := rfl
@[simp] theorem modHalfPow_getHalf (d : Dev) (k j : Nat) (f : HalfPower → HalfPower) : (d.modHalfPow k f).getHalf j = d.getHalf j := rfl
@[simp] theorem modHalfPow_getSeam (d : Dev) (k j : Nat) (f : HalfPower → HalfPower) : (d.modHalfPow k f).getSeam j = d.getSeam j := rfl
@[simp] theorem modHalfPow_getCluster (d : Dev) (k j : Nat) (f : HalfPower → HalfPower) : (d.modHalfPow k f).getCluster j = d.getCluster j := rfl
@[simp] theorem modHalfPow_getPebble (d : Dev) (k j : Nat) (f : HalfPower → HalfPower) : (d.modHalfPow k f).getPebble j = d.getPebble j := rfl
@[simp] theorem modHalfPow_getPCtx (d : Dev) (k j : Nat) (f : HalfPower → HalfPower) : (d.modHalfPow k f).getPCtx j = d.getPCtx j := rfl
@[simp] theorem modHalfPow_getLink (d : Dev) (k j : Nat) (f : HalfPower → HalfPower) : (d.modHalfPow k f).getLink j = d.getLink j := rfl
@[simp] theorem modHalfPow_getRing (d : Dev) (k j : Nat) (f : HalfPower → HalfPower) : (d.modHalfPow k f).getRing j = d.getRing j := rfl
@[simp] theorem modHalfPow_getPart (d : Dev) (k j : Nat) (f : HalfPower → HalfPower) : (d.modHalfPow k f).getPart j = d.getPart j := rfl
@[simp] theorem modHalfPow_getCairnTile (d : Dev) (k j : Nat) (f : HalfPower → HalfPower) : (d.modHalfPow k f).getCairnTile j = d.getCairnTile j := rfl
@[simp] theorem modHalfPow_getCMap (d : Dev) (k j : Nat) (f : HalfPower → HalfPower) : (d.modHalfPow k f).getCMap j = d.getCMap j := rfl
@[simp] theorem modHalfPow_getChan (d : Dev) (k j : Nat) (f : HalfPower → HalfPower) : (d.modHalfPow k f).getChan j = d.getChan j := rfl
@[simp] theorem modHalfPow_getTree (d : Dev) (k j : Nat) (f : HalfPower → HalfPower) : (d.modHalfPow k f).getTree j = d.getTree j := rfl
@[simp] theorem modHalfPow_getStack (d : Dev) (k j : Nat) (f : HalfPower → HalfPower) : (d.modHalfPow k f).getStack j = d.getStack j := rfl
@[simp] theorem modHalfPow_getRegion (d : Dev) (k j : Nat) (f : HalfPower → HalfPower) : (d.modHalfPow k f).getRegion j = d.getRegion j := rfl
@[simp] theorem modHalfPow_getScrub (d : Dev) (k j : Nat) (f : HalfPower → HalfPower) : (d.modHalfPow k f).getScrub j = d.getScrub j := rfl
@[simp] theorem modHalfPow_getAssay (d : Dev) (k j : Nat) (f : HalfPower → HalfPower) : (d.modHalfPow k f).getAssay j = d.getAssay j := rfl
@[simp] theorem modHalfPow_getTap (d : Dev) (k j : Nat) (f : HalfPower → HalfPower) : (d.modHalfPow k f).getTap j = d.getTap j := rfl
@[simp] theorem modHalfPow_getRail (d : Dev) (k j : Nat) (f : HalfPower → HalfPower) : (d.modHalfPow k f).getRail j = d.getRail j := rfl
@[simp] theorem modHalfPow_getGuar (d : Dev) (k j : Nat) (f : HalfPower → HalfPower) : (d.modHalfPow k f).getGuar j = d.getGuar j := rfl
@[simp] theorem modHalfPow_getBPort (d : Dev) (k j : Nat) (f : HalfPower → HalfPower) : (d.modHalfPow k f).getBPort j = d.getBPort j := rfl
@[simp] theorem modHalfPow_getPartFab (d : Dev) (k j : Nat) (f : HalfPower → HalfPower) : (d.modHalfPow k f).getPartFab j = d.getPartFab j := rfl
@[simp] theorem modHalfPow_getDrop (d : Dev) (k j : Nat) (f : HalfPower → HalfPower) : (d.modHalfPow k f).getDrop j = d.getDrop j := rfl
@[simp] theorem modHalfPow_getPortCnt (d : Dev) (k j : Nat) (f : HalfPower → HalfPower) : (d.modHalfPow k f).getPortCnt j = d.getPortCnt j := rfl
@[simp] theorem modHalfPow_getWindow (d : Dev) (k j : Nat) (f : HalfPower → HalfPower) : (d.modHalfPow k f).getWindow j = d.getWindow j := rfl

/-! `Dev.modRail` changes `powu.rails` under one key. -/
@[simp] theorem modRail_same (d : Dev) (k : Nat) (f : Rail → Rail) : (d.modRail k f).getRail k = f (d.getRail k) := by simp [Dev.modRail, Dev.getRail]
theorem modRail_ne (d : Dev) (f : Rail → Rail) {k j : Nat} (h : j ≠ k) : (d.modRail k f).getRail j = d.getRail j := tabGet_tabSet_ne _ _ h _
@[simp] theorem modRail_clock (d : Dev) (k : Nat) (f : Rail → Rail) : (d.modRail k f).clock = d.clock := rfl
@[simp] theorem modRail_pins (d : Dev) (k : Nat) (f : Rail → Rail) : (d.modRail k f).pins = d.pins := rfl
@[simp] theorem modRail_boot (d : Dev) (k : Nat) (f : Rail → Rail) : (d.modRail k f).boot = d.boot := rfl
@[simp] theorem modRail_fuses (d : Dev) (k : Nat) (f : Rail → Rail) : (d.modRail k f).fuses = d.fuses := rfl
@[simp] theorem modRail_flash (d : Dev) (k : Nat) (f : Rail → Rail) : (d.modRail k f).flash = d.flash := rfl
@[simp] theorem modRail_caps (d : Dev) (k : Nat) (f : Rail → Rail) : (d.modRail k f).caps = d.caps := rfl
@[simp] theorem modRail_beat (d : Dev) (k : Nat) (f : Rail → Rail) : (d.modRail k f).beat = d.beat := rfl
@[simp] theorem modRail_aux (d : Dev) (k : Nat) (f : Rail → Rail) : (d.modRail k f).aux = d.aux := rfl
@[simp] theorem modRail_dies (d : Dev) (k : Nat) (f : Rail → Rail) : (d.modRail k f).dies = d.dies := rfl
@[simp] theorem modRail_mesh (d : Dev) (k : Nat) (f : Rail → Rail) : (d.modRail k f).mesh = d.mesh := rfl
@[simp] theorem modRail_slab (d : Dev) (k : Nat) (f : Rail → Rail) : (d.modRail k f).slab = d.slab := rfl
@[simp] theorem modRail_peb (d : Dev) (k : Nat) (f : Rail → Rail) : (d.modRail k f).peb = d.peb := rfl
@[simp] theorem modRail_mem (d : Dev) (k : Nat) (f : Rail → Rail) : (d.modRail k f).mem = d.mem := rfl
@[simp] theorem modRail_cairn (d : Dev) (k : Nat) (f : Rail → Rail) : (d.modRail k f).cairn = d.cairn := rfl
@[simp] theorem modRail_barr (d : Dev) (k : Nat) (f : Rail → Rail) : (d.modRail k f).barr = d.barr := rfl
@[simp] theorem modRail_fab (d : Dev) (k : Nat) (f : Rail → Rail) : (d.modRail k f).fab = d.fab := rfl
@[simp] theorem modRail_links (d : Dev) (k : Nat) (f : Rail → Rail) : (d.modRail k f).links = d.links := rfl
@[simp] theorem modRail_host (d : Dev) (k : Nat) (f : Rail → Rail) : (d.modRail k f).host = d.host := rfl
@[simp] theorem modRail_bed (d : Dev) (k : Nat) (f : Rail → Rail) : (d.modRail k f).bed = d.bed := rfl
@[simp] theorem modRail_idle (d : Dev) (k : Nat) (f : Rail → Rail) : (d.modRail k f).idle = d.idle := rfl
@[simp] theorem modRail_parts (d : Dev) (k : Nat) (f : Rail → Rail) : (d.modRail k f).parts = d.parts := rfl
@[simp] theorem modRail_sec (d : Dev) (k : Nat) (f : Rail → Rail) : (d.modRail k f).sec = d.sec := rfl
@[simp] theorem modRail_pow (d : Dev) (k : Nat) (f : Rail → Rail) : (d.modRail k f).pow = d.pow := rfl
@[simp] theorem modRail_therm (d : Dev) (k : Nat) (f : Rail → Rail) : (d.modRail k f).therm = d.therm := rfl
@[simp] theorem modRail_evt (d : Dev) (k : Nat) (f : Rail → Rail) : (d.modRail k f).evt = d.evt := rfl
@[simp] theorem modRail_mirror (d : Dev) (k : Nat) (f : Rail → Rail) : (d.modRail k f).mirror = d.mirror := rfl
@[simp] theorem modRail_mgmt (d : Dev) (k : Nat) (f : Rail → Rail) : (d.modRail k f).mgmt = d.mgmt := rfl
@[simp] theorem modRail_test (d : Dev) (k : Nat) (f : Rail → Rail) : (d.modRail k f).test = d.test := rfl
@[simp] theorem modRail_powu_guar (d : Dev) (k : Nat) (f : Rail → Rail) : (d.modRail k f).powu.guar = d.powu.guar := rfl
@[simp] theorem modRail_powu_halves (d : Dev) (k : Nat) (f : Rail → Rail) : (d.modRail k f).powu.halves = d.powu.halves := rfl
@[simp] theorem modRail_getSlab (d : Dev) (k j : Nat) (f : Rail → Rail) : (d.modRail k f).getSlab j = d.getSlab j := rfl
@[simp] theorem modRail_getSCtx (d : Dev) (k j : Nat) (f : Rail → Rail) : (d.modRail k f).getSCtx j = d.getSCtx j := rfl
@[simp] theorem modRail_getHalf (d : Dev) (k j : Nat) (f : Rail → Rail) : (d.modRail k f).getHalf j = d.getHalf j := rfl
@[simp] theorem modRail_getSeam (d : Dev) (k j : Nat) (f : Rail → Rail) : (d.modRail k f).getSeam j = d.getSeam j := rfl
@[simp] theorem modRail_getCluster (d : Dev) (k j : Nat) (f : Rail → Rail) : (d.modRail k f).getCluster j = d.getCluster j := rfl
@[simp] theorem modRail_getPebble (d : Dev) (k j : Nat) (f : Rail → Rail) : (d.modRail k f).getPebble j = d.getPebble j := rfl
@[simp] theorem modRail_getPCtx (d : Dev) (k j : Nat) (f : Rail → Rail) : (d.modRail k f).getPCtx j = d.getPCtx j := rfl
@[simp] theorem modRail_getLink (d : Dev) (k j : Nat) (f : Rail → Rail) : (d.modRail k f).getLink j = d.getLink j := rfl
@[simp] theorem modRail_getRing (d : Dev) (k j : Nat) (f : Rail → Rail) : (d.modRail k f).getRing j = d.getRing j := rfl
@[simp] theorem modRail_getPart (d : Dev) (k j : Nat) (f : Rail → Rail) : (d.modRail k f).getPart j = d.getPart j := rfl
@[simp] theorem modRail_getCairnTile (d : Dev) (k j : Nat) (f : Rail → Rail) : (d.modRail k f).getCairnTile j = d.getCairnTile j := rfl
@[simp] theorem modRail_getCMap (d : Dev) (k j : Nat) (f : Rail → Rail) : (d.modRail k f).getCMap j = d.getCMap j := rfl
@[simp] theorem modRail_getChan (d : Dev) (k j : Nat) (f : Rail → Rail) : (d.modRail k f).getChan j = d.getChan j := rfl
@[simp] theorem modRail_getTree (d : Dev) (k j : Nat) (f : Rail → Rail) : (d.modRail k f).getTree j = d.getTree j := rfl
@[simp] theorem modRail_getStack (d : Dev) (k j : Nat) (f : Rail → Rail) : (d.modRail k f).getStack j = d.getStack j := rfl
@[simp] theorem modRail_getRegion (d : Dev) (k j : Nat) (f : Rail → Rail) : (d.modRail k f).getRegion j = d.getRegion j := rfl
@[simp] theorem modRail_getScrub (d : Dev) (k j : Nat) (f : Rail → Rail) : (d.modRail k f).getScrub j = d.getScrub j := rfl
@[simp] theorem modRail_getAssay (d : Dev) (k j : Nat) (f : Rail → Rail) : (d.modRail k f).getAssay j = d.getAssay j := rfl
@[simp] theorem modRail_getTap (d : Dev) (k j : Nat) (f : Rail → Rail) : (d.modRail k f).getTap j = d.getTap j := rfl
@[simp] theorem modRail_getHalfPow (d : Dev) (k j : Nat) (f : Rail → Rail) : (d.modRail k f).getHalfPow j = d.getHalfPow j := rfl
@[simp] theorem modRail_getGuar (d : Dev) (k j : Nat) (f : Rail → Rail) : (d.modRail k f).getGuar j = d.getGuar j := rfl
@[simp] theorem modRail_getBPort (d : Dev) (k j : Nat) (f : Rail → Rail) : (d.modRail k f).getBPort j = d.getBPort j := rfl
@[simp] theorem modRail_getPartFab (d : Dev) (k j : Nat) (f : Rail → Rail) : (d.modRail k f).getPartFab j = d.getPartFab j := rfl
@[simp] theorem modRail_getDrop (d : Dev) (k j : Nat) (f : Rail → Rail) : (d.modRail k f).getDrop j = d.getDrop j := rfl
@[simp] theorem modRail_getPortCnt (d : Dev) (k j : Nat) (f : Rail → Rail) : (d.modRail k f).getPortCnt j = d.getPortCnt j := rfl
@[simp] theorem modRail_getWindow (d : Dev) (k j : Nat) (f : Rail → Rail) : (d.modRail k f).getWindow j = d.getWindow j := rfl

/-! `Dev.modGuar` changes `powu.guar` under one key. -/
@[simp] theorem modGuar_same (d : Dev) (k : Nat) (f : Guarantee → Guarantee) : (d.modGuar k f).getGuar k = f (d.getGuar k) := by simp [Dev.modGuar, Dev.getGuar]
theorem modGuar_ne (d : Dev) (f : Guarantee → Guarantee) {k j : Nat} (h : j ≠ k) : (d.modGuar k f).getGuar j = d.getGuar j := tabGet_tabSet_ne _ _ h _
@[simp] theorem modGuar_clock (d : Dev) (k : Nat) (f : Guarantee → Guarantee) : (d.modGuar k f).clock = d.clock := rfl
@[simp] theorem modGuar_pins (d : Dev) (k : Nat) (f : Guarantee → Guarantee) : (d.modGuar k f).pins = d.pins := rfl
@[simp] theorem modGuar_boot (d : Dev) (k : Nat) (f : Guarantee → Guarantee) : (d.modGuar k f).boot = d.boot := rfl
@[simp] theorem modGuar_fuses (d : Dev) (k : Nat) (f : Guarantee → Guarantee) : (d.modGuar k f).fuses = d.fuses := rfl
@[simp] theorem modGuar_flash (d : Dev) (k : Nat) (f : Guarantee → Guarantee) : (d.modGuar k f).flash = d.flash := rfl
@[simp] theorem modGuar_caps (d : Dev) (k : Nat) (f : Guarantee → Guarantee) : (d.modGuar k f).caps = d.caps := rfl
@[simp] theorem modGuar_beat (d : Dev) (k : Nat) (f : Guarantee → Guarantee) : (d.modGuar k f).beat = d.beat := rfl
@[simp] theorem modGuar_aux (d : Dev) (k : Nat) (f : Guarantee → Guarantee) : (d.modGuar k f).aux = d.aux := rfl
@[simp] theorem modGuar_dies (d : Dev) (k : Nat) (f : Guarantee → Guarantee) : (d.modGuar k f).dies = d.dies := rfl
@[simp] theorem modGuar_mesh (d : Dev) (k : Nat) (f : Guarantee → Guarantee) : (d.modGuar k f).mesh = d.mesh := rfl
@[simp] theorem modGuar_slab (d : Dev) (k : Nat) (f : Guarantee → Guarantee) : (d.modGuar k f).slab = d.slab := rfl
@[simp] theorem modGuar_peb (d : Dev) (k : Nat) (f : Guarantee → Guarantee) : (d.modGuar k f).peb = d.peb := rfl
@[simp] theorem modGuar_mem (d : Dev) (k : Nat) (f : Guarantee → Guarantee) : (d.modGuar k f).mem = d.mem := rfl
@[simp] theorem modGuar_cairn (d : Dev) (k : Nat) (f : Guarantee → Guarantee) : (d.modGuar k f).cairn = d.cairn := rfl
@[simp] theorem modGuar_barr (d : Dev) (k : Nat) (f : Guarantee → Guarantee) : (d.modGuar k f).barr = d.barr := rfl
@[simp] theorem modGuar_fab (d : Dev) (k : Nat) (f : Guarantee → Guarantee) : (d.modGuar k f).fab = d.fab := rfl
@[simp] theorem modGuar_links (d : Dev) (k : Nat) (f : Guarantee → Guarantee) : (d.modGuar k f).links = d.links := rfl
@[simp] theorem modGuar_host (d : Dev) (k : Nat) (f : Guarantee → Guarantee) : (d.modGuar k f).host = d.host := rfl
@[simp] theorem modGuar_bed (d : Dev) (k : Nat) (f : Guarantee → Guarantee) : (d.modGuar k f).bed = d.bed := rfl
@[simp] theorem modGuar_idle (d : Dev) (k : Nat) (f : Guarantee → Guarantee) : (d.modGuar k f).idle = d.idle := rfl
@[simp] theorem modGuar_parts (d : Dev) (k : Nat) (f : Guarantee → Guarantee) : (d.modGuar k f).parts = d.parts := rfl
@[simp] theorem modGuar_sec (d : Dev) (k : Nat) (f : Guarantee → Guarantee) : (d.modGuar k f).sec = d.sec := rfl
@[simp] theorem modGuar_pow (d : Dev) (k : Nat) (f : Guarantee → Guarantee) : (d.modGuar k f).pow = d.pow := rfl
@[simp] theorem modGuar_therm (d : Dev) (k : Nat) (f : Guarantee → Guarantee) : (d.modGuar k f).therm = d.therm := rfl
@[simp] theorem modGuar_evt (d : Dev) (k : Nat) (f : Guarantee → Guarantee) : (d.modGuar k f).evt = d.evt := rfl
@[simp] theorem modGuar_mirror (d : Dev) (k : Nat) (f : Guarantee → Guarantee) : (d.modGuar k f).mirror = d.mirror := rfl
@[simp] theorem modGuar_mgmt (d : Dev) (k : Nat) (f : Guarantee → Guarantee) : (d.modGuar k f).mgmt = d.mgmt := rfl
@[simp] theorem modGuar_test (d : Dev) (k : Nat) (f : Guarantee → Guarantee) : (d.modGuar k f).test = d.test := rfl
@[simp] theorem modGuar_powu_halves (d : Dev) (k : Nat) (f : Guarantee → Guarantee) : (d.modGuar k f).powu.halves = d.powu.halves := rfl
@[simp] theorem modGuar_powu_rails (d : Dev) (k : Nat) (f : Guarantee → Guarantee) : (d.modGuar k f).powu.rails = d.powu.rails := rfl
@[simp] theorem modGuar_getSlab (d : Dev) (k j : Nat) (f : Guarantee → Guarantee) : (d.modGuar k f).getSlab j = d.getSlab j := rfl
@[simp] theorem modGuar_getSCtx (d : Dev) (k j : Nat) (f : Guarantee → Guarantee) : (d.modGuar k f).getSCtx j = d.getSCtx j := rfl
@[simp] theorem modGuar_getHalf (d : Dev) (k j : Nat) (f : Guarantee → Guarantee) : (d.modGuar k f).getHalf j = d.getHalf j := rfl
@[simp] theorem modGuar_getSeam (d : Dev) (k j : Nat) (f : Guarantee → Guarantee) : (d.modGuar k f).getSeam j = d.getSeam j := rfl
@[simp] theorem modGuar_getCluster (d : Dev) (k j : Nat) (f : Guarantee → Guarantee) : (d.modGuar k f).getCluster j = d.getCluster j := rfl
@[simp] theorem modGuar_getPebble (d : Dev) (k j : Nat) (f : Guarantee → Guarantee) : (d.modGuar k f).getPebble j = d.getPebble j := rfl
@[simp] theorem modGuar_getPCtx (d : Dev) (k j : Nat) (f : Guarantee → Guarantee) : (d.modGuar k f).getPCtx j = d.getPCtx j := rfl
@[simp] theorem modGuar_getLink (d : Dev) (k j : Nat) (f : Guarantee → Guarantee) : (d.modGuar k f).getLink j = d.getLink j := rfl
@[simp] theorem modGuar_getRing (d : Dev) (k j : Nat) (f : Guarantee → Guarantee) : (d.modGuar k f).getRing j = d.getRing j := rfl
@[simp] theorem modGuar_getPart (d : Dev) (k j : Nat) (f : Guarantee → Guarantee) : (d.modGuar k f).getPart j = d.getPart j := rfl
@[simp] theorem modGuar_getCairnTile (d : Dev) (k j : Nat) (f : Guarantee → Guarantee) : (d.modGuar k f).getCairnTile j = d.getCairnTile j := rfl
@[simp] theorem modGuar_getCMap (d : Dev) (k j : Nat) (f : Guarantee → Guarantee) : (d.modGuar k f).getCMap j = d.getCMap j := rfl
@[simp] theorem modGuar_getChan (d : Dev) (k j : Nat) (f : Guarantee → Guarantee) : (d.modGuar k f).getChan j = d.getChan j := rfl
@[simp] theorem modGuar_getTree (d : Dev) (k j : Nat) (f : Guarantee → Guarantee) : (d.modGuar k f).getTree j = d.getTree j := rfl
@[simp] theorem modGuar_getStack (d : Dev) (k j : Nat) (f : Guarantee → Guarantee) : (d.modGuar k f).getStack j = d.getStack j := rfl
@[simp] theorem modGuar_getRegion (d : Dev) (k j : Nat) (f : Guarantee → Guarantee) : (d.modGuar k f).getRegion j = d.getRegion j := rfl
@[simp] theorem modGuar_getScrub (d : Dev) (k j : Nat) (f : Guarantee → Guarantee) : (d.modGuar k f).getScrub j = d.getScrub j := rfl
@[simp] theorem modGuar_getAssay (d : Dev) (k j : Nat) (f : Guarantee → Guarantee) : (d.modGuar k f).getAssay j = d.getAssay j := rfl
@[simp] theorem modGuar_getTap (d : Dev) (k j : Nat) (f : Guarantee → Guarantee) : (d.modGuar k f).getTap j = d.getTap j := rfl
@[simp] theorem modGuar_getHalfPow (d : Dev) (k j : Nat) (f : Guarantee → Guarantee) : (d.modGuar k f).getHalfPow j = d.getHalfPow j := rfl
@[simp] theorem modGuar_getRail (d : Dev) (k j : Nat) (f : Guarantee → Guarantee) : (d.modGuar k f).getRail j = d.getRail j := rfl
@[simp] theorem modGuar_getBPort (d : Dev) (k j : Nat) (f : Guarantee → Guarantee) : (d.modGuar k f).getBPort j = d.getBPort j := rfl
@[simp] theorem modGuar_getPartFab (d : Dev) (k j : Nat) (f : Guarantee → Guarantee) : (d.modGuar k f).getPartFab j = d.getPartFab j := rfl
@[simp] theorem modGuar_getDrop (d : Dev) (k j : Nat) (f : Guarantee → Guarantee) : (d.modGuar k f).getDrop j = d.getDrop j := rfl
@[simp] theorem modGuar_getPortCnt (d : Dev) (k j : Nat) (f : Guarantee → Guarantee) : (d.modGuar k f).getPortCnt j = d.getPortCnt j := rfl
@[simp] theorem modGuar_getWindow (d : Dev) (k j : Nat) (f : Guarantee → Guarantee) : (d.modGuar k f).getWindow j = d.getWindow j := rfl

/-! `Dev.modBPort` changes `beat.ports` under one key. -/
@[simp] theorem modBPort_same (d : Dev) (k : Nat) (f : BeatPort → BeatPort) : (d.modBPort k f).getBPort k = f (d.getBPort k) := by simp [Dev.modBPort, Dev.getBPort]
theorem modBPort_ne (d : Dev) (f : BeatPort → BeatPort) {k j : Nat} (h : j ≠ k) : (d.modBPort k f).getBPort j = d.getBPort j := tabGet_tabSet_ne _ _ h _
@[simp] theorem modBPort_clock (d : Dev) (k : Nat) (f : BeatPort → BeatPort) : (d.modBPort k f).clock = d.clock := rfl
@[simp] theorem modBPort_pins (d : Dev) (k : Nat) (f : BeatPort → BeatPort) : (d.modBPort k f).pins = d.pins := rfl
@[simp] theorem modBPort_boot (d : Dev) (k : Nat) (f : BeatPort → BeatPort) : (d.modBPort k f).boot = d.boot := rfl
@[simp] theorem modBPort_fuses (d : Dev) (k : Nat) (f : BeatPort → BeatPort) : (d.modBPort k f).fuses = d.fuses := rfl
@[simp] theorem modBPort_flash (d : Dev) (k : Nat) (f : BeatPort → BeatPort) : (d.modBPort k f).flash = d.flash := rfl
@[simp] theorem modBPort_caps (d : Dev) (k : Nat) (f : BeatPort → BeatPort) : (d.modBPort k f).caps = d.caps := rfl
@[simp] theorem modBPort_aux (d : Dev) (k : Nat) (f : BeatPort → BeatPort) : (d.modBPort k f).aux = d.aux := rfl
@[simp] theorem modBPort_dies (d : Dev) (k : Nat) (f : BeatPort → BeatPort) : (d.modBPort k f).dies = d.dies := rfl
@[simp] theorem modBPort_mesh (d : Dev) (k : Nat) (f : BeatPort → BeatPort) : (d.modBPort k f).mesh = d.mesh := rfl
@[simp] theorem modBPort_slab (d : Dev) (k : Nat) (f : BeatPort → BeatPort) : (d.modBPort k f).slab = d.slab := rfl
@[simp] theorem modBPort_peb (d : Dev) (k : Nat) (f : BeatPort → BeatPort) : (d.modBPort k f).peb = d.peb := rfl
@[simp] theorem modBPort_mem (d : Dev) (k : Nat) (f : BeatPort → BeatPort) : (d.modBPort k f).mem = d.mem := rfl
@[simp] theorem modBPort_cairn (d : Dev) (k : Nat) (f : BeatPort → BeatPort) : (d.modBPort k f).cairn = d.cairn := rfl
@[simp] theorem modBPort_barr (d : Dev) (k : Nat) (f : BeatPort → BeatPort) : (d.modBPort k f).barr = d.barr := rfl
@[simp] theorem modBPort_fab (d : Dev) (k : Nat) (f : BeatPort → BeatPort) : (d.modBPort k f).fab = d.fab := rfl
@[simp] theorem modBPort_links (d : Dev) (k : Nat) (f : BeatPort → BeatPort) : (d.modBPort k f).links = d.links := rfl
@[simp] theorem modBPort_host (d : Dev) (k : Nat) (f : BeatPort → BeatPort) : (d.modBPort k f).host = d.host := rfl
@[simp] theorem modBPort_bed (d : Dev) (k : Nat) (f : BeatPort → BeatPort) : (d.modBPort k f).bed = d.bed := rfl
@[simp] theorem modBPort_idle (d : Dev) (k : Nat) (f : BeatPort → BeatPort) : (d.modBPort k f).idle = d.idle := rfl
@[simp] theorem modBPort_parts (d : Dev) (k : Nat) (f : BeatPort → BeatPort) : (d.modBPort k f).parts = d.parts := rfl
@[simp] theorem modBPort_sec (d : Dev) (k : Nat) (f : BeatPort → BeatPort) : (d.modBPort k f).sec = d.sec := rfl
@[simp] theorem modBPort_pow (d : Dev) (k : Nat) (f : BeatPort → BeatPort) : (d.modBPort k f).pow = d.pow := rfl
@[simp] theorem modBPort_powu (d : Dev) (k : Nat) (f : BeatPort → BeatPort) : (d.modBPort k f).powu = d.powu := rfl
@[simp] theorem modBPort_therm (d : Dev) (k : Nat) (f : BeatPort → BeatPort) : (d.modBPort k f).therm = d.therm := rfl
@[simp] theorem modBPort_evt (d : Dev) (k : Nat) (f : BeatPort → BeatPort) : (d.modBPort k f).evt = d.evt := rfl
@[simp] theorem modBPort_mirror (d : Dev) (k : Nat) (f : BeatPort → BeatPort) : (d.modBPort k f).mirror = d.mirror := rfl
@[simp] theorem modBPort_mgmt (d : Dev) (k : Nat) (f : BeatPort → BeatPort) : (d.modBPort k f).mgmt = d.mgmt := rfl
@[simp] theorem modBPort_test (d : Dev) (k : Nat) (f : BeatPort → BeatPort) : (d.modBPort k f).test = d.test := rfl
@[simp] theorem modBPort_beat_role (d : Dev) (k : Nat) (f : BeatPort → BeatPort) : (d.modBPort k f).beat.role = d.beat.role := rfl
@[simp] theorem modBPort_beat_source (d : Dev) (k : Nat) (f : BeatPort → BeatPort) : (d.modBPort k f).beat.source = d.beat.source := rfl
@[simp] theorem modBPort_beat_holdCap (d : Dev) (k : Nat) (f : BeatPort → BeatPort) : (d.modBPort k f).beat.holdCap = d.beat.holdCap := rfl
@[simp] theorem modBPort_beat_domain (d : Dev) (k : Nat) (f : BeatPort → BeatPort) : (d.modBPort k f).beat.domain = d.beat.domain := rfl
@[simp] theorem modBPort_beat_maskVein (d : Dev) (k : Nat) (f : BeatPort → BeatPort) : (d.modBPort k f).beat.maskVein = d.beat.maskVein := rfl
@[simp] theorem modBPort_beat_maskD2d (d : Dev) (k : Nat) (f : BeatPort → BeatPort) : (d.modBPort k f).beat.maskD2d = d.beat.maskD2d := rfl
@[simp] theorem modBPort_beat_state (d : Dev) (k : Nat) (f : BeatPort → BeatPort) : (d.modBPort k f).beat.state = d.beat.state := rfl
@[simp] theorem modBPort_beat_hop (d : Dev) (k : Nat) (f : BeatPort → BeatPort) : (d.modBPort k f).beat.hop = d.beat.hop := rfl
@[simp] theorem modBPort_beat_parentPort (d : Dev) (k : Nat) (f : BeatPort → BeatPort) : (d.modBPort k f).beat.parentPort = d.beat.parentPort := rfl
@[simp] theorem modBPort_beat_parentD2d (d : Dev) (k : Nat) (f : BeatPort → BeatPort) : (d.modBPort k f).beat.parentD2d = d.beat.parentD2d := rfl
@[simp] theorem modBPort_beat_beatInOk (d : Dev) (k : Nat) (f : BeatPort → BeatPort) : (d.modBPort k f).beat.beatInOk = d.beat.beatInOk := rfl
@[simp] theorem modBPort_beat_lossCause (d : Dev) (k : Nat) (f : BeatPort → BeatPort) : (d.modBPort k f).beat.lossCause = d.beat.lossCause := rfl
@[simp] theorem modBPort_beat_lossSeen (d : Dev) (k : Nat) (f : BeatPort → BeatPort) : (d.modBPort k f).beat.lossSeen = d.beat.lossSeen := rfl
@[simp] theorem modBPort_beat_master (d : Dev) (k : Nat) (f : BeatPort → BeatPort) : (d.modBPort k f).beat.master = d.beat.master := rfl
@[simp] theorem modBPort_beat_number (d : Dev) (k : Nat) (f : BeatPort → BeatPort) : (d.modBPort k f).beat.number = d.beat.number := rfl
@[simp] theorem modBPort_beat_holdCount (d : Dev) (k : Nat) (f : BeatPort → BeatPort) : (d.modBPort k f).beat.holdCount = d.beat.holdCount := rfl
@[simp] theorem modBPort_beat_highWater (d : Dev) (k : Nat) (f : BeatPort → BeatPort) : (d.modBPort k f).beat.highWater = d.beat.highWater := rfl
@[simp] theorem modBPort_beat_latency (d : Dev) (k : Nat) (f : BeatPort → BeatPort) : (d.modBPort k f).beat.latency = d.beat.latency := rfl
@[simp] theorem modBPort_beat_configGen (d : Dev) (k : Nat) (f : BeatPort → BeatPort) : (d.modBPort k f).beat.configGen = d.beat.configGen := rfl
@[simp] theorem modBPort_beat_extSource (d : Dev) (k : Nat) (f : BeatPort → BeatPort) : (d.modBPort k f).beat.extSource = d.beat.extSource := rfl
@[simp] theorem modBPort_beat_fwdHoldCap (d : Dev) (k : Nat) (f : BeatPort → BeatPort) : (d.modBPort k f).beat.fwdHoldCap = d.beat.fwdHoldCap := rfl
@[simp] theorem modBPort_beat_heldBeats (d : Dev) (k : Nat) (f : BeatPort → BeatPort) : (d.modBPort k f).beat.heldBeats = d.beat.heldBeats := rfl
@[simp] theorem modBPort_beat_annFrom (d : Dev) (k : Nat) (f : BeatPort → BeatPort) : (d.modBPort k f).beat.annFrom = d.beat.annFrom := rfl
@[simp] theorem modBPort_beat_annTo (d : Dev) (k : Nat) (f : BeatPort → BeatPort) : (d.modBPort k f).beat.annTo = d.beat.annTo := rfl
@[simp] theorem modBPort_beat_requests (d : Dev) (k : Nat) (f : BeatPort → BeatPort) : (d.modBPort k f).beat.requests = d.beat.requests := rfl
@[simp] theorem modBPort_getSlab (d : Dev) (k j : Nat) (f : BeatPort → BeatPort) : (d.modBPort k f).getSlab j = d.getSlab j := rfl
@[simp] theorem modBPort_getSCtx (d : Dev) (k j : Nat) (f : BeatPort → BeatPort) : (d.modBPort k f).getSCtx j = d.getSCtx j := rfl
@[simp] theorem modBPort_getHalf (d : Dev) (k j : Nat) (f : BeatPort → BeatPort) : (d.modBPort k f).getHalf j = d.getHalf j := rfl
@[simp] theorem modBPort_getSeam (d : Dev) (k j : Nat) (f : BeatPort → BeatPort) : (d.modBPort k f).getSeam j = d.getSeam j := rfl
@[simp] theorem modBPort_getCluster (d : Dev) (k j : Nat) (f : BeatPort → BeatPort) : (d.modBPort k f).getCluster j = d.getCluster j := rfl
@[simp] theorem modBPort_getPebble (d : Dev) (k j : Nat) (f : BeatPort → BeatPort) : (d.modBPort k f).getPebble j = d.getPebble j := rfl
@[simp] theorem modBPort_getPCtx (d : Dev) (k j : Nat) (f : BeatPort → BeatPort) : (d.modBPort k f).getPCtx j = d.getPCtx j := rfl
@[simp] theorem modBPort_getLink (d : Dev) (k j : Nat) (f : BeatPort → BeatPort) : (d.modBPort k f).getLink j = d.getLink j := rfl
@[simp] theorem modBPort_getRing (d : Dev) (k j : Nat) (f : BeatPort → BeatPort) : (d.modBPort k f).getRing j = d.getRing j := rfl
@[simp] theorem modBPort_getPart (d : Dev) (k j : Nat) (f : BeatPort → BeatPort) : (d.modBPort k f).getPart j = d.getPart j := rfl
@[simp] theorem modBPort_getCairnTile (d : Dev) (k j : Nat) (f : BeatPort → BeatPort) : (d.modBPort k f).getCairnTile j = d.getCairnTile j := rfl
@[simp] theorem modBPort_getCMap (d : Dev) (k j : Nat) (f : BeatPort → BeatPort) : (d.modBPort k f).getCMap j = d.getCMap j := rfl
@[simp] theorem modBPort_getChan (d : Dev) (k j : Nat) (f : BeatPort → BeatPort) : (d.modBPort k f).getChan j = d.getChan j := rfl
@[simp] theorem modBPort_getTree (d : Dev) (k j : Nat) (f : BeatPort → BeatPort) : (d.modBPort k f).getTree j = d.getTree j := rfl
@[simp] theorem modBPort_getStack (d : Dev) (k j : Nat) (f : BeatPort → BeatPort) : (d.modBPort k f).getStack j = d.getStack j := rfl
@[simp] theorem modBPort_getRegion (d : Dev) (k j : Nat) (f : BeatPort → BeatPort) : (d.modBPort k f).getRegion j = d.getRegion j := rfl
@[simp] theorem modBPort_getScrub (d : Dev) (k j : Nat) (f : BeatPort → BeatPort) : (d.modBPort k f).getScrub j = d.getScrub j := rfl
@[simp] theorem modBPort_getAssay (d : Dev) (k j : Nat) (f : BeatPort → BeatPort) : (d.modBPort k f).getAssay j = d.getAssay j := rfl
@[simp] theorem modBPort_getTap (d : Dev) (k j : Nat) (f : BeatPort → BeatPort) : (d.modBPort k f).getTap j = d.getTap j := rfl
@[simp] theorem modBPort_getHalfPow (d : Dev) (k j : Nat) (f : BeatPort → BeatPort) : (d.modBPort k f).getHalfPow j = d.getHalfPow j := rfl
@[simp] theorem modBPort_getRail (d : Dev) (k j : Nat) (f : BeatPort → BeatPort) : (d.modBPort k f).getRail j = d.getRail j := rfl
@[simp] theorem modBPort_getGuar (d : Dev) (k j : Nat) (f : BeatPort → BeatPort) : (d.modBPort k f).getGuar j = d.getGuar j := rfl
@[simp] theorem modBPort_getPartFab (d : Dev) (k j : Nat) (f : BeatPort → BeatPort) : (d.modBPort k f).getPartFab j = d.getPartFab j := rfl
@[simp] theorem modBPort_getDrop (d : Dev) (k j : Nat) (f : BeatPort → BeatPort) : (d.modBPort k f).getDrop j = d.getDrop j := rfl
@[simp] theorem modBPort_getPortCnt (d : Dev) (k j : Nat) (f : BeatPort → BeatPort) : (d.modBPort k f).getPortCnt j = d.getPortCnt j := rfl
@[simp] theorem modBPort_getWindow (d : Dev) (k j : Nat) (f : BeatPort → BeatPort) : (d.modBPort k f).getWindow j = d.getWindow j := rfl

/-! `Dev.modPartFab` changes `fab.parts` under one key. -/
@[simp] theorem modPartFab_same (d : Dev) (k : Nat) (f : PartFabric → PartFabric) : (d.modPartFab k f).getPartFab k = f (d.getPartFab k) := by simp [Dev.modPartFab, Dev.getPartFab]
theorem modPartFab_ne (d : Dev) (f : PartFabric → PartFabric) {k j : Nat} (h : j ≠ k) : (d.modPartFab k f).getPartFab j = d.getPartFab j := tabGet_tabSet_ne _ _ h _
@[simp] theorem modPartFab_clock (d : Dev) (k : Nat) (f : PartFabric → PartFabric) : (d.modPartFab k f).clock = d.clock := rfl
@[simp] theorem modPartFab_pins (d : Dev) (k : Nat) (f : PartFabric → PartFabric) : (d.modPartFab k f).pins = d.pins := rfl
@[simp] theorem modPartFab_boot (d : Dev) (k : Nat) (f : PartFabric → PartFabric) : (d.modPartFab k f).boot = d.boot := rfl
@[simp] theorem modPartFab_fuses (d : Dev) (k : Nat) (f : PartFabric → PartFabric) : (d.modPartFab k f).fuses = d.fuses := rfl
@[simp] theorem modPartFab_flash (d : Dev) (k : Nat) (f : PartFabric → PartFabric) : (d.modPartFab k f).flash = d.flash := rfl
@[simp] theorem modPartFab_caps (d : Dev) (k : Nat) (f : PartFabric → PartFabric) : (d.modPartFab k f).caps = d.caps := rfl
@[simp] theorem modPartFab_beat (d : Dev) (k : Nat) (f : PartFabric → PartFabric) : (d.modPartFab k f).beat = d.beat := rfl
@[simp] theorem modPartFab_aux (d : Dev) (k : Nat) (f : PartFabric → PartFabric) : (d.modPartFab k f).aux = d.aux := rfl
@[simp] theorem modPartFab_dies (d : Dev) (k : Nat) (f : PartFabric → PartFabric) : (d.modPartFab k f).dies = d.dies := rfl
@[simp] theorem modPartFab_mesh (d : Dev) (k : Nat) (f : PartFabric → PartFabric) : (d.modPartFab k f).mesh = d.mesh := rfl
@[simp] theorem modPartFab_slab (d : Dev) (k : Nat) (f : PartFabric → PartFabric) : (d.modPartFab k f).slab = d.slab := rfl
@[simp] theorem modPartFab_peb (d : Dev) (k : Nat) (f : PartFabric → PartFabric) : (d.modPartFab k f).peb = d.peb := rfl
@[simp] theorem modPartFab_mem (d : Dev) (k : Nat) (f : PartFabric → PartFabric) : (d.modPartFab k f).mem = d.mem := rfl
@[simp] theorem modPartFab_cairn (d : Dev) (k : Nat) (f : PartFabric → PartFabric) : (d.modPartFab k f).cairn = d.cairn := rfl
@[simp] theorem modPartFab_barr (d : Dev) (k : Nat) (f : PartFabric → PartFabric) : (d.modPartFab k f).barr = d.barr := rfl
@[simp] theorem modPartFab_links (d : Dev) (k : Nat) (f : PartFabric → PartFabric) : (d.modPartFab k f).links = d.links := rfl
@[simp] theorem modPartFab_host (d : Dev) (k : Nat) (f : PartFabric → PartFabric) : (d.modPartFab k f).host = d.host := rfl
@[simp] theorem modPartFab_bed (d : Dev) (k : Nat) (f : PartFabric → PartFabric) : (d.modPartFab k f).bed = d.bed := rfl
@[simp] theorem modPartFab_idle (d : Dev) (k : Nat) (f : PartFabric → PartFabric) : (d.modPartFab k f).idle = d.idle := rfl
@[simp] theorem modPartFab_parts (d : Dev) (k : Nat) (f : PartFabric → PartFabric) : (d.modPartFab k f).parts = d.parts := rfl
@[simp] theorem modPartFab_sec (d : Dev) (k : Nat) (f : PartFabric → PartFabric) : (d.modPartFab k f).sec = d.sec := rfl
@[simp] theorem modPartFab_pow (d : Dev) (k : Nat) (f : PartFabric → PartFabric) : (d.modPartFab k f).pow = d.pow := rfl
@[simp] theorem modPartFab_powu (d : Dev) (k : Nat) (f : PartFabric → PartFabric) : (d.modPartFab k f).powu = d.powu := rfl
@[simp] theorem modPartFab_therm (d : Dev) (k : Nat) (f : PartFabric → PartFabric) : (d.modPartFab k f).therm = d.therm := rfl
@[simp] theorem modPartFab_evt (d : Dev) (k : Nat) (f : PartFabric → PartFabric) : (d.modPartFab k f).evt = d.evt := rfl
@[simp] theorem modPartFab_mirror (d : Dev) (k : Nat) (f : PartFabric → PartFabric) : (d.modPartFab k f).mirror = d.mirror := rfl
@[simp] theorem modPartFab_mgmt (d : Dev) (k : Nat) (f : PartFabric → PartFabric) : (d.modPartFab k f).mgmt = d.mgmt := rfl
@[simp] theorem modPartFab_test (d : Dev) (k : Nat) (f : PartFabric → PartFabric) : (d.modPartFab k f).test = d.test := rfl
@[simp] theorem modPartFab_fab_selfDevice (d : Dev) (k : Nat) (f : PartFabric → PartFabric) : (d.modPartFab k f).fab.selfDevice = d.fab.selfDevice := rfl
@[simp] theorem modPartFab_fab_selfValid (d : Dev) (k : Nat) (f : PartFabric → PartFabric) : (d.modPartFab k f).fab.selfValid = d.fab.selfValid := rfl
@[simp] theorem modPartFab_fab_device (d : Dev) (k : Nat) (f : PartFabric → PartFabric) : (d.modPartFab k f).fab.device = d.fab.device := rfl
@[simp] theorem modPartFab_fab_locals (d : Dev) (k : Nat) (f : PartFabric → PartFabric) : (d.modPartFab k f).fab.locals = d.fab.locals := rfl
@[simp] theorem modPartFab_fab_reduce (d : Dev) (k : Nat) (f : PartFabric → PartFabric) : (d.modPartFab k f).fab.reduce = d.fab.reduce := rfl
@[simp] theorem modPartFab_fab_counts (d : Dev) (k : Nat) (f : PartFabric → PartFabric) : (d.modPartFab k f).fab.counts = d.fab.counts := rfl
@[simp] theorem modPartFab_fab_drops (d : Dev) (k : Nat) (f : PartFabric → PartFabric) : (d.modPartFab k f).fab.drops = d.fab.drops := rfl
@[simp] theorem modPartFab_fab_queue (d : Dev) (k : Nat) (f : PartFabric → PartFabric) : (d.modPartFab k f).fab.queue = d.fab.queue := rfl
@[simp] theorem modPartFab_fab_requests (d : Dev) (k : Nat) (f : PartFabric → PartFabric) : (d.modPartFab k f).fab.requests = d.fab.requests := rfl
@[simp] theorem modPartFab_fab_nextTag (d : Dev) (k : Nat) (f : PartFabric → PartFabric) : (d.modPartFab k f).fab.nextTag = d.fab.nextTag := rfl
@[simp] theorem modPartFab_fab_nodes (d : Dev) (k : Nat) (f : PartFabric → PartFabric) : (d.modPartFab k f).fab.nodes = d.fab.nodes := rfl
@[simp] theorem modPartFab_fab_closedTags (d : Dev) (k : Nat) (f : PartFabric → PartFabric) : (d.modPartFab k f).fab.closedTags = d.fab.closedTags := rfl
@[simp] theorem modPartFab_fab_change (d : Dev) (k : Nat) (f : PartFabric → PartFabric) : (d.modPartFab k f).fab.change = d.fab.change := rfl
@[simp] theorem modPartFab_fab_laps (d : Dev) (k : Nat) (f : PartFabric → PartFabric) : (d.modPartFab k f).fab.laps = d.fab.laps := rfl
@[simp] theorem modPartFab_fab_ringQueues (d : Dev) (k : Nat) (f : PartFabric → PartFabric) : (d.modPartFab k f).fab.ringQueues = d.fab.ringQueues := rfl
@[simp] theorem modPartFab_fab_ringMsgs (d : Dev) (k : Nat) (f : PartFabric → PartFabric) : (d.modPartFab k f).fab.ringMsgs = d.fab.ringMsgs := rfl
@[simp] theorem modPartFab_fab_lastVc (d : Dev) (k : Nat) (f : PartFabric → PartFabric) : (d.modPartFab k f).fab.lastVc = d.fab.lastVc := rfl
@[simp] theorem modPartFab_getSlab (d : Dev) (k j : Nat) (f : PartFabric → PartFabric) : (d.modPartFab k f).getSlab j = d.getSlab j := rfl
@[simp] theorem modPartFab_getSCtx (d : Dev) (k j : Nat) (f : PartFabric → PartFabric) : (d.modPartFab k f).getSCtx j = d.getSCtx j := rfl
@[simp] theorem modPartFab_getHalf (d : Dev) (k j : Nat) (f : PartFabric → PartFabric) : (d.modPartFab k f).getHalf j = d.getHalf j := rfl
@[simp] theorem modPartFab_getSeam (d : Dev) (k j : Nat) (f : PartFabric → PartFabric) : (d.modPartFab k f).getSeam j = d.getSeam j := rfl
@[simp] theorem modPartFab_getCluster (d : Dev) (k j : Nat) (f : PartFabric → PartFabric) : (d.modPartFab k f).getCluster j = d.getCluster j := rfl
@[simp] theorem modPartFab_getPebble (d : Dev) (k j : Nat) (f : PartFabric → PartFabric) : (d.modPartFab k f).getPebble j = d.getPebble j := rfl
@[simp] theorem modPartFab_getPCtx (d : Dev) (k j : Nat) (f : PartFabric → PartFabric) : (d.modPartFab k f).getPCtx j = d.getPCtx j := rfl
@[simp] theorem modPartFab_getLink (d : Dev) (k j : Nat) (f : PartFabric → PartFabric) : (d.modPartFab k f).getLink j = d.getLink j := rfl
@[simp] theorem modPartFab_getRing (d : Dev) (k j : Nat) (f : PartFabric → PartFabric) : (d.modPartFab k f).getRing j = d.getRing j := rfl
@[simp] theorem modPartFab_getPart (d : Dev) (k j : Nat) (f : PartFabric → PartFabric) : (d.modPartFab k f).getPart j = d.getPart j := rfl
@[simp] theorem modPartFab_getCairnTile (d : Dev) (k j : Nat) (f : PartFabric → PartFabric) : (d.modPartFab k f).getCairnTile j = d.getCairnTile j := rfl
@[simp] theorem modPartFab_getCMap (d : Dev) (k j : Nat) (f : PartFabric → PartFabric) : (d.modPartFab k f).getCMap j = d.getCMap j := rfl
@[simp] theorem modPartFab_getChan (d : Dev) (k j : Nat) (f : PartFabric → PartFabric) : (d.modPartFab k f).getChan j = d.getChan j := rfl
@[simp] theorem modPartFab_getTree (d : Dev) (k j : Nat) (f : PartFabric → PartFabric) : (d.modPartFab k f).getTree j = d.getTree j := rfl
@[simp] theorem modPartFab_getStack (d : Dev) (k j : Nat) (f : PartFabric → PartFabric) : (d.modPartFab k f).getStack j = d.getStack j := rfl
@[simp] theorem modPartFab_getRegion (d : Dev) (k j : Nat) (f : PartFabric → PartFabric) : (d.modPartFab k f).getRegion j = d.getRegion j := rfl
@[simp] theorem modPartFab_getScrub (d : Dev) (k j : Nat) (f : PartFabric → PartFabric) : (d.modPartFab k f).getScrub j = d.getScrub j := rfl
@[simp] theorem modPartFab_getAssay (d : Dev) (k j : Nat) (f : PartFabric → PartFabric) : (d.modPartFab k f).getAssay j = d.getAssay j := rfl
@[simp] theorem modPartFab_getTap (d : Dev) (k j : Nat) (f : PartFabric → PartFabric) : (d.modPartFab k f).getTap j = d.getTap j := rfl
@[simp] theorem modPartFab_getHalfPow (d : Dev) (k j : Nat) (f : PartFabric → PartFabric) : (d.modPartFab k f).getHalfPow j = d.getHalfPow j := rfl
@[simp] theorem modPartFab_getRail (d : Dev) (k j : Nat) (f : PartFabric → PartFabric) : (d.modPartFab k f).getRail j = d.getRail j := rfl
@[simp] theorem modPartFab_getGuar (d : Dev) (k j : Nat) (f : PartFabric → PartFabric) : (d.modPartFab k f).getGuar j = d.getGuar j := rfl
@[simp] theorem modPartFab_getBPort (d : Dev) (k j : Nat) (f : PartFabric → PartFabric) : (d.modPartFab k f).getBPort j = d.getBPort j := rfl
@[simp] theorem modPartFab_getDrop (d : Dev) (k j : Nat) (f : PartFabric → PartFabric) : (d.modPartFab k f).getDrop j = d.getDrop j := rfl
@[simp] theorem modPartFab_getPortCnt (d : Dev) (k j : Nat) (f : PartFabric → PartFabric) : (d.modPartFab k f).getPortCnt j = d.getPortCnt j := rfl
@[simp] theorem modPartFab_getWindow (d : Dev) (k j : Nat) (f : PartFabric → PartFabric) : (d.modPartFab k f).getWindow j = d.getWindow j := rfl

/-! `Dev.modDrop` changes `fab.drops` under one key. -/
@[simp] theorem modDrop_same (d : Dev) (k : Nat) (f : Drops → Drops) : (d.modDrop k f).getDrop k = f (d.getDrop k) := by simp [Dev.modDrop, Dev.getDrop]
theorem modDrop_ne (d : Dev) (f : Drops → Drops) {k j : Nat} (h : j ≠ k) : (d.modDrop k f).getDrop j = d.getDrop j := tabGet_tabSet_ne _ _ h _
@[simp] theorem modDrop_clock (d : Dev) (k : Nat) (f : Drops → Drops) : (d.modDrop k f).clock = d.clock := rfl
@[simp] theorem modDrop_pins (d : Dev) (k : Nat) (f : Drops → Drops) : (d.modDrop k f).pins = d.pins := rfl
@[simp] theorem modDrop_boot (d : Dev) (k : Nat) (f : Drops → Drops) : (d.modDrop k f).boot = d.boot := rfl
@[simp] theorem modDrop_fuses (d : Dev) (k : Nat) (f : Drops → Drops) : (d.modDrop k f).fuses = d.fuses := rfl
@[simp] theorem modDrop_flash (d : Dev) (k : Nat) (f : Drops → Drops) : (d.modDrop k f).flash = d.flash := rfl
@[simp] theorem modDrop_caps (d : Dev) (k : Nat) (f : Drops → Drops) : (d.modDrop k f).caps = d.caps := rfl
@[simp] theorem modDrop_beat (d : Dev) (k : Nat) (f : Drops → Drops) : (d.modDrop k f).beat = d.beat := rfl
@[simp] theorem modDrop_aux (d : Dev) (k : Nat) (f : Drops → Drops) : (d.modDrop k f).aux = d.aux := rfl
@[simp] theorem modDrop_dies (d : Dev) (k : Nat) (f : Drops → Drops) : (d.modDrop k f).dies = d.dies := rfl
@[simp] theorem modDrop_mesh (d : Dev) (k : Nat) (f : Drops → Drops) : (d.modDrop k f).mesh = d.mesh := rfl
@[simp] theorem modDrop_slab (d : Dev) (k : Nat) (f : Drops → Drops) : (d.modDrop k f).slab = d.slab := rfl
@[simp] theorem modDrop_peb (d : Dev) (k : Nat) (f : Drops → Drops) : (d.modDrop k f).peb = d.peb := rfl
@[simp] theorem modDrop_mem (d : Dev) (k : Nat) (f : Drops → Drops) : (d.modDrop k f).mem = d.mem := rfl
@[simp] theorem modDrop_cairn (d : Dev) (k : Nat) (f : Drops → Drops) : (d.modDrop k f).cairn = d.cairn := rfl
@[simp] theorem modDrop_barr (d : Dev) (k : Nat) (f : Drops → Drops) : (d.modDrop k f).barr = d.barr := rfl
@[simp] theorem modDrop_links (d : Dev) (k : Nat) (f : Drops → Drops) : (d.modDrop k f).links = d.links := rfl
@[simp] theorem modDrop_host (d : Dev) (k : Nat) (f : Drops → Drops) : (d.modDrop k f).host = d.host := rfl
@[simp] theorem modDrop_bed (d : Dev) (k : Nat) (f : Drops → Drops) : (d.modDrop k f).bed = d.bed := rfl
@[simp] theorem modDrop_idle (d : Dev) (k : Nat) (f : Drops → Drops) : (d.modDrop k f).idle = d.idle := rfl
@[simp] theorem modDrop_parts (d : Dev) (k : Nat) (f : Drops → Drops) : (d.modDrop k f).parts = d.parts := rfl
@[simp] theorem modDrop_sec (d : Dev) (k : Nat) (f : Drops → Drops) : (d.modDrop k f).sec = d.sec := rfl
@[simp] theorem modDrop_pow (d : Dev) (k : Nat) (f : Drops → Drops) : (d.modDrop k f).pow = d.pow := rfl
@[simp] theorem modDrop_powu (d : Dev) (k : Nat) (f : Drops → Drops) : (d.modDrop k f).powu = d.powu := rfl
@[simp] theorem modDrop_therm (d : Dev) (k : Nat) (f : Drops → Drops) : (d.modDrop k f).therm = d.therm := rfl
@[simp] theorem modDrop_evt (d : Dev) (k : Nat) (f : Drops → Drops) : (d.modDrop k f).evt = d.evt := rfl
@[simp] theorem modDrop_mirror (d : Dev) (k : Nat) (f : Drops → Drops) : (d.modDrop k f).mirror = d.mirror := rfl
@[simp] theorem modDrop_mgmt (d : Dev) (k : Nat) (f : Drops → Drops) : (d.modDrop k f).mgmt = d.mgmt := rfl
@[simp] theorem modDrop_test (d : Dev) (k : Nat) (f : Drops → Drops) : (d.modDrop k f).test = d.test := rfl
@[simp] theorem modDrop_fab_selfDevice (d : Dev) (k : Nat) (f : Drops → Drops) : (d.modDrop k f).fab.selfDevice = d.fab.selfDevice := rfl
@[simp] theorem modDrop_fab_selfValid (d : Dev) (k : Nat) (f : Drops → Drops) : (d.modDrop k f).fab.selfValid = d.fab.selfValid := rfl
@[simp] theorem modDrop_fab_parts (d : Dev) (k : Nat) (f : Drops → Drops) : (d.modDrop k f).fab.parts = d.fab.parts := rfl
@[simp] theorem modDrop_fab_device (d : Dev) (k : Nat) (f : Drops → Drops) : (d.modDrop k f).fab.device = d.fab.device := rfl
@[simp] theorem modDrop_fab_locals (d : Dev) (k : Nat) (f : Drops → Drops) : (d.modDrop k f).fab.locals = d.fab.locals := rfl
@[simp] theorem modDrop_fab_reduce (d : Dev) (k : Nat) (f : Drops → Drops) : (d.modDrop k f).fab.reduce = d.fab.reduce := rfl
@[simp] theorem modDrop_fab_counts (d : Dev) (k : Nat) (f : Drops → Drops) : (d.modDrop k f).fab.counts = d.fab.counts := rfl
@[simp] theorem modDrop_fab_queue (d : Dev) (k : Nat) (f : Drops → Drops) : (d.modDrop k f).fab.queue = d.fab.queue := rfl
@[simp] theorem modDrop_fab_requests (d : Dev) (k : Nat) (f : Drops → Drops) : (d.modDrop k f).fab.requests = d.fab.requests := rfl
@[simp] theorem modDrop_fab_nextTag (d : Dev) (k : Nat) (f : Drops → Drops) : (d.modDrop k f).fab.nextTag = d.fab.nextTag := rfl
@[simp] theorem modDrop_fab_nodes (d : Dev) (k : Nat) (f : Drops → Drops) : (d.modDrop k f).fab.nodes = d.fab.nodes := rfl
@[simp] theorem modDrop_fab_closedTags (d : Dev) (k : Nat) (f : Drops → Drops) : (d.modDrop k f).fab.closedTags = d.fab.closedTags := rfl
@[simp] theorem modDrop_fab_change (d : Dev) (k : Nat) (f : Drops → Drops) : (d.modDrop k f).fab.change = d.fab.change := rfl
@[simp] theorem modDrop_fab_laps (d : Dev) (k : Nat) (f : Drops → Drops) : (d.modDrop k f).fab.laps = d.fab.laps := rfl
@[simp] theorem modDrop_fab_ringQueues (d : Dev) (k : Nat) (f : Drops → Drops) : (d.modDrop k f).fab.ringQueues = d.fab.ringQueues := rfl
@[simp] theorem modDrop_fab_ringMsgs (d : Dev) (k : Nat) (f : Drops → Drops) : (d.modDrop k f).fab.ringMsgs = d.fab.ringMsgs := rfl
@[simp] theorem modDrop_fab_lastVc (d : Dev) (k : Nat) (f : Drops → Drops) : (d.modDrop k f).fab.lastVc = d.fab.lastVc := rfl
@[simp] theorem modDrop_getSlab (d : Dev) (k j : Nat) (f : Drops → Drops) : (d.modDrop k f).getSlab j = d.getSlab j := rfl
@[simp] theorem modDrop_getSCtx (d : Dev) (k j : Nat) (f : Drops → Drops) : (d.modDrop k f).getSCtx j = d.getSCtx j := rfl
@[simp] theorem modDrop_getHalf (d : Dev) (k j : Nat) (f : Drops → Drops) : (d.modDrop k f).getHalf j = d.getHalf j := rfl
@[simp] theorem modDrop_getSeam (d : Dev) (k j : Nat) (f : Drops → Drops) : (d.modDrop k f).getSeam j = d.getSeam j := rfl
@[simp] theorem modDrop_getCluster (d : Dev) (k j : Nat) (f : Drops → Drops) : (d.modDrop k f).getCluster j = d.getCluster j := rfl
@[simp] theorem modDrop_getPebble (d : Dev) (k j : Nat) (f : Drops → Drops) : (d.modDrop k f).getPebble j = d.getPebble j := rfl
@[simp] theorem modDrop_getPCtx (d : Dev) (k j : Nat) (f : Drops → Drops) : (d.modDrop k f).getPCtx j = d.getPCtx j := rfl
@[simp] theorem modDrop_getLink (d : Dev) (k j : Nat) (f : Drops → Drops) : (d.modDrop k f).getLink j = d.getLink j := rfl
@[simp] theorem modDrop_getRing (d : Dev) (k j : Nat) (f : Drops → Drops) : (d.modDrop k f).getRing j = d.getRing j := rfl
@[simp] theorem modDrop_getPart (d : Dev) (k j : Nat) (f : Drops → Drops) : (d.modDrop k f).getPart j = d.getPart j := rfl
@[simp] theorem modDrop_getCairnTile (d : Dev) (k j : Nat) (f : Drops → Drops) : (d.modDrop k f).getCairnTile j = d.getCairnTile j := rfl
@[simp] theorem modDrop_getCMap (d : Dev) (k j : Nat) (f : Drops → Drops) : (d.modDrop k f).getCMap j = d.getCMap j := rfl
@[simp] theorem modDrop_getChan (d : Dev) (k j : Nat) (f : Drops → Drops) : (d.modDrop k f).getChan j = d.getChan j := rfl
@[simp] theorem modDrop_getTree (d : Dev) (k j : Nat) (f : Drops → Drops) : (d.modDrop k f).getTree j = d.getTree j := rfl
@[simp] theorem modDrop_getStack (d : Dev) (k j : Nat) (f : Drops → Drops) : (d.modDrop k f).getStack j = d.getStack j := rfl
@[simp] theorem modDrop_getRegion (d : Dev) (k j : Nat) (f : Drops → Drops) : (d.modDrop k f).getRegion j = d.getRegion j := rfl
@[simp] theorem modDrop_getScrub (d : Dev) (k j : Nat) (f : Drops → Drops) : (d.modDrop k f).getScrub j = d.getScrub j := rfl
@[simp] theorem modDrop_getAssay (d : Dev) (k j : Nat) (f : Drops → Drops) : (d.modDrop k f).getAssay j = d.getAssay j := rfl
@[simp] theorem modDrop_getTap (d : Dev) (k j : Nat) (f : Drops → Drops) : (d.modDrop k f).getTap j = d.getTap j := rfl
@[simp] theorem modDrop_getHalfPow (d : Dev) (k j : Nat) (f : Drops → Drops) : (d.modDrop k f).getHalfPow j = d.getHalfPow j := rfl
@[simp] theorem modDrop_getRail (d : Dev) (k j : Nat) (f : Drops → Drops) : (d.modDrop k f).getRail j = d.getRail j := rfl
@[simp] theorem modDrop_getGuar (d : Dev) (k j : Nat) (f : Drops → Drops) : (d.modDrop k f).getGuar j = d.getGuar j := rfl
@[simp] theorem modDrop_getBPort (d : Dev) (k j : Nat) (f : Drops → Drops) : (d.modDrop k f).getBPort j = d.getBPort j := rfl
@[simp] theorem modDrop_getPartFab (d : Dev) (k j : Nat) (f : Drops → Drops) : (d.modDrop k f).getPartFab j = d.getPartFab j := rfl
@[simp] theorem modDrop_getPortCnt (d : Dev) (k j : Nat) (f : Drops → Drops) : (d.modDrop k f).getPortCnt j = d.getPortCnt j := rfl
@[simp] theorem modDrop_getWindow (d : Dev) (k j : Nat) (f : Drops → Drops) : (d.modDrop k f).getWindow j = d.getWindow j := rfl

/-! `Dev.modPortCnt` changes `fab.counts` under one key. -/
@[simp] theorem modPortCnt_same (d : Dev) (k : Nat) (f : PortCount → PortCount) : (d.modPortCnt k f).getPortCnt k = f (d.getPortCnt k) := by simp [Dev.modPortCnt, Dev.getPortCnt]
theorem modPortCnt_ne (d : Dev) (f : PortCount → PortCount) {k j : Nat} (h : j ≠ k) : (d.modPortCnt k f).getPortCnt j = d.getPortCnt j := tabGet_tabSet_ne _ _ h _
@[simp] theorem modPortCnt_clock (d : Dev) (k : Nat) (f : PortCount → PortCount) : (d.modPortCnt k f).clock = d.clock := rfl
@[simp] theorem modPortCnt_pins (d : Dev) (k : Nat) (f : PortCount → PortCount) : (d.modPortCnt k f).pins = d.pins := rfl
@[simp] theorem modPortCnt_boot (d : Dev) (k : Nat) (f : PortCount → PortCount) : (d.modPortCnt k f).boot = d.boot := rfl
@[simp] theorem modPortCnt_fuses (d : Dev) (k : Nat) (f : PortCount → PortCount) : (d.modPortCnt k f).fuses = d.fuses := rfl
@[simp] theorem modPortCnt_flash (d : Dev) (k : Nat) (f : PortCount → PortCount) : (d.modPortCnt k f).flash = d.flash := rfl
@[simp] theorem modPortCnt_caps (d : Dev) (k : Nat) (f : PortCount → PortCount) : (d.modPortCnt k f).caps = d.caps := rfl
@[simp] theorem modPortCnt_beat (d : Dev) (k : Nat) (f : PortCount → PortCount) : (d.modPortCnt k f).beat = d.beat := rfl
@[simp] theorem modPortCnt_aux (d : Dev) (k : Nat) (f : PortCount → PortCount) : (d.modPortCnt k f).aux = d.aux := rfl
@[simp] theorem modPortCnt_dies (d : Dev) (k : Nat) (f : PortCount → PortCount) : (d.modPortCnt k f).dies = d.dies := rfl
@[simp] theorem modPortCnt_mesh (d : Dev) (k : Nat) (f : PortCount → PortCount) : (d.modPortCnt k f).mesh = d.mesh := rfl
@[simp] theorem modPortCnt_slab (d : Dev) (k : Nat) (f : PortCount → PortCount) : (d.modPortCnt k f).slab = d.slab := rfl
@[simp] theorem modPortCnt_peb (d : Dev) (k : Nat) (f : PortCount → PortCount) : (d.modPortCnt k f).peb = d.peb := rfl
@[simp] theorem modPortCnt_mem (d : Dev) (k : Nat) (f : PortCount → PortCount) : (d.modPortCnt k f).mem = d.mem := rfl
@[simp] theorem modPortCnt_cairn (d : Dev) (k : Nat) (f : PortCount → PortCount) : (d.modPortCnt k f).cairn = d.cairn := rfl
@[simp] theorem modPortCnt_barr (d : Dev) (k : Nat) (f : PortCount → PortCount) : (d.modPortCnt k f).barr = d.barr := rfl
@[simp] theorem modPortCnt_links (d : Dev) (k : Nat) (f : PortCount → PortCount) : (d.modPortCnt k f).links = d.links := rfl
@[simp] theorem modPortCnt_host (d : Dev) (k : Nat) (f : PortCount → PortCount) : (d.modPortCnt k f).host = d.host := rfl
@[simp] theorem modPortCnt_bed (d : Dev) (k : Nat) (f : PortCount → PortCount) : (d.modPortCnt k f).bed = d.bed := rfl
@[simp] theorem modPortCnt_idle (d : Dev) (k : Nat) (f : PortCount → PortCount) : (d.modPortCnt k f).idle = d.idle := rfl
@[simp] theorem modPortCnt_parts (d : Dev) (k : Nat) (f : PortCount → PortCount) : (d.modPortCnt k f).parts = d.parts := rfl
@[simp] theorem modPortCnt_sec (d : Dev) (k : Nat) (f : PortCount → PortCount) : (d.modPortCnt k f).sec = d.sec := rfl
@[simp] theorem modPortCnt_pow (d : Dev) (k : Nat) (f : PortCount → PortCount) : (d.modPortCnt k f).pow = d.pow := rfl
@[simp] theorem modPortCnt_powu (d : Dev) (k : Nat) (f : PortCount → PortCount) : (d.modPortCnt k f).powu = d.powu := rfl
@[simp] theorem modPortCnt_therm (d : Dev) (k : Nat) (f : PortCount → PortCount) : (d.modPortCnt k f).therm = d.therm := rfl
@[simp] theorem modPortCnt_evt (d : Dev) (k : Nat) (f : PortCount → PortCount) : (d.modPortCnt k f).evt = d.evt := rfl
@[simp] theorem modPortCnt_mirror (d : Dev) (k : Nat) (f : PortCount → PortCount) : (d.modPortCnt k f).mirror = d.mirror := rfl
@[simp] theorem modPortCnt_mgmt (d : Dev) (k : Nat) (f : PortCount → PortCount) : (d.modPortCnt k f).mgmt = d.mgmt := rfl
@[simp] theorem modPortCnt_test (d : Dev) (k : Nat) (f : PortCount → PortCount) : (d.modPortCnt k f).test = d.test := rfl
@[simp] theorem modPortCnt_fab_selfDevice (d : Dev) (k : Nat) (f : PortCount → PortCount) : (d.modPortCnt k f).fab.selfDevice = d.fab.selfDevice := rfl
@[simp] theorem modPortCnt_fab_selfValid (d : Dev) (k : Nat) (f : PortCount → PortCount) : (d.modPortCnt k f).fab.selfValid = d.fab.selfValid := rfl
@[simp] theorem modPortCnt_fab_parts (d : Dev) (k : Nat) (f : PortCount → PortCount) : (d.modPortCnt k f).fab.parts = d.fab.parts := rfl
@[simp] theorem modPortCnt_fab_device (d : Dev) (k : Nat) (f : PortCount → PortCount) : (d.modPortCnt k f).fab.device = d.fab.device := rfl
@[simp] theorem modPortCnt_fab_locals (d : Dev) (k : Nat) (f : PortCount → PortCount) : (d.modPortCnt k f).fab.locals = d.fab.locals := rfl
@[simp] theorem modPortCnt_fab_reduce (d : Dev) (k : Nat) (f : PortCount → PortCount) : (d.modPortCnt k f).fab.reduce = d.fab.reduce := rfl
@[simp] theorem modPortCnt_fab_drops (d : Dev) (k : Nat) (f : PortCount → PortCount) : (d.modPortCnt k f).fab.drops = d.fab.drops := rfl
@[simp] theorem modPortCnt_fab_queue (d : Dev) (k : Nat) (f : PortCount → PortCount) : (d.modPortCnt k f).fab.queue = d.fab.queue := rfl
@[simp] theorem modPortCnt_fab_requests (d : Dev) (k : Nat) (f : PortCount → PortCount) : (d.modPortCnt k f).fab.requests = d.fab.requests := rfl
@[simp] theorem modPortCnt_fab_nextTag (d : Dev) (k : Nat) (f : PortCount → PortCount) : (d.modPortCnt k f).fab.nextTag = d.fab.nextTag := rfl
@[simp] theorem modPortCnt_fab_nodes (d : Dev) (k : Nat) (f : PortCount → PortCount) : (d.modPortCnt k f).fab.nodes = d.fab.nodes := rfl
@[simp] theorem modPortCnt_fab_closedTags (d : Dev) (k : Nat) (f : PortCount → PortCount) : (d.modPortCnt k f).fab.closedTags = d.fab.closedTags := rfl
@[simp] theorem modPortCnt_fab_change (d : Dev) (k : Nat) (f : PortCount → PortCount) : (d.modPortCnt k f).fab.change = d.fab.change := rfl
@[simp] theorem modPortCnt_fab_laps (d : Dev) (k : Nat) (f : PortCount → PortCount) : (d.modPortCnt k f).fab.laps = d.fab.laps := rfl
@[simp] theorem modPortCnt_fab_ringQueues (d : Dev) (k : Nat) (f : PortCount → PortCount) : (d.modPortCnt k f).fab.ringQueues = d.fab.ringQueues := rfl
@[simp] theorem modPortCnt_fab_ringMsgs (d : Dev) (k : Nat) (f : PortCount → PortCount) : (d.modPortCnt k f).fab.ringMsgs = d.fab.ringMsgs := rfl
@[simp] theorem modPortCnt_fab_lastVc (d : Dev) (k : Nat) (f : PortCount → PortCount) : (d.modPortCnt k f).fab.lastVc = d.fab.lastVc := rfl
@[simp] theorem modPortCnt_getSlab (d : Dev) (k j : Nat) (f : PortCount → PortCount) : (d.modPortCnt k f).getSlab j = d.getSlab j := rfl
@[simp] theorem modPortCnt_getSCtx (d : Dev) (k j : Nat) (f : PortCount → PortCount) : (d.modPortCnt k f).getSCtx j = d.getSCtx j := rfl
@[simp] theorem modPortCnt_getHalf (d : Dev) (k j : Nat) (f : PortCount → PortCount) : (d.modPortCnt k f).getHalf j = d.getHalf j := rfl
@[simp] theorem modPortCnt_getSeam (d : Dev) (k j : Nat) (f : PortCount → PortCount) : (d.modPortCnt k f).getSeam j = d.getSeam j := rfl
@[simp] theorem modPortCnt_getCluster (d : Dev) (k j : Nat) (f : PortCount → PortCount) : (d.modPortCnt k f).getCluster j = d.getCluster j := rfl
@[simp] theorem modPortCnt_getPebble (d : Dev) (k j : Nat) (f : PortCount → PortCount) : (d.modPortCnt k f).getPebble j = d.getPebble j := rfl
@[simp] theorem modPortCnt_getPCtx (d : Dev) (k j : Nat) (f : PortCount → PortCount) : (d.modPortCnt k f).getPCtx j = d.getPCtx j := rfl
@[simp] theorem modPortCnt_getLink (d : Dev) (k j : Nat) (f : PortCount → PortCount) : (d.modPortCnt k f).getLink j = d.getLink j := rfl
@[simp] theorem modPortCnt_getRing (d : Dev) (k j : Nat) (f : PortCount → PortCount) : (d.modPortCnt k f).getRing j = d.getRing j := rfl
@[simp] theorem modPortCnt_getPart (d : Dev) (k j : Nat) (f : PortCount → PortCount) : (d.modPortCnt k f).getPart j = d.getPart j := rfl
@[simp] theorem modPortCnt_getCairnTile (d : Dev) (k j : Nat) (f : PortCount → PortCount) : (d.modPortCnt k f).getCairnTile j = d.getCairnTile j := rfl
@[simp] theorem modPortCnt_getCMap (d : Dev) (k j : Nat) (f : PortCount → PortCount) : (d.modPortCnt k f).getCMap j = d.getCMap j := rfl
@[simp] theorem modPortCnt_getChan (d : Dev) (k j : Nat) (f : PortCount → PortCount) : (d.modPortCnt k f).getChan j = d.getChan j := rfl
@[simp] theorem modPortCnt_getTree (d : Dev) (k j : Nat) (f : PortCount → PortCount) : (d.modPortCnt k f).getTree j = d.getTree j := rfl
@[simp] theorem modPortCnt_getStack (d : Dev) (k j : Nat) (f : PortCount → PortCount) : (d.modPortCnt k f).getStack j = d.getStack j := rfl
@[simp] theorem modPortCnt_getRegion (d : Dev) (k j : Nat) (f : PortCount → PortCount) : (d.modPortCnt k f).getRegion j = d.getRegion j := rfl
@[simp] theorem modPortCnt_getScrub (d : Dev) (k j : Nat) (f : PortCount → PortCount) : (d.modPortCnt k f).getScrub j = d.getScrub j := rfl
@[simp] theorem modPortCnt_getAssay (d : Dev) (k j : Nat) (f : PortCount → PortCount) : (d.modPortCnt k f).getAssay j = d.getAssay j := rfl
@[simp] theorem modPortCnt_getTap (d : Dev) (k j : Nat) (f : PortCount → PortCount) : (d.modPortCnt k f).getTap j = d.getTap j := rfl
@[simp] theorem modPortCnt_getHalfPow (d : Dev) (k j : Nat) (f : PortCount → PortCount) : (d.modPortCnt k f).getHalfPow j = d.getHalfPow j := rfl
@[simp] theorem modPortCnt_getRail (d : Dev) (k j : Nat) (f : PortCount → PortCount) : (d.modPortCnt k f).getRail j = d.getRail j := rfl
@[simp] theorem modPortCnt_getGuar (d : Dev) (k j : Nat) (f : PortCount → PortCount) : (d.modPortCnt k f).getGuar j = d.getGuar j := rfl
@[simp] theorem modPortCnt_getBPort (d : Dev) (k j : Nat) (f : PortCount → PortCount) : (d.modPortCnt k f).getBPort j = d.getBPort j := rfl
@[simp] theorem modPortCnt_getPartFab (d : Dev) (k j : Nat) (f : PortCount → PortCount) : (d.modPortCnt k f).getPartFab j = d.getPartFab j := rfl
@[simp] theorem modPortCnt_getDrop (d : Dev) (k j : Nat) (f : PortCount → PortCount) : (d.modPortCnt k f).getDrop j = d.getDrop j := rfl
@[simp] theorem modPortCnt_getWindow (d : Dev) (k j : Nat) (f : PortCount → PortCount) : (d.modPortCnt k f).getWindow j = d.getWindow j := rfl

/-! `Dev.modWindow` changes `host.windows` under one key. -/
@[simp] theorem modWindow_same (d : Dev) (k : Nat) (f : Window → Window) : (d.modWindow k f).getWindow k = f (d.getWindow k) := by simp [Dev.modWindow, Dev.getWindow]
theorem modWindow_ne (d : Dev) (f : Window → Window) {k j : Nat} (h : j ≠ k) : (d.modWindow k f).getWindow j = d.getWindow j := tabGet_tabSet_ne _ _ h _
@[simp] theorem modWindow_clock (d : Dev) (k : Nat) (f : Window → Window) : (d.modWindow k f).clock = d.clock := rfl
@[simp] theorem modWindow_pins (d : Dev) (k : Nat) (f : Window → Window) : (d.modWindow k f).pins = d.pins := rfl
@[simp] theorem modWindow_boot (d : Dev) (k : Nat) (f : Window → Window) : (d.modWindow k f).boot = d.boot := rfl
@[simp] theorem modWindow_fuses (d : Dev) (k : Nat) (f : Window → Window) : (d.modWindow k f).fuses = d.fuses := rfl
@[simp] theorem modWindow_flash (d : Dev) (k : Nat) (f : Window → Window) : (d.modWindow k f).flash = d.flash := rfl
@[simp] theorem modWindow_caps (d : Dev) (k : Nat) (f : Window → Window) : (d.modWindow k f).caps = d.caps := rfl
@[simp] theorem modWindow_beat (d : Dev) (k : Nat) (f : Window → Window) : (d.modWindow k f).beat = d.beat := rfl
@[simp] theorem modWindow_aux (d : Dev) (k : Nat) (f : Window → Window) : (d.modWindow k f).aux = d.aux := rfl
@[simp] theorem modWindow_dies (d : Dev) (k : Nat) (f : Window → Window) : (d.modWindow k f).dies = d.dies := rfl
@[simp] theorem modWindow_mesh (d : Dev) (k : Nat) (f : Window → Window) : (d.modWindow k f).mesh = d.mesh := rfl
@[simp] theorem modWindow_slab (d : Dev) (k : Nat) (f : Window → Window) : (d.modWindow k f).slab = d.slab := rfl
@[simp] theorem modWindow_peb (d : Dev) (k : Nat) (f : Window → Window) : (d.modWindow k f).peb = d.peb := rfl
@[simp] theorem modWindow_mem (d : Dev) (k : Nat) (f : Window → Window) : (d.modWindow k f).mem = d.mem := rfl
@[simp] theorem modWindow_cairn (d : Dev) (k : Nat) (f : Window → Window) : (d.modWindow k f).cairn = d.cairn := rfl
@[simp] theorem modWindow_barr (d : Dev) (k : Nat) (f : Window → Window) : (d.modWindow k f).barr = d.barr := rfl
@[simp] theorem modWindow_fab (d : Dev) (k : Nat) (f : Window → Window) : (d.modWindow k f).fab = d.fab := rfl
@[simp] theorem modWindow_links (d : Dev) (k : Nat) (f : Window → Window) : (d.modWindow k f).links = d.links := rfl
@[simp] theorem modWindow_bed (d : Dev) (k : Nat) (f : Window → Window) : (d.modWindow k f).bed = d.bed := rfl
@[simp] theorem modWindow_idle (d : Dev) (k : Nat) (f : Window → Window) : (d.modWindow k f).idle = d.idle := rfl
@[simp] theorem modWindow_parts (d : Dev) (k : Nat) (f : Window → Window) : (d.modWindow k f).parts = d.parts := rfl
@[simp] theorem modWindow_sec (d : Dev) (k : Nat) (f : Window → Window) : (d.modWindow k f).sec = d.sec := rfl
@[simp] theorem modWindow_pow (d : Dev) (k : Nat) (f : Window → Window) : (d.modWindow k f).pow = d.pow := rfl
@[simp] theorem modWindow_powu (d : Dev) (k : Nat) (f : Window → Window) : (d.modWindow k f).powu = d.powu := rfl
@[simp] theorem modWindow_therm (d : Dev) (k : Nat) (f : Window → Window) : (d.modWindow k f).therm = d.therm := rfl
@[simp] theorem modWindow_evt (d : Dev) (k : Nat) (f : Window → Window) : (d.modWindow k f).evt = d.evt := rfl
@[simp] theorem modWindow_mirror (d : Dev) (k : Nat) (f : Window → Window) : (d.modWindow k f).mirror = d.mirror := rfl
@[simp] theorem modWindow_mgmt (d : Dev) (k : Nat) (f : Window → Window) : (d.modWindow k f).mgmt = d.mgmt := rfl
@[simp] theorem modWindow_test (d : Dev) (k : Nat) (f : Window → Window) : (d.modWindow k f).test = d.test := rfl
@[simp] theorem modWindow_host_rings (d : Dev) (k : Nat) (f : Window → Window) : (d.modWindow k f).host.rings = d.host.rings := rfl
@[simp] theorem modWindow_host_evt (d : Dev) (k : Nat) (f : Window → Window) : (d.modWindow k f).host.evt = d.host.evt := rfl
@[simp] theorem modWindow_host_waiting (d : Dev) (k : Nat) (f : Window → Window) : (d.modWindow k f).host.waiting = d.host.waiting := rfl
@[simp] theorem modWindow_host_parked (d : Dev) (k : Nat) (f : Window → Window) : (d.modWindow k f).host.parked = d.host.parked := rfl
@[simp] theorem modWindow_host_scratch (d : Dev) (k : Nat) (f : Window → Window) : (d.modWindow k f).host.scratch = d.host.scratch := rfl
@[simp] theorem modWindow_getSlab (d : Dev) (k j : Nat) (f : Window → Window) : (d.modWindow k f).getSlab j = d.getSlab j := rfl
@[simp] theorem modWindow_getSCtx (d : Dev) (k j : Nat) (f : Window → Window) : (d.modWindow k f).getSCtx j = d.getSCtx j := rfl
@[simp] theorem modWindow_getHalf (d : Dev) (k j : Nat) (f : Window → Window) : (d.modWindow k f).getHalf j = d.getHalf j := rfl
@[simp] theorem modWindow_getSeam (d : Dev) (k j : Nat) (f : Window → Window) : (d.modWindow k f).getSeam j = d.getSeam j := rfl
@[simp] theorem modWindow_getCluster (d : Dev) (k j : Nat) (f : Window → Window) : (d.modWindow k f).getCluster j = d.getCluster j := rfl
@[simp] theorem modWindow_getPebble (d : Dev) (k j : Nat) (f : Window → Window) : (d.modWindow k f).getPebble j = d.getPebble j := rfl
@[simp] theorem modWindow_getPCtx (d : Dev) (k j : Nat) (f : Window → Window) : (d.modWindow k f).getPCtx j = d.getPCtx j := rfl
@[simp] theorem modWindow_getLink (d : Dev) (k j : Nat) (f : Window → Window) : (d.modWindow k f).getLink j = d.getLink j := rfl
@[simp] theorem modWindow_getRing (d : Dev) (k j : Nat) (f : Window → Window) : (d.modWindow k f).getRing j = d.getRing j := rfl
@[simp] theorem modWindow_getPart (d : Dev) (k j : Nat) (f : Window → Window) : (d.modWindow k f).getPart j = d.getPart j := rfl
@[simp] theorem modWindow_getCairnTile (d : Dev) (k j : Nat) (f : Window → Window) : (d.modWindow k f).getCairnTile j = d.getCairnTile j := rfl
@[simp] theorem modWindow_getCMap (d : Dev) (k j : Nat) (f : Window → Window) : (d.modWindow k f).getCMap j = d.getCMap j := rfl
@[simp] theorem modWindow_getChan (d : Dev) (k j : Nat) (f : Window → Window) : (d.modWindow k f).getChan j = d.getChan j := rfl
@[simp] theorem modWindow_getTree (d : Dev) (k j : Nat) (f : Window → Window) : (d.modWindow k f).getTree j = d.getTree j := rfl
@[simp] theorem modWindow_getStack (d : Dev) (k j : Nat) (f : Window → Window) : (d.modWindow k f).getStack j = d.getStack j := rfl
@[simp] theorem modWindow_getRegion (d : Dev) (k j : Nat) (f : Window → Window) : (d.modWindow k f).getRegion j = d.getRegion j := rfl
@[simp] theorem modWindow_getScrub (d : Dev) (k j : Nat) (f : Window → Window) : (d.modWindow k f).getScrub j = d.getScrub j := rfl
@[simp] theorem modWindow_getAssay (d : Dev) (k j : Nat) (f : Window → Window) : (d.modWindow k f).getAssay j = d.getAssay j := rfl
@[simp] theorem modWindow_getTap (d : Dev) (k j : Nat) (f : Window → Window) : (d.modWindow k f).getTap j = d.getTap j := rfl
@[simp] theorem modWindow_getHalfPow (d : Dev) (k j : Nat) (f : Window → Window) : (d.modWindow k f).getHalfPow j = d.getHalfPow j := rfl
@[simp] theorem modWindow_getRail (d : Dev) (k j : Nat) (f : Window → Window) : (d.modWindow k f).getRail j = d.getRail j := rfl
@[simp] theorem modWindow_getGuar (d : Dev) (k j : Nat) (f : Window → Window) : (d.modWindow k f).getGuar j = d.getGuar j := rfl
@[simp] theorem modWindow_getBPort (d : Dev) (k j : Nat) (f : Window → Window) : (d.modWindow k f).getBPort j = d.getBPort j := rfl
@[simp] theorem modWindow_getPartFab (d : Dev) (k j : Nat) (f : Window → Window) : (d.modWindow k f).getPartFab j = d.getPartFab j := rfl
@[simp] theorem modWindow_getDrop (d : Dev) (k j : Nat) (f : Window → Window) : (d.modWindow k f).getDrop j = d.getDrop j := rfl
@[simp] theorem modWindow_getPortCnt (d : Dev) (k j : Nat) (f : Window → Window) : (d.modWindow k f).getPortCnt j = d.getPortCnt j := rfl

/-! `settle` changes the high-water mark only; `fresh` and `emit` the outputs only; `enter` the phase and its start. -/
@[simp] theorem settle_clock (d : Dev) : (settle d).clock = d.clock := rfl
@[simp] theorem settle_pins (d : Dev) : (settle d).pins = d.pins := rfl
@[simp] theorem settle_boot (d : Dev) : (settle d).boot = d.boot := rfl
@[simp] theorem settle_fuses (d : Dev) : (settle d).fuses = d.fuses := rfl
@[simp] theorem settle_flash (d : Dev) : (settle d).flash = d.flash := rfl
@[simp] theorem settle_caps (d : Dev) : (settle d).caps = d.caps := rfl
@[simp] theorem settle_aux (d : Dev) : (settle d).aux = d.aux := rfl
@[simp] theorem settle_dies (d : Dev) : (settle d).dies = d.dies := rfl
@[simp] theorem settle_mesh (d : Dev) : (settle d).mesh = d.mesh := rfl
@[simp] theorem settle_slab (d : Dev) : (settle d).slab = d.slab := rfl
@[simp] theorem settle_peb (d : Dev) : (settle d).peb = d.peb := rfl
@[simp] theorem settle_mem (d : Dev) : (settle d).mem = d.mem := rfl
@[simp] theorem settle_cairn (d : Dev) : (settle d).cairn = d.cairn := rfl
@[simp] theorem settle_barr (d : Dev) : (settle d).barr = d.barr := rfl
@[simp] theorem settle_fab (d : Dev) : (settle d).fab = d.fab := rfl
@[simp] theorem settle_links (d : Dev) : (settle d).links = d.links := rfl
@[simp] theorem settle_host (d : Dev) : (settle d).host = d.host := rfl
@[simp] theorem settle_bed (d : Dev) : (settle d).bed = d.bed := rfl
@[simp] theorem settle_idle (d : Dev) : (settle d).idle = d.idle := rfl
@[simp] theorem settle_parts (d : Dev) : (settle d).parts = d.parts := rfl
@[simp] theorem settle_sec (d : Dev) : (settle d).sec = d.sec := rfl
@[simp] theorem settle_pow (d : Dev) : (settle d).pow = d.pow := rfl
@[simp] theorem settle_powu (d : Dev) : (settle d).powu = d.powu := rfl
@[simp] theorem settle_therm (d : Dev) : (settle d).therm = d.therm := rfl
@[simp] theorem settle_evt (d : Dev) : (settle d).evt = d.evt := rfl
@[simp] theorem settle_mirror (d : Dev) : (settle d).mirror = d.mirror := rfl
@[simp] theorem settle_mgmt (d : Dev) : (settle d).mgmt = d.mgmt := rfl
@[simp] theorem settle_test (d : Dev) : (settle d).test = d.test := rfl
@[simp] theorem settle_beat_role (d : Dev) : (settle d).beat.role = d.beat.role := rfl
@[simp] theorem settle_beat_source (d : Dev) : (settle d).beat.source = d.beat.source := rfl
@[simp] theorem settle_beat_holdCap (d : Dev) : (settle d).beat.holdCap = d.beat.holdCap := rfl
@[simp] theorem settle_beat_domain (d : Dev) : (settle d).beat.domain = d.beat.domain := rfl
@[simp] theorem settle_beat_maskVein (d : Dev) : (settle d).beat.maskVein = d.beat.maskVein := rfl
@[simp] theorem settle_beat_maskD2d (d : Dev) : (settle d).beat.maskD2d = d.beat.maskD2d := rfl
@[simp] theorem settle_beat_state (d : Dev) : (settle d).beat.state = d.beat.state := rfl
@[simp] theorem settle_beat_hop (d : Dev) : (settle d).beat.hop = d.beat.hop := rfl
@[simp] theorem settle_beat_parentPort (d : Dev) : (settle d).beat.parentPort = d.beat.parentPort := rfl
@[simp] theorem settle_beat_parentD2d (d : Dev) : (settle d).beat.parentD2d = d.beat.parentD2d := rfl
@[simp] theorem settle_beat_beatInOk (d : Dev) : (settle d).beat.beatInOk = d.beat.beatInOk := rfl
@[simp] theorem settle_beat_lossCause (d : Dev) : (settle d).beat.lossCause = d.beat.lossCause := rfl
@[simp] theorem settle_beat_lossSeen (d : Dev) : (settle d).beat.lossSeen = d.beat.lossSeen := rfl
@[simp] theorem settle_beat_master (d : Dev) : (settle d).beat.master = d.beat.master := rfl
@[simp] theorem settle_beat_number (d : Dev) : (settle d).beat.number = d.beat.number := rfl
@[simp] theorem settle_beat_holdCount (d : Dev) : (settle d).beat.holdCount = d.beat.holdCount := rfl
@[simp] theorem settle_beat_latency (d : Dev) : (settle d).beat.latency = d.beat.latency := rfl
@[simp] theorem settle_beat_configGen (d : Dev) : (settle d).beat.configGen = d.beat.configGen := rfl
@[simp] theorem settle_beat_extSource (d : Dev) : (settle d).beat.extSource = d.beat.extSource := rfl
@[simp] theorem settle_beat_fwdHoldCap (d : Dev) : (settle d).beat.fwdHoldCap = d.beat.fwdHoldCap := rfl
@[simp] theorem settle_beat_ports (d : Dev) : (settle d).beat.ports = d.beat.ports := rfl
@[simp] theorem settle_beat_heldBeats (d : Dev) : (settle d).beat.heldBeats = d.beat.heldBeats := rfl
@[simp] theorem settle_beat_annFrom (d : Dev) : (settle d).beat.annFrom = d.beat.annFrom := rfl
@[simp] theorem settle_beat_annTo (d : Dev) : (settle d).beat.annTo = d.beat.annTo := rfl
@[simp] theorem settle_beat_requests (d : Dev) : (settle d).beat.requests = d.beat.requests := rfl
@[simp] theorem fresh_pins (d : Dev) : (d.fresh).pins = d.pins := rfl
@[simp] theorem fresh_boot (d : Dev) : (d.fresh).boot = d.boot := rfl
@[simp] theorem fresh_fuses (d : Dev) : (d.fresh).fuses = d.fuses := rfl
@[simp] theorem fresh_flash (d : Dev) : (d.fresh).flash = d.flash := rfl
@[simp] theorem fresh_caps (d : Dev) : (d.fresh).caps = d.caps := rfl
@[simp] theorem fresh_beat (d : Dev) : (d.fresh).beat = d.beat := rfl
@[simp] theorem fresh_aux (d : Dev) : (d.fresh).aux = d.aux := rfl
@[simp] theorem fresh_dies (d : Dev) : (d.fresh).dies = d.dies := rfl
@[simp] theorem fresh_mesh (d : Dev) : (d.fresh).mesh = d.mesh := rfl
@[simp] theorem fresh_slab (d : Dev) : (d.fresh).slab = d.slab := rfl
@[simp] theorem fresh_peb (d : Dev) : (d.fresh).peb = d.peb := rfl
@[simp] theorem fresh_mem (d : Dev) : (d.fresh).mem = d.mem := rfl
@[simp] theorem fresh_cairn (d : Dev) : (d.fresh).cairn = d.cairn := rfl
@[simp] theorem fresh_barr (d : Dev) : (d.fresh).barr = d.barr := rfl
@[simp] theorem fresh_fab (d : Dev) : (d.fresh).fab = d.fab := rfl
@[simp] theorem fresh_links (d : Dev) : (d.fresh).links = d.links := rfl
@[simp] theorem fresh_host (d : Dev) : (d.fresh).host = d.host := rfl
@[simp] theorem fresh_bed (d : Dev) : (d.fresh).bed = d.bed := rfl
@[simp] theorem fresh_idle (d : Dev) : (d.fresh).idle = d.idle := rfl
@[simp] theorem fresh_parts (d : Dev) : (d.fresh).parts = d.parts := rfl
@[simp] theorem fresh_sec (d : Dev) : (d.fresh).sec = d.sec := rfl
@[simp] theorem fresh_pow (d : Dev) : (d.fresh).pow = d.pow := rfl
@[simp] theorem fresh_powu (d : Dev) : (d.fresh).powu = d.powu := rfl
@[simp] theorem fresh_therm (d : Dev) : (d.fresh).therm = d.therm := rfl
@[simp] theorem fresh_evt (d : Dev) : (d.fresh).evt = d.evt := rfl
@[simp] theorem fresh_mirror (d : Dev) : (d.fresh).mirror = d.mirror := rfl
@[simp] theorem fresh_mgmt (d : Dev) : (d.fresh).mgmt = d.mgmt := rfl
@[simp] theorem fresh_test (d : Dev) : (d.fresh).test = d.test := rfl
@[simp] theorem fresh_clock_wall (d : Dev) : (d.fresh).clock.wall = d.clock.wall := rfl
@[simp] theorem fresh_clock_freeCtr (d : Dev) : (d.fresh).clock.freeCtr = d.clock.freeCtr := rfl
@[simp] theorem emit_pins (d : Dev) (o : Out) : (d.emit o).pins = d.pins := rfl
@[simp] theorem emit_boot (d : Dev) (o : Out) : (d.emit o).boot = d.boot := rfl
@[simp] theorem emit_fuses (d : Dev) (o : Out) : (d.emit o).fuses = d.fuses := rfl
@[simp] theorem emit_flash (d : Dev) (o : Out) : (d.emit o).flash = d.flash := rfl
@[simp] theorem emit_caps (d : Dev) (o : Out) : (d.emit o).caps = d.caps := rfl
@[simp] theorem emit_beat (d : Dev) (o : Out) : (d.emit o).beat = d.beat := rfl
@[simp] theorem emit_aux (d : Dev) (o : Out) : (d.emit o).aux = d.aux := rfl
@[simp] theorem emit_dies (d : Dev) (o : Out) : (d.emit o).dies = d.dies := rfl
@[simp] theorem emit_mesh (d : Dev) (o : Out) : (d.emit o).mesh = d.mesh := rfl
@[simp] theorem emit_slab (d : Dev) (o : Out) : (d.emit o).slab = d.slab := rfl
@[simp] theorem emit_peb (d : Dev) (o : Out) : (d.emit o).peb = d.peb := rfl
@[simp] theorem emit_mem (d : Dev) (o : Out) : (d.emit o).mem = d.mem := rfl
@[simp] theorem emit_cairn (d : Dev) (o : Out) : (d.emit o).cairn = d.cairn := rfl
@[simp] theorem emit_barr (d : Dev) (o : Out) : (d.emit o).barr = d.barr := rfl
@[simp] theorem emit_fab (d : Dev) (o : Out) : (d.emit o).fab = d.fab := rfl
@[simp] theorem emit_links (d : Dev) (o : Out) : (d.emit o).links = d.links := rfl
@[simp] theorem emit_host (d : Dev) (o : Out) : (d.emit o).host = d.host := rfl
@[simp] theorem emit_bed (d : Dev) (o : Out) : (d.emit o).bed = d.bed := rfl
@[simp] theorem emit_idle (d : Dev) (o : Out) : (d.emit o).idle = d.idle := rfl
@[simp] theorem emit_parts (d : Dev) (o : Out) : (d.emit o).parts = d.parts := rfl
@[simp] theorem emit_sec (d : Dev) (o : Out) : (d.emit o).sec = d.sec := rfl
@[simp] theorem emit_pow (d : Dev) (o : Out) : (d.emit o).pow = d.pow := rfl
@[simp] theorem emit_powu (d : Dev) (o : Out) : (d.emit o).powu = d.powu := rfl
@[simp] theorem emit_therm (d : Dev) (o : Out) : (d.emit o).therm = d.therm := rfl
@[simp] theorem emit_evt (d : Dev) (o : Out) : (d.emit o).evt = d.evt := rfl
@[simp] theorem emit_mirror (d : Dev) (o : Out) : (d.emit o).mirror = d.mirror := rfl
@[simp] theorem emit_mgmt (d : Dev) (o : Out) : (d.emit o).mgmt = d.mgmt := rfl
@[simp] theorem emit_test (d : Dev) (o : Out) : (d.emit o).test = d.test := rfl
@[simp] theorem emit_clock_wall (d : Dev) (o : Out) : (d.emit o).clock.wall = d.clock.wall := rfl
@[simp] theorem emit_clock_freeCtr (d : Dev) (o : Out) : (d.emit o).clock.freeCtr = d.clock.freeCtr := rfl
@[simp] theorem settle_highWater (d : Dev) : (settle d).beat.highWater = max d.beat.highWater d.beat.number := rfl
@[simp] theorem fresh_out (d : Dev) : d.fresh.clock.out = [] := rfl
@[simp] theorem emit_out (d : Dev) (o : Out) : (d.emit o).clock.out = d.clock.out ++ [o] := rfl

@[simp] theorem settle_getSlab (d : Dev) (k : Nat) : (settle d).getSlab k = d.getSlab k := rfl
@[simp] theorem fresh_getSlab (d : Dev) (k : Nat) : d.fresh.getSlab k = d.getSlab k := rfl
@[simp] theorem emit_getSlab (d : Dev) (o : Out) (k : Nat) : (d.emit o).getSlab k = d.getSlab k := rfl
@[simp] theorem settle_getSCtx (d : Dev) (k : Nat) : (settle d).getSCtx k = d.getSCtx k := rfl
@[simp] theorem fresh_getSCtx (d : Dev) (k : Nat) : d.fresh.getSCtx k = d.getSCtx k := rfl
@[simp] theorem emit_getSCtx (d : Dev) (o : Out) (k : Nat) : (d.emit o).getSCtx k = d.getSCtx k := rfl
@[simp] theorem settle_getHalf (d : Dev) (k : Nat) : (settle d).getHalf k = d.getHalf k := rfl
@[simp] theorem fresh_getHalf (d : Dev) (k : Nat) : d.fresh.getHalf k = d.getHalf k := rfl
@[simp] theorem emit_getHalf (d : Dev) (o : Out) (k : Nat) : (d.emit o).getHalf k = d.getHalf k := rfl
@[simp] theorem settle_getSeam (d : Dev) (k : Nat) : (settle d).getSeam k = d.getSeam k := rfl
@[simp] theorem fresh_getSeam (d : Dev) (k : Nat) : d.fresh.getSeam k = d.getSeam k := rfl
@[simp] theorem emit_getSeam (d : Dev) (o : Out) (k : Nat) : (d.emit o).getSeam k = d.getSeam k := rfl
@[simp] theorem settle_getCluster (d : Dev) (k : Nat) : (settle d).getCluster k = d.getCluster k := rfl
@[simp] theorem fresh_getCluster (d : Dev) (k : Nat) : d.fresh.getCluster k = d.getCluster k := rfl
@[simp] theorem emit_getCluster (d : Dev) (o : Out) (k : Nat) : (d.emit o).getCluster k = d.getCluster k := rfl
@[simp] theorem settle_getPebble (d : Dev) (k : Nat) : (settle d).getPebble k = d.getPebble k := rfl
@[simp] theorem fresh_getPebble (d : Dev) (k : Nat) : d.fresh.getPebble k = d.getPebble k := rfl
@[simp] theorem emit_getPebble (d : Dev) (o : Out) (k : Nat) : (d.emit o).getPebble k = d.getPebble k := rfl
@[simp] theorem settle_getPCtx (d : Dev) (k : Nat) : (settle d).getPCtx k = d.getPCtx k := rfl
@[simp] theorem fresh_getPCtx (d : Dev) (k : Nat) : d.fresh.getPCtx k = d.getPCtx k := rfl
@[simp] theorem emit_getPCtx (d : Dev) (o : Out) (k : Nat) : (d.emit o).getPCtx k = d.getPCtx k := rfl
@[simp] theorem settle_getLink (d : Dev) (k : Nat) : (settle d).getLink k = d.getLink k := rfl
@[simp] theorem fresh_getLink (d : Dev) (k : Nat) : d.fresh.getLink k = d.getLink k := rfl
@[simp] theorem emit_getLink (d : Dev) (o : Out) (k : Nat) : (d.emit o).getLink k = d.getLink k := rfl
@[simp] theorem settle_getRing (d : Dev) (k : Nat) : (settle d).getRing k = d.getRing k := rfl
@[simp] theorem fresh_getRing (d : Dev) (k : Nat) : d.fresh.getRing k = d.getRing k := rfl
@[simp] theorem emit_getRing (d : Dev) (o : Out) (k : Nat) : (d.emit o).getRing k = d.getRing k := rfl
@[simp] theorem settle_getPart (d : Dev) (k : Nat) : (settle d).getPart k = d.getPart k := rfl
@[simp] theorem fresh_getPart (d : Dev) (k : Nat) : d.fresh.getPart k = d.getPart k := rfl
@[simp] theorem emit_getPart (d : Dev) (o : Out) (k : Nat) : (d.emit o).getPart k = d.getPart k := rfl
@[simp] theorem settle_getCairnTile (d : Dev) (k : Nat) : (settle d).getCairnTile k = d.getCairnTile k := rfl
@[simp] theorem fresh_getCairnTile (d : Dev) (k : Nat) : d.fresh.getCairnTile k = d.getCairnTile k := rfl
@[simp] theorem emit_getCairnTile (d : Dev) (o : Out) (k : Nat) : (d.emit o).getCairnTile k = d.getCairnTile k := rfl
@[simp] theorem settle_getCMap (d : Dev) (k : Nat) : (settle d).getCMap k = d.getCMap k := rfl
@[simp] theorem fresh_getCMap (d : Dev) (k : Nat) : d.fresh.getCMap k = d.getCMap k := rfl
@[simp] theorem emit_getCMap (d : Dev) (o : Out) (k : Nat) : (d.emit o).getCMap k = d.getCMap k := rfl
@[simp] theorem settle_getChan (d : Dev) (k : Nat) : (settle d).getChan k = d.getChan k := rfl
@[simp] theorem fresh_getChan (d : Dev) (k : Nat) : d.fresh.getChan k = d.getChan k := rfl
@[simp] theorem emit_getChan (d : Dev) (o : Out) (k : Nat) : (d.emit o).getChan k = d.getChan k := rfl
@[simp] theorem settle_getTree (d : Dev) (k : Nat) : (settle d).getTree k = d.getTree k := rfl
@[simp] theorem fresh_getTree (d : Dev) (k : Nat) : d.fresh.getTree k = d.getTree k := rfl
@[simp] theorem emit_getTree (d : Dev) (o : Out) (k : Nat) : (d.emit o).getTree k = d.getTree k := rfl
@[simp] theorem settle_getStack (d : Dev) (k : Nat) : (settle d).getStack k = d.getStack k := rfl
@[simp] theorem fresh_getStack (d : Dev) (k : Nat) : d.fresh.getStack k = d.getStack k := rfl
@[simp] theorem emit_getStack (d : Dev) (o : Out) (k : Nat) : (d.emit o).getStack k = d.getStack k := rfl
@[simp] theorem settle_getRegion (d : Dev) (k : Nat) : (settle d).getRegion k = d.getRegion k := rfl
@[simp] theorem fresh_getRegion (d : Dev) (k : Nat) : d.fresh.getRegion k = d.getRegion k := rfl
@[simp] theorem emit_getRegion (d : Dev) (o : Out) (k : Nat) : (d.emit o).getRegion k = d.getRegion k := rfl
@[simp] theorem settle_getScrub (d : Dev) (k : Nat) : (settle d).getScrub k = d.getScrub k := rfl
@[simp] theorem fresh_getScrub (d : Dev) (k : Nat) : d.fresh.getScrub k = d.getScrub k := rfl
@[simp] theorem emit_getScrub (d : Dev) (o : Out) (k : Nat) : (d.emit o).getScrub k = d.getScrub k := rfl
@[simp] theorem settle_getAssay (d : Dev) (k : Nat) : (settle d).getAssay k = d.getAssay k := rfl
@[simp] theorem fresh_getAssay (d : Dev) (k : Nat) : d.fresh.getAssay k = d.getAssay k := rfl
@[simp] theorem emit_getAssay (d : Dev) (o : Out) (k : Nat) : (d.emit o).getAssay k = d.getAssay k := rfl
@[simp] theorem settle_getTap (d : Dev) (k : Nat) : (settle d).getTap k = d.getTap k := rfl
@[simp] theorem fresh_getTap (d : Dev) (k : Nat) : d.fresh.getTap k = d.getTap k := rfl
@[simp] theorem emit_getTap (d : Dev) (o : Out) (k : Nat) : (d.emit o).getTap k = d.getTap k := rfl
@[simp] theorem settle_getHalfPow (d : Dev) (k : Nat) : (settle d).getHalfPow k = d.getHalfPow k := rfl
@[simp] theorem fresh_getHalfPow (d : Dev) (k : Nat) : d.fresh.getHalfPow k = d.getHalfPow k := rfl
@[simp] theorem emit_getHalfPow (d : Dev) (o : Out) (k : Nat) : (d.emit o).getHalfPow k = d.getHalfPow k := rfl
@[simp] theorem settle_getRail (d : Dev) (k : Nat) : (settle d).getRail k = d.getRail k := rfl
@[simp] theorem fresh_getRail (d : Dev) (k : Nat) : d.fresh.getRail k = d.getRail k := rfl
@[simp] theorem emit_getRail (d : Dev) (o : Out) (k : Nat) : (d.emit o).getRail k = d.getRail k := rfl
@[simp] theorem settle_getGuar (d : Dev) (k : Nat) : (settle d).getGuar k = d.getGuar k := rfl
@[simp] theorem fresh_getGuar (d : Dev) (k : Nat) : d.fresh.getGuar k = d.getGuar k := rfl
@[simp] theorem emit_getGuar (d : Dev) (o : Out) (k : Nat) : (d.emit o).getGuar k = d.getGuar k := rfl
@[simp] theorem settle_getBPort (d : Dev) (k : Nat) : (settle d).getBPort k = d.getBPort k := rfl
@[simp] theorem fresh_getBPort (d : Dev) (k : Nat) : d.fresh.getBPort k = d.getBPort k := rfl
@[simp] theorem emit_getBPort (d : Dev) (o : Out) (k : Nat) : (d.emit o).getBPort k = d.getBPort k := rfl
@[simp] theorem settle_getPartFab (d : Dev) (k : Nat) : (settle d).getPartFab k = d.getPartFab k := rfl
@[simp] theorem fresh_getPartFab (d : Dev) (k : Nat) : d.fresh.getPartFab k = d.getPartFab k := rfl
@[simp] theorem emit_getPartFab (d : Dev) (o : Out) (k : Nat) : (d.emit o).getPartFab k = d.getPartFab k := rfl
@[simp] theorem settle_getDrop (d : Dev) (k : Nat) : (settle d).getDrop k = d.getDrop k := rfl
@[simp] theorem fresh_getDrop (d : Dev) (k : Nat) : d.fresh.getDrop k = d.getDrop k := rfl
@[simp] theorem emit_getDrop (d : Dev) (o : Out) (k : Nat) : (d.emit o).getDrop k = d.getDrop k := rfl
@[simp] theorem settle_getPortCnt (d : Dev) (k : Nat) : (settle d).getPortCnt k = d.getPortCnt k := rfl
@[simp] theorem fresh_getPortCnt (d : Dev) (k : Nat) : d.fresh.getPortCnt k = d.getPortCnt k := rfl
@[simp] theorem emit_getPortCnt (d : Dev) (o : Out) (k : Nat) : (d.emit o).getPortCnt k = d.getPortCnt k := rfl
@[simp] theorem settle_getWindow (d : Dev) (k : Nat) : (settle d).getWindow k = d.getWindow k := rfl
@[simp] theorem fresh_getWindow (d : Dev) (k : Nat) : d.fresh.getWindow k = d.getWindow k := rfl
@[simp] theorem emit_getWindow (d : Dev) (o : Out) (k : Nat) : (d.emit o).getWindow k = d.getWindow k := rfl

@[simp] theorem gate_true (d : Dev) (f : Dev → Dev) : d.gate true f = f d := rfl
@[simp] theorem gate_false (d : Dev) (f : Dev → Dev) : d.gate false f = d := rfl

end Sys2Proof.Machine
end

