-- ==== Sys2Proof/Laws/Events.lean ====
section
/-! SUPPORT. What raising an event can change: the log, ALERT_N, the event ring, the outputs and the ERR flag of the mirror. -/

namespace Sys2Proof.Machine

/-- Everything that writing the event ring can do. -/
theorem eventRing_shape (d : Dev) (r : EvRec) : ∃ c h, d.eventRing r = { d with clock.out := c, host.evt := h } := by
  unfold Dev.eventRing
  dsimp only
  split
  · split
    · exact ⟨_, _, rfl⟩
    · exact ⟨_, _, rfl⟩
  · exact ⟨d.clock.out, d.host.evt, rfl⟩

/-- Everything that appending a record can do. -/
theorem record_shape (d : Dev) (ev : Ev) (n : Nat) : ∃ c p h e, d.record ev n = { d with clock.out := c, pins.alertN := p, host.evt := h, evt := e } := by
  unfold Dev.record
  dsimp only
  generalize EvRec.mk _ _ _ _ _ _ = r
  split
  · obtain ⟨c, h, q⟩ := eventRing_shape _ r
    exact ⟨c, _, h, _, q⟩
  · obtain ⟨c, h, q⟩ := eventRing_shape _ r
    exact ⟨c, d.pins.alertN, h, _, q⟩

theorem noteError_shape (d : Dev) (ev : Ev) : ∃ m, d.noteError ev = { d with mirror.err := m } := by
  unfold Dev.noteError
  split
  · exact ⟨true, rfl⟩
  · exact ⟨d.mirror.err, rfl⟩

/-- Everything that `Dev.raise` can do. -/
theorem raise_shape (d : Dev) (ev : Ev) : ∃ c p h e m, d.raise ev =
    { d with clock.out := c, pins.alertN := p, host.evt := h, evt := e, mirror.err := m } := by
  obtain ⟨m, hm⟩ := noteError_shape d ev
  unfold Dev.raise
  dsimp only
  rw [hm]
  split
  · obtain ⟨c, p, h, e, q⟩ := record_shape _ ev _
    exact ⟨c, p, h, e, m, q⟩
  · split
    · obtain ⟨c, p, h, e, q⟩ := record_shape _ ev _
      exact ⟨c, p, h, e, m, q⟩
    · split
      · obtain ⟨c, p, h, e, q⟩ := record_shape _ ev _
        exact ⟨c, p, h, e, m, q⟩
      · exact ⟨d.clock.out, d.pins.alertN, d.host.evt, _, m, rfl⟩

@[simp] theorem raise_boot (d : Dev) (ev : Ev) : (d.raise ev).boot = d.boot := by obtain ⟨c, p, h, e, m, q⟩ := raise_shape d ev; rw [q]
@[simp] theorem raise_fuses (d : Dev) (ev : Ev) : (d.raise ev).fuses = d.fuses := by obtain ⟨c, p, h, e, m, q⟩ := raise_shape d ev; rw [q]
@[simp] theorem raise_flash (d : Dev) (ev : Ev) : (d.raise ev).flash = d.flash := by obtain ⟨c, p, h, e, m, q⟩ := raise_shape d ev; rw [q]
@[simp] theorem raise_caps (d : Dev) (ev : Ev) : (d.raise ev).caps = d.caps := by obtain ⟨c, p, h, e, m, q⟩ := raise_shape d ev; rw [q]
@[simp] theorem raise_beat (d : Dev) (ev : Ev) : (d.raise ev).beat = d.beat := by obtain ⟨c, p, h, e, m, q⟩ := raise_shape d ev; rw [q]
@[simp] theorem raise_aux (d : Dev) (ev : Ev) : (d.raise ev).aux = d.aux := by obtain ⟨c, p, h, e, m, q⟩ := raise_shape d ev; rw [q]
@[simp] theorem raise_dies (d : Dev) (ev : Ev) : (d.raise ev).dies = d.dies := by obtain ⟨c, p, h, e, m, q⟩ := raise_shape d ev; rw [q]
@[simp] theorem raise_mesh (d : Dev) (ev : Ev) : (d.raise ev).mesh = d.mesh := by obtain ⟨c, p, h, e, m, q⟩ := raise_shape d ev; rw [q]
@[simp] theorem raise_slab (d : Dev) (ev : Ev) : (d.raise ev).slab = d.slab := by obtain ⟨c, p, h, e, m, q⟩ := raise_shape d ev; rw [q]
@[simp] theorem raise_peb (d : Dev) (ev : Ev) : (d.raise ev).peb = d.peb := by obtain ⟨c, p, h, e, m, q⟩ := raise_shape d ev; rw [q]
@[simp] theorem raise_mem (d : Dev) (ev : Ev) : (d.raise ev).mem = d.mem := by obtain ⟨c, p, h, e, m, q⟩ := raise_shape d ev; rw [q]
@[simp] theorem raise_cairn (d : Dev) (ev : Ev) : (d.raise ev).cairn = d.cairn := by obtain ⟨c, p, h, e, m, q⟩ := raise_shape d ev; rw [q]
@[simp] theorem raise_barr (d : Dev) (ev : Ev) : (d.raise ev).barr = d.barr := by obtain ⟨c, p, h, e, m, q⟩ := raise_shape d ev; rw [q]
@[simp] theorem raise_fab (d : Dev) (ev : Ev) : (d.raise ev).fab = d.fab := by obtain ⟨c, p, h, e, m, q⟩ := raise_shape d ev; rw [q]
@[simp] theorem raise_links (d : Dev) (ev : Ev) : (d.raise ev).links = d.links := by obtain ⟨c, p, h, e, m, q⟩ := raise_shape d ev; rw [q]
@[simp] theorem raise_bed (d : Dev) (ev : Ev) : (d.raise ev).bed = d.bed := by obtain ⟨c, p, h, e, m, q⟩ := raise_shape d ev; rw [q]
@[simp] theorem raise_idle (d : Dev) (ev : Ev) : (d.raise ev).idle = d.idle := by obtain ⟨c, p, h, e, m, q⟩ := raise_shape d ev; rw [q]
@[simp] theorem raise_parts (d : Dev) (ev : Ev) : (d.raise ev).parts = d.parts := by obtain ⟨c, p, h, e, m, q⟩ := raise_shape d ev; rw [q]
@[simp] theorem raise_sec (d : Dev) (ev : Ev) : (d.raise ev).sec = d.sec := by obtain ⟨c, p, h, e, m, q⟩ := raise_shape d ev; rw [q]
@[simp] theorem raise_pow (d : Dev) (ev : Ev) : (d.raise ev).pow = d.pow := by obtain ⟨c, p, h, e, m, q⟩ := raise_shape d ev; rw [q]
@[simp] theorem raise_powu (d : Dev) (ev : Ev) : (d.raise ev).powu = d.powu := by obtain ⟨c, p, h, e, m, q⟩ := raise_shape d ev; rw [q]
@[simp] theorem raise_therm (d : Dev) (ev : Ev) : (d.raise ev).therm = d.therm := by obtain ⟨c, p, h, e, m, q⟩ := raise_shape d ev; rw [q]
@[simp] theorem raise_mgmt (d : Dev) (ev : Ev) : (d.raise ev).mgmt = d.mgmt := by obtain ⟨c, p, h, e, m, q⟩ := raise_shape d ev; rw [q]
@[simp] theorem raise_test (d : Dev) (ev : Ev) : (d.raise ev).test = d.test := by obtain ⟨c, p, h, e, m, q⟩ := raise_shape d ev; rw [q]
@[simp] theorem raise_clock_wall (d : Dev) (ev : Ev) : (d.raise ev).clock.wall = d.clock.wall := by obtain ⟨c, p, h, e, m, q⟩ := raise_shape d ev; rw [q]
@[simp] theorem raise_clock_freeCtr (d : Dev) (ev : Ev) : (d.raise ev).clock.freeCtr = d.clock.freeCtr := by obtain ⟨c, p, h, e, m, q⟩ := raise_shape d ev; rw [q]
@[simp] theorem raise_host_rings (d : Dev) (ev : Ev) : (d.raise ev).host.rings = d.host.rings := by obtain ⟨c, p, h, e, m, q⟩ := raise_shape d ev; rw [q]
@[simp] theorem raise_host_windows (d : Dev) (ev : Ev) : (d.raise ev).host.windows = d.host.windows := by obtain ⟨c, p, h, e, m, q⟩ := raise_shape d ev; rw [q]
@[simp] theorem raise_mirror_regs (d : Dev) (ev : Ev) : (d.raise ev).mirror.regs = d.mirror.regs := by obtain ⟨c, p, h, e, m, q⟩ := raise_shape d ev; rw [q]
@[simp] theorem raise_getSlab (d : Dev) (ev : Ev) (k : Nat) : (d.raise ev).getSlab k = d.getSlab k := by simp [Dev.getSlab]
@[simp] theorem raise_getSCtx (d : Dev) (ev : Ev) (k : Nat) : (d.raise ev).getSCtx k = d.getSCtx k := by simp [Dev.getSCtx]
@[simp] theorem raise_getHalf (d : Dev) (ev : Ev) (k : Nat) : (d.raise ev).getHalf k = d.getHalf k := by simp [Dev.getHalf]
@[simp] theorem raise_getSeam (d : Dev) (ev : Ev) (k : Nat) : (d.raise ev).getSeam k = d.getSeam k := by simp [Dev.getSeam]
@[simp] theorem raise_getCluster (d : Dev) (ev : Ev) (k : Nat) : (d.raise ev).getCluster k = d.getCluster k := by simp [Dev.getCluster]
@[simp] theorem raise_getPebble (d : Dev) (ev : Ev) (k : Nat) : (d.raise ev).getPebble k = d.getPebble k := by simp [Dev.getPebble]
@[simp] theorem raise_getPCtx (d : Dev) (ev : Ev) (k : Nat) : (d.raise ev).getPCtx k = d.getPCtx k := by simp [Dev.getPCtx]
@[simp] theorem raise_getLink (d : Dev) (ev : Ev) (k : Nat) : (d.raise ev).getLink k = d.getLink k := by simp [Dev.getLink]
@[simp] theorem raise_getRing (d : Dev) (ev : Ev) (k : Nat) : (d.raise ev).getRing k = d.getRing k := by simp [Dev.getRing]
@[simp] theorem raise_getPart (d : Dev) (ev : Ev) (k : Nat) : (d.raise ev).getPart k = d.getPart k := by simp [Dev.getPart]
@[simp] theorem raise_getCairnTile (d : Dev) (ev : Ev) (k : Nat) : (d.raise ev).getCairnTile k = d.getCairnTile k := by simp [Dev.getCairnTile]
@[simp] theorem raise_getCMap (d : Dev) (ev : Ev) (k : Nat) : (d.raise ev).getCMap k = d.getCMap k := by simp [Dev.getCMap]
@[simp] theorem raise_getChan (d : Dev) (ev : Ev) (k : Nat) : (d.raise ev).getChan k = d.getChan k := by simp [Dev.getChan]
@[simp] theorem raise_getTree (d : Dev) (ev : Ev) (k : Nat) : (d.raise ev).getTree k = d.getTree k := by simp [Dev.getTree]
@[simp] theorem raise_getStack (d : Dev) (ev : Ev) (k : Nat) : (d.raise ev).getStack k = d.getStack k := by simp [Dev.getStack]
@[simp] theorem raise_getRegion (d : Dev) (ev : Ev) (k : Nat) : (d.raise ev).getRegion k = d.getRegion k := by simp [Dev.getRegion]
@[simp] theorem raise_getScrub (d : Dev) (ev : Ev) (k : Nat) : (d.raise ev).getScrub k = d.getScrub k := by simp [Dev.getScrub]
@[simp] theorem raise_getAssay (d : Dev) (ev : Ev) (k : Nat) : (d.raise ev).getAssay k = d.getAssay k := by simp [Dev.getAssay]
@[simp] theorem raise_getTap (d : Dev) (ev : Ev) (k : Nat) : (d.raise ev).getTap k = d.getTap k := by simp [Dev.getTap]
@[simp] theorem raise_getHalfPow (d : Dev) (ev : Ev) (k : Nat) : (d.raise ev).getHalfPow k = d.getHalfPow k := by simp [Dev.getHalfPow]
@[simp] theorem raise_getRail (d : Dev) (ev : Ev) (k : Nat) : (d.raise ev).getRail k = d.getRail k := by simp [Dev.getRail]
@[simp] theorem raise_getGuar (d : Dev) (ev : Ev) (k : Nat) : (d.raise ev).getGuar k = d.getGuar k := by simp [Dev.getGuar]
@[simp] theorem raise_getBPort (d : Dev) (ev : Ev) (k : Nat) : (d.raise ev).getBPort k = d.getBPort k := by simp [Dev.getBPort]
@[simp] theorem raise_getPartFab (d : Dev) (ev : Ev) (k : Nat) : (d.raise ev).getPartFab k = d.getPartFab k := by simp [Dev.getPartFab]
@[simp] theorem raise_getDrop (d : Dev) (ev : Ev) (k : Nat) : (d.raise ev).getDrop k = d.getDrop k := by simp [Dev.getDrop]
@[simp] theorem raise_getPortCnt (d : Dev) (ev : Ev) (k : Nat) : (d.raise ev).getPortCnt k = d.getPortCnt k := by simp [Dev.getPortCnt]
@[simp] theorem raise_getWindow (d : Dev) (ev : Ev) (k : Nat) : (d.raise ev).getWindow k = d.getWindow k := by simp [Dev.getWindow]

end Sys2Proof.Machine
end

