-- ==== Sys2Proof/Laws/Mem.lean ====
section
/-! SUPPORT. Memory: a read after a write, the bytes a write leaves, and the canonical form that every operation keeps. -/

namespace Sys2Proof.Machine

@[simp] theorem setByte_byte_same (m : Mem) (a : Nat) (b : Byte) : (m.setByte a b).byte a = b := tabGet_tabSet_same _ _ _ _

theorem setByte_byte_ne (m : Mem) {a c : Nat} (b : Byte) (h : c ≠ a) : (m.setByte a b).byte c = m.byte c := tabGet_tabSet_ne _ _ h _

@[simp] theorem setErr_byte (m : Mem) (w a : Nat) (e : WordErr) : (m.setErr w e).byte a = m.byte a := rfl

@[simp] theorem setErr_same (m : Mem) (w : Nat) (e : WordErr) : (m.setErr w e).errOf w = e := tabGet_tabSet_same _ _ _ _

theorem setErr_ne (m : Mem) {w v : Nat} (e : WordErr) (h : v ≠ w) : (m.setErr w e).errOf v = m.errOf v := tabGet_tabSet_ne _ _ h _

theorem setBytes_outside (m : Mem) (bs : List Byte) : ∀ (a : Nat) {c : Nat}, (c < a ∨ a + bs.length ≤ c) → (m.setBytes a bs).byte c = m.byte c := by
  induction bs generalizing m with
  | nil => intro a c _; rfl
  | cons b bs ih =>
    intro a c h
    simp only [Mem.setBytes, List.length_cons] at *
    rw [ih _ (a + 1) (by omega), setByte_byte_ne _ _ (by omega)]

theorem setBytes_inside (m : Mem) (bs : List Byte) : ∀ (a i : Nat), (h : i < bs.length) → (m.setBytes a bs).byte (a + i) = bs[i] := by
  induction bs generalizing m with
  | nil => intro a i h; simp at h
  | cons b bs ih =>
    intro a i h
    cases i with
    | zero =>
      simp only [Mem.setBytes, Nat.add_zero, List.getElem_cons_zero]
      rw [setBytes_outside _ _ _ (by omega)]; simp
    | succ i =>
      simp only [Mem.setBytes, List.getElem_cons_succ]
      rw [← ih (m.setByte a b) (a + 1) i (by simpa using h)]
      congr 1; omega

theorem setByte_wf {m : Mem} (h : m.wf = true) (a : Nat) (b : Byte) : (m.setByte a b).wf = true := tabWf_tabSet h

theorem setBytes_wf {m : Mem} (h : m.wf = true) (a : Nat) (bs : List Byte) : (m.setBytes a bs).wf = true := by
  induction bs generalizing m a with
  | nil => exact h
  | cons b bs ih => exact ih (setByte_wf h a b) (a + 1)

theorem setErr_wf {m : Mem} (h : m.wf = true) (w : Nat) (e : WordErr) : (m.setErr w e).wf = true := h

theorem tabAbove_filter {α : Type} [DecidableEq α] {dflt : α} (p : Nat × α → Bool) {a : Nat} {t : List (Nat × α)} (h : tabWf dflt t = true)
    (ha : tabAbove a t) : tabAbove a (t.filter p) := by
  induction t generalizing a with
  | nil => trivial
  | cons x t ih =>
    obtain ⟨k, v⟩ := x
    obtain ⟨_, hk, ht⟩ := (tabWf_cons _ _ _ _).1 h
    have ha : a < k := ha
    rw [List.filter_cons]
    split
    · exact ha
    · refine ih ht ?_
      cases t with
      | nil => trivial
      | cons y t => exact Nat.lt_trans ha hk

theorem tabWf_filter {α : Type} [DecidableEq α] {dflt : α} (p : Nat × α → Bool) {t : List (Nat × α)} (h : tabWf dflt t = true) :
    tabWf dflt (t.filter p) = true := by
  induction t with
  | nil => rfl
  | cons x t ih =>
    obtain ⟨k, v⟩ := x
    obtain ⟨hv, hk, ht⟩ := (tabWf_cons _ _ _ _).1 h
    rw [List.filter_cons]
    split
    · exact (tabWf_cons _ _ _ _).2 ⟨hv, tabAbove_filter p ht hk, ih ht⟩
    · exact ih ht

theorem zero_wf {m : Mem} (h : m.wf = true) (a n : Nat) : (m.zero a n).wf = true := tabWf_filter _ h

theorem zeroHalf_wf {m : Mem} (h : m.wf = true) (half : Nat) : (m.zeroHalf half).wf = true := by
  unfold Mem.zeroHalf
  generalize upTo 4 = l
  induction l generalizing m with
  | nil => exact h
  | cons i l ih => exact ih (zero_wf (zero_wf (zero_wf h _ _) _ _) _ _)

/-- What every step of a fold leaves alone, the fold leaves alone. -/
theorem each_keeps {α β : Type} (g : Dev → β) (f : Dev → α → Dev) (h : ∀ d a, g (f d a) = g d) (l : List α) (d : Dev) :
    g (Dev.each l f d) = g d := by
  unfold Dev.each
  induction l generalizing d with
  | nil => rfl
  | cons a l ih => rw [List.foldl_cons, ih, h]

@[simp] theorem cancelWriteBack_cells (d : Dev) (w : Nat) : (d.cancelWriteBack w).mem.cells = d.mem.cells := rfl

@[simp] theorem markDirty_mem (d : Dev) (b : Nat) : (d.markDirty b).mem = d.mem := rfl

@[simp] theorem startResync_mem (d : Dev) : d.startResync.mem = d.mem := by
  unfold Dev.startResync
  dsimp only
  split <;> split <;> rfl

@[simp] theorem assayWrite_mem (d : Dev) (die w : Nat) (bs : List Byte) (p : Bool) : (d.assayWrite die w bs p).mem = d.mem := by
  unfold Dev.assayWrite
  split
  · rfl
  · refine each_keeps (fun d => d.mem) _ (fun d u => ?_) _ d
    dsimp only
    split <;> rfl

@[simp] theorem mirrorWrite_mem (d : Dev) (pl : Place) (w : Nat) (bs : List Byte) (p : Bool) (by_ : Writer) :
    (d.mirrorWrite pl w bs p by_).mem = d.mem := by
  unfold Dev.mirrorWrite
  cases by_ <;> dsimp only <;> (repeat' split) <;> simp

/-- Storing a word keeps the canonical form (R286, R287). -/
theorem storeWord_wf {d : Dev} (h : d.mem.wf = true) (pl : Place) (w : Nat) (bs : List Byte) (p : Bool) (by_ : Writer) :
    (d.storeWord pl w bs p by_).mem.wf = true := by
  unfold Dev.storeWord
  dsimp only
  rw [mirrorWrite_mem, assayWrite_mem]
  have hc : (d.cancelWriteBack w).mem.wf = true := h
  split
  · exact setErr_wf (setBytes_wf hc _ _) _ _
  · exact setErr_wf (setBytes_wf hc _ _) _ _

/-- A masked or whole write of a word keeps the canonical form (R289). -/
theorem writeWord_wf {d : Dev} (h : d.mem.wf = true) (pl : Place) (w off : Nat) (bs : List PByte) (by_ : Writer) :
    (d.writeWord pl w off bs by_).mem.wf = true := by
  have hr : ∀ ev, (d.raise ev).mem.wf = true := fun ev => by simpa using h
  unfold Dev.writeWord
  dsimp only
  split
  · exact h
  · split
    · exact storeWord_wf h _ _ _ _ _
    · split
      · exact storeWord_wf h _ _ _ _ _
      · exact storeWord_wf h _ _ _ _ _
      · split
        · exact storeWord_wf h _ _ _ _ _
        · exact storeWord_wf (hr _) _ _ _ _ _
      · split
        · exact storeWord_wf h _ _ _ _ _
        · exact storeWord_wf (hr _) _ _ _ _ _

@[simp] theorem raiseOnce_mem (d : Dev) (ev : Ev) : (d.raiseOnce ev).mem = d.mem := by
  unfold Dev.raiseOnce
  split
  · obtain ⟨m, hm⟩ := noteError_shape d ev
    rw [hm]
  · simp

/-- A write of any bytes keeps the canonical form. -/
theorem writeWords_wf (by_ : Writer) (fuel : Nat) : ∀ {d : Dev}, d.mem.wf = true → ∀ a bs, (d.writeWords by_ fuel a bs).mem.wf = true := by
  induction fuel with
  | zero => intro d h a bs; exact h
  | succ n ih =>
    intro d h a bs
    unfold Dev.writeWords
    split
    · exact h
    · refine ih ?_ _ _
      split
      · simpa [Dev.unmappedEv] using h
      · simpa [Dev.unmappedEv] using h
      · exact writeWord_wf h _ _ _ _ _

theorem writeMem_wf {d : Dev} (h : d.mem.wf = true) (a : Nat) (bs : List PByte) (by_ : Writer) : (d.writeMem a bs by_).mem.wf = true :=
  writeWords_wf by_ _ h a bs

end Sys2Proof.Machine
end

