-- ==== Sys2Proof/Laws/Pebble.lean ====
section
/-! SUPPORT. What the issue of a pebble instruction does, once for all instructions. -/

namespace Sys2Proof.Machine

theorem pebRuns_live {s : State} {p cyc : Nat} (h : pebRuns s p cyc = true) : s.dev.boot.phase.live = true := by
  simp only [pebRuns, Bool.and_eq_true] at h; exact h.1.1

/-- An instruction that issues takes its slot and then its effect. -/
theorem issue_eq {s : State} {p x cyc : Nat} {w : PWord} (h : issues s p x cyc w = true) (f : Nat → PCtx → PWord → Nat → Dev → Dev) :
    s.dev.fresh.issue p x cyc w.kind.1 w.kind.2 f
      = f (pebTime s p cyc) (pebCtx s p x cyc) w (pebExt s p x cyc) ((pebDev s p cyc).takeSlot p x (pebTime s p cyc) w) := by
  simp only [issues, pebRuns, Bool.and_eq_true, decide_eq_true_eq, beq_iff_eq, Bool.not_eq_true', List.elem_eq_mem, decide_eq_false_iff_not] at h
  obtain ⟨⟨⟨⟨⟨-, hw⟩, hc⟩, hd⟩, hp⟩, he⟩ := h
  unfold Dev.issue
  rw [if_pos ⟨hw, hc⟩]
  change (match decodeP (((pebDev s p cyc).getPebble p).word (pebCtx s p x cyc).pc) with
    | none => pebDev s p cyc
    | some v => (pebDev s p cyc).gate (v.kind == w.kind && (pebDev s p cyc).issuePick p (pebTime s p cyc) == some x) (fun d =>
        if ((pebDev s p cyc).getPebble p).imemErr.contains (pebCtx s p x cyc).pc then d.pebFetchError p x (pebCtx s p x cyc).pc
        else f (pebTime s p cyc) (pebCtx s p x cyc) v (pebExt s p x cyc) (d.takeSlot p x (pebTime s p cyc) v))) = _
  rw [hd]
  simp [Dev.gate, hp, he]

/-- A scalar instruction that issues. -/
theorem issueS_eq {s : State} {p x cyc cls op : Nat} {w : SWord} (h : issues s p x cyc (.sca w) = true) (hc : w.cls = cls) (ho : w.op = op)
    (f : Nat → PCtx → SWord → Dev → Dev) :
    s.dev.fresh.issueS p x cyc cls op f
      = f (pebTime s p cyc) (pebCtx s p x cyc) w ((pebDev s p cyc).takeSlot p x (pebTime s p cyc) (.sca w)) := by
  subst hc ho; exact issue_eq h _

/-- A vector instruction that issues. -/
theorem issueV_eq {s : State} {p x cyc cls op : Nat} {w : VWord} (h : issues s p x cyc (.vec w) = true) (hc : w.cls = cls) (ho : w.op = op)
    (f : Nat → PCtx → VWord → Nat → Dev → Dev) :
    s.dev.fresh.issueV p x cyc cls op f
      = f (pebTime s p cyc) (pebCtx s p x cyc) w (pebExt s p x cyc) ((pebDev s p cyc).takeSlot p x (pebTime s p cyc) (.vec w)) := by
  subst hc ho; exact issue_eq h _

theorem issues_runs {s : State} {p x cyc : Nat} {w : PWord} (h : issues s p x cyc w = true) : pebRuns s p cyc = true := by
  simp only [issues, Bool.and_eq_true] at h; exact h.1.1.1

/-- What a running device answers for a command. -/
theorem live_eq {s : State} (h : s.dev.boot.phase.live = true) (f : Dev → Dev) : s.live f = .next { s with dev := settle (f s.dev.fresh) } := by
  have h' : s.dev.fresh.boot.phase.live = true := h
  simp only [State.live, State.run, h', if_true]

/-- The slot moves the context on and changes nothing else of it. -/
@[simp] theorem takeSlot_ctx (d : Dev) (p x t : Nat) (w : PWord) : (d.takeSlot p x t w).getPCtx (4 * p + x) = (d.getPCtx (4 * p + x)).past w := by
  simp [Dev.takeSlot, PCtx.past]

theorem takeSlot_ctx_ne (d : Dev) (p x t : Nat) (w : PWord) {k : Nat} (h : k ≠ 4 * p + x) : (d.takeSlot p x t w).getPCtx k = d.getPCtx k := by
  simp [Dev.takeSlot, modPCtx_ne _ _ h]

theorem takeSlot_pebble_ne (d : Dev) (p x t : Nat) (w : PWord) {k : Nat} (h : k ≠ p) : (d.takeSlot p x t w).getPebble k = d.getPebble k := by
  simp [Dev.takeSlot, modPebble_ne _ _ h]

theorem takeSlot_peb (d : Dev) (p x t : Nat) (w : PWord) (k : Nat) (g : PCtx → PCtx) :
    settle ((d.takeSlot p x t w).modPCtx k g) = settle { d with peb := (settle ((d.takeSlot p x t w).modPCtx k g)).peb } := rfl

theorem takeSlot_clusters (d : Dev) (p x t : Nat) (w : PWord) (k : Nat) (g : PCtx → PCtx) :
    (settle ((d.takeSlot p x t w).modPCtx k g)).peb.clusters = d.peb.clusters := rfl

/-- A change of the issuing context after the slot is taken leaves everything `PebFrame` names. -/
theorem pebFrame_of_ctx (s : State) (p x cyc : Nat) (w : PWord) (g : PCtx → PCtx) :
    PebFrame s { s with dev := settle (((pebDev s p cyc).takeSlot p x (pebTime s p cyc) w).modPCtx (4 * p + x) g) } p x cyc := by
  refine ⟨rfl, takeSlot_peb _ _ _ _ _ _ _, takeSlot_clusters _ _ _ _ _ _ _, fun k hk => ?_, fun k hk => ?_⟩
  · simp [modPCtx_ne _ _ hk, takeSlot_ctx_ne _ _ _ _ _ hk]
  · simp [takeSlot_pebble_ne _ _ _ _ _ hk]

/-- The issuing context after such a change. -/
theorem ctx_after (s : State) (p x cyc : Nat) (w : PWord) (g : PCtx → PCtx) :
    (settle (((pebDev s p cyc).takeSlot p x (pebTime s p cyc) w).modPCtx (4 * p + x) g)).getPCtx (4 * p + x)
      = g ((pebCtx s p x cyc).past w) := by
  simp [pebCtx]

/-! ## What a register write leaves -/

theorem setS_written (c : PCtx) (w : PWord) (i ready : Nat) (v : SReg) : ScalarWritten c w i v ((c.past w).setS i ready v) := by
  unfold ScalarWritten PCtx.setS
  by_cases h : i = 0
  · subst h; simp [PCtx.sreg, PCtx.past]
  · refine ⟨by simp [h], by simp [h, PCtx.sreg], fun j hj => ?_⟩
    simp [h, PCtx.sreg, PCtx.past, tabGet_tabSet_ne _ _ hj]

theorem setM_written (c : PCtx) (w : PWord) (i ready : Nat) (v : MaskReg) : MaskWritten c w i v ((c.past w).setM i ready v) := by
  unfold MaskWritten PCtx.setM
  by_cases h : i = 0
  · subst h; simp [PCtx.mreg, PCtx.past]
  · refine ⟨by simp [h], by simp [h, PCtx.mreg], fun j hj => ?_⟩
    simp [h, PCtx.mreg, PCtx.past, tabGet_tabSet_ne _ _ hj]

theorem setV_written (c : PCtx) (w : PWord) (i ready : Nat) (v : VReg) (lfsr : Word32) (n : FpAdd) :
    VectorWritten c w i v lfsr n (({ (c.past w).setV i ready v with lfsr := lfsr } : PCtx).count n) := by
  refine ⟨rfl, by simp [PCtx.vreg, PCtx.setV, PCtx.count], fun j hj => ?_⟩
  simp [PCtx.vreg, PCtx.setV, PCtx.count, PCtx.past, tabGet_tabSet_ne _ _ hj]

/-! ## What the slot and an access leave -/

@[simp] theorem takeSlot_clock (d : Dev) (p x t : Nat) (w : PWord) : (d.takeSlot p x t w).clock = d.clock := rfl
@[simp] theorem access_clock (d : Dev) (p : Nat) (a : MemAcc) : (d.access p a).clock = d.clock := rfl
@[simp] theorem takeSlot_pins (d : Dev) (p x t : Nat) (w : PWord) : (d.takeSlot p x t w).pins = d.pins := rfl
@[simp] theorem access_pins (d : Dev) (p : Nat) (a : MemAcc) : (d.access p a).pins = d.pins := rfl
@[simp] theorem takeSlot_boot (d : Dev) (p x t : Nat) (w : PWord) : (d.takeSlot p x t w).boot = d.boot := rfl
@[simp] theorem access_boot (d : Dev) (p : Nat) (a : MemAcc) : (d.access p a).boot = d.boot := rfl
@[simp] theorem takeSlot_fuses (d : Dev) (p x t : Nat) (w : PWord) : (d.takeSlot p x t w).fuses = d.fuses := rfl
@[simp] theorem access_fuses (d : Dev) (p : Nat) (a : MemAcc) : (d.access p a).fuses = d.fuses := rfl
@[simp] theorem takeSlot_flash (d : Dev) (p x t : Nat) (w : PWord) : (d.takeSlot p x t w).flash = d.flash := rfl
@[simp] theorem access_flash (d : Dev) (p : Nat) (a : MemAcc) : (d.access p a).flash = d.flash := rfl
@[simp] theorem takeSlot_caps (d : Dev) (p x t : Nat) (w : PWord) : (d.takeSlot p x t w).caps = d.caps := rfl
@[simp] theorem access_caps (d : Dev) (p : Nat) (a : MemAcc) : (d.access p a).caps = d.caps := rfl
@[simp] theorem takeSlot_beat (d : Dev) (p x t : Nat) (w : PWord) : (d.takeSlot p x t w).beat = d.beat := rfl
@[simp] theorem access_beat (d : Dev) (p : Nat) (a : MemAcc) : (d.access p a).beat = d.beat := rfl
@[simp] theorem takeSlot_aux (d : Dev) (p x t : Nat) (w : PWord) : (d.takeSlot p x t w).aux = d.aux := rfl
@[simp] theorem access_aux (d : Dev) (p : Nat) (a : MemAcc) : (d.access p a).aux = d.aux := rfl
@[simp] theorem takeSlot_dies (d : Dev) (p x t : Nat) (w : PWord) : (d.takeSlot p x t w).dies = d.dies := rfl
@[simp] theorem access_dies (d : Dev) (p : Nat) (a : MemAcc) : (d.access p a).dies = d.dies := rfl
@[simp] theorem takeSlot_mesh (d : Dev) (p x t : Nat) (w : PWord) : (d.takeSlot p x t w).mesh = d.mesh := rfl
@[simp] theorem access_mesh (d : Dev) (p : Nat) (a : MemAcc) : (d.access p a).mesh = d.mesh := rfl
@[simp] theorem takeSlot_slab (d : Dev) (p x t : Nat) (w : PWord) : (d.takeSlot p x t w).slab = d.slab := rfl
@[simp] theorem access_slab (d : Dev) (p : Nat) (a : MemAcc) : (d.access p a).slab = d.slab := rfl
@[simp] theorem takeSlot_mem (d : Dev) (p x t : Nat) (w : PWord) : (d.takeSlot p x t w).mem = d.mem := rfl
@[simp] theorem access_mem (d : Dev) (p : Nat) (a : MemAcc) : (d.access p a).mem = d.mem := rfl
@[simp] theorem takeSlot_cairn (d : Dev) (p x t : Nat) (w : PWord) : (d.takeSlot p x t w).cairn = d.cairn := rfl
@[simp] theorem access_cairn (d : Dev) (p : Nat) (a : MemAcc) : (d.access p a).cairn = d.cairn := rfl
@[simp] theorem takeSlot_barr (d : Dev) (p x t : Nat) (w : PWord) : (d.takeSlot p x t w).barr = d.barr := rfl
@[simp] theorem access_barr (d : Dev) (p : Nat) (a : MemAcc) : (d.access p a).barr = d.barr := rfl
@[simp] theorem takeSlot_fab (d : Dev) (p x t : Nat) (w : PWord) : (d.takeSlot p x t w).fab = d.fab := rfl
@[simp] theorem access_fab (d : Dev) (p : Nat) (a : MemAcc) : (d.access p a).fab = d.fab := rfl
@[simp] theorem takeSlot_links (d : Dev) (p x t : Nat) (w : PWord) : (d.takeSlot p x t w).links = d.links := rfl
@[simp] theorem access_links (d : Dev) (p : Nat) (a : MemAcc) : (d.access p a).links = d.links := rfl
@[simp] theorem takeSlot_host (d : Dev) (p x t : Nat) (w : PWord) : (d.takeSlot p x t w).host = d.host := rfl
@[simp] theorem access_host (d : Dev) (p : Nat) (a : MemAcc) : (d.access p a).host = d.host := rfl
@[simp] theorem takeSlot_bed (d : Dev) (p x t : Nat) (w : PWord) : (d.takeSlot p x t w).bed = d.bed := rfl
@[simp] theorem access_bed (d : Dev) (p : Nat) (a : MemAcc) : (d.access p a).bed = d.bed := rfl
@[simp] theorem takeSlot_idle (d : Dev) (p x t : Nat) (w : PWord) : (d.takeSlot p x t w).idle = d.idle := rfl
@[simp] theorem access_idle (d : Dev) (p : Nat) (a : MemAcc) : (d.access p a).idle = d.idle := rfl
@[simp] theorem takeSlot_parts (d : Dev) (p x t : Nat) (w : PWord) : (d.takeSlot p x t w).parts = d.parts := rfl
@[simp] theorem access_parts (d : Dev) (p : Nat) (a : MemAcc) : (d.access p a).parts = d.parts := rfl
@[simp] theorem takeSlot_sec (d : Dev) (p x t : Nat) (w : PWord) : (d.takeSlot p x t w).sec = d.sec := rfl
@[simp] theorem access_sec (d : Dev) (p : Nat) (a : MemAcc) : (d.access p a).sec = d.sec := rfl
@[simp] theorem takeSlot_pow (d : Dev) (p x t : Nat) (w : PWord) : (d.takeSlot p x t w).pow = d.pow := rfl
@[simp] theorem access_pow (d : Dev) (p : Nat) (a : MemAcc) : (d.access p a).pow = d.pow := rfl
@[simp] theorem takeSlot_powu (d : Dev) (p x t : Nat) (w : PWord) : (d.takeSlot p x t w).powu = d.powu := rfl
@[simp] theorem access_powu (d : Dev) (p : Nat) (a : MemAcc) : (d.access p a).powu = d.powu := rfl
@[simp] theorem takeSlot_therm (d : Dev) (p x t : Nat) (w : PWord) : (d.takeSlot p x t w).therm = d.therm := rfl
@[simp] theorem access_therm (d : Dev) (p : Nat) (a : MemAcc) : (d.access p a).therm = d.therm := rfl
@[simp] theorem takeSlot_evt (d : Dev) (p x t : Nat) (w : PWord) : (d.takeSlot p x t w).evt = d.evt := rfl
@[simp] theorem access_evt (d : Dev) (p : Nat) (a : MemAcc) : (d.access p a).evt = d.evt := rfl
@[simp] theorem takeSlot_mirror (d : Dev) (p x t : Nat) (w : PWord) : (d.takeSlot p x t w).mirror = d.mirror := rfl
@[simp] theorem access_mirror (d : Dev) (p : Nat) (a : MemAcc) : (d.access p a).mirror = d.mirror := rfl
@[simp] theorem takeSlot_mgmt (d : Dev) (p x t : Nat) (w : PWord) : (d.takeSlot p x t w).mgmt = d.mgmt := rfl
@[simp] theorem access_mgmt (d : Dev) (p : Nat) (a : MemAcc) : (d.access p a).mgmt = d.mgmt := rfl
@[simp] theorem takeSlot_test (d : Dev) (p x t : Nat) (w : PWord) : (d.takeSlot p x t w).test = d.test := rfl
@[simp] theorem access_test (d : Dev) (p : Nat) (a : MemAcc) : (d.access p a).test = d.test := rfl
@[simp] theorem takeSlot_getCluster (d : Dev) (p x t k : Nat) (w : PWord) : (d.takeSlot p x t w).getCluster k = d.getCluster k := rfl
@[simp] theorem access_getPCtx (d : Dev) (p k : Nat) (a : MemAcc) : (d.access p a).getPCtx k = d.getPCtx k := rfl
@[simp] theorem access_getPebble (d : Dev) (p k : Nat) (a : MemAcc) : (d.access p a).getPebble k = d.getPebble k := rfl
@[simp] theorem access_getCluster (d : Dev) (p : Nat) (a : MemAcc) :
    (d.access p a).getCluster (p / 8) = { d.getCluster (p / 8) with pend := insertAcc a (d.getCluster (p / 8)).pend } := by simp [Dev.access]
theorem access_getCluster_ne (d : Dev) (p : Nat) (a : MemAcc) {k : Nat} (h : k ≠ p / 8) : (d.access p a).getCluster k = d.getCluster k :=
  modCluster_ne _ _ h

end Sys2Proof.Machine
end

