-- ==== Sys2Proof/Laws/Slab.lean ====
section
/-! SUPPORT. What a command at the head of a slab context finds. -/

namespace Sys2Proof.Machine

theorem slabRuns_live {s : State} {k cyc : Nat} (h : slabRuns s k cyc = true) : s.dev.boot.phase.live = true := by
  simp only [slabRuns, Bool.and_eq_true] at h; exact h.1.1

theorem dispatches_runs {s : State} {k x cyc : Nat} {h : SlabCmd} (hd : dispatches s k x cyc h = true) : slabRuns s k cyc = true := by
  simp only [dispatches, Bool.and_eq_true] at hd; exact hd.1.1.1

theorem dispatches_can {s : State} {k x cyc : Nat} {h : SlabCmd} (hd : dispatches s k x cyc h = true) :
    (slabCtx s k x cyc).canDispatch h (slabTime s k cyc) = true := by
  simp only [dispatches, Bool.and_eq_true] at hd; exact hd.2

/-- A slab that runs acts at its job cycle. -/
theorem slabAt_eq {s : State} {k cyc : Nat} (h : slabRuns s k cyc = true) : s.dev.fresh.slabAt k cyc = some (slabTime s k cyc) := by
  simp only [slabRuns, Bool.and_eq_true, decide_eq_true_eq] at h
  unfold Dev.slabAt
  exact if_pos ⟨h.1.2, h.2⟩

/-- A head that dispatches gets its effect. -/
theorem atHead_eq {s : State} {k x cyc : Nat} {h : SlabCmd} (hd : dispatches s k x cyc h = true) (f : Nat → SCtx → SlabCmd → Dev → Dev) :
    s.dev.fresh.atHead k x cyc f = f (slabTime s k cyc) (slabCtx s k x cyc) h (slabDev s k cyc) := by
  have hr := slabAt_eq (dispatches_runs hd)
  simp only [dispatches, Bool.and_eq_true, beq_iff_eq, Bool.not_eq_true'] at hd
  obtain ⟨⟨⟨-, hh⟩, he⟩, -⟩ := hd
  unfold Dev.atHead
  rw [hr]
  change (match (slabCtx s k x cyc).head with
    | none => slabDev s k cyc
    | some h => if (slabCtx s k x cyc).codeErr.contains (slabCtx s k x cyc).pc then (slabDev s k cyc).fetchError (2 * k + x) (slabCtx s k x cyc).pc
        else f (slabTime s k cyc) (slabCtx s k x cyc) h (slabDev s k cyc)) = _
  rw [hh]
  simp only [he, Bool.false_eq_true, if_false]

end Sys2Proof.Machine
end

