-- ==== Sys2Proof/Laws/Step.lean ====
section
/-! SUPPORT. What every command and every step can do: a command changes the device only, and ends in a next state. -/

namespace Sys2Proof.Machine

/-- Every command is one function of the device. -/
theorem exec_run (i : Instr) (s : State) : ∃ f : Dev → Dev, exec i s = s.run f := by
  cases i <;> exact ⟨_, rfl⟩

/-- Every command goes on and leaves the queue. -/
theorem exec_next (i : Instr) (s : State) : ∃ d : Dev, exec i s = .next ⟨settle d, s.pending⟩ := by
  obtain ⟨f, h⟩ := exec_run i s
  exact ⟨f s.dev.fresh, h⟩

theorem step_empty (s : State) (h : s.pending = []) : step s = .next s := by
  simp [step, h]

theorem step_front (s : State) (i : Instr) (rest : List Instr) (h : s.pending = i :: rest) :
    step s = exec i { s with pending := rest } := by
  simp [step, h]

/-- A step takes the front command at most. -/
theorem step_cases {s t : State} (h : step s = .next t) :
    (s.pending = [] ∧ t = s) ∨ ∃ i rest d, s.pending = i :: rest ∧ t = ⟨settle d, rest⟩ := by
  cases hp : s.pending with
  | nil =>
    rw [step_empty s hp] at h
    exact .inl ⟨rfl, (Host.Outcome.next.inj h).symm⟩
  | cons i rest =>
    rw [step_front s i rest hp] at h
    obtain ⟨d, q⟩ := exec_next i { s with pending := rest }
    rw [q] at h
    exact .inr ⟨i, rest, d, rfl, (Host.Outcome.next.inj h).symm⟩

end Sys2Proof.Machine
end

