-- ==== Sys2Proof/Tests/Slice0.lean ====
section
/-! SUPPORT. Tests: fixed values from the spec's words, ill-formed terms, and for every statement with hypotheses a state that meets them. -/

namespace Sys2Proof.Tests

open Sys2Proof.Machine

set_option Elab.async false

/-! ## Pebbles -/

/-- A ready device whose half 0 runs a job, with one word and its extension at the pc of context 0 of pebble 0. -/
def pebState (w : Nat) : State :=
  let d := { Dev.reset with
    boot := { Dev.reset.boot with phase := .ready }
    dies.halves := [(0, { partition := some 0 })]
    parts := [(0, { live := true, halves := 1, job := { state := 2, jobBeat := 3 } })]
    peb.pebbles := [(0, { imem := [(0, BitVec.ofNat 64 w), (1, 0x40490fdb)] })]
    peb.ctxs := [(0, { state := 1, bound := true, s := [(2, ⟨40, false⟩), (3, ⟨2, false⟩)] })] }
  ⟨d, []⟩

/-- A scalar word of a class and operation; it reads s2 and s3 and writes s1. -/
def sca (cls op : Nat) : SWord := ⟨cls, op, 1, 2, 3, 7⟩

/-- A vector word of a class and operation; it reads v2, v3 and v4 under m1 and writes v1. -/
def vec (cls op : Nat) : VWord := ⟨cls, op, 1, 2, 3, 4, 0, 0, 1, false, false, 0, false, 5, 0⟩

/-- The scalar word issues in cycle 5 of the beat. -/
def scaIssues (cls op : Nat) : Bool := issues (pebState (encodeP (.sca (sca cls op)))) 0 0 5 (.sca (sca cls op))

/-- The vector word issues in cycle 5 of the beat. -/
def vecIssues (cls op : Nat) : Bool := issues (pebState (encodeP (.vec (vec cls op)))) 0 0 5 (.vec (vec cls op))

/-- Every S.ALU instruction meets the hypotheses of `Obligations.ScalarAluResults`. -/
theorem witness_scalar_alu : (upTo 12).all (scaIssues 1) = true := by decide

/-- Every S.BR instruction meets those of `Obligations.ScalarBranchResults`, with sound operands. -/
theorem witness_scalar_branch : (upTo 9).all (scaIssues 2) = true
    ∧ ((pebCtx (pebState 0) 0 0 5).sreg 2).poison = false ∧ ((pebCtx (pebState 0) 0 0 5).sreg 3).poison = false := by decide

theorem witness_vector_arith : (upTo 16).all (vecIssues 8) = true := by decide

theorem witness_mask : ([0, 1, 2, 3, 4, 5, 6, 16, 17, 18, 19]).all (vecIssues 9) = true := by decide

theorem witness_vector_other : (upTo 4).all (vecIssues 10) = true ∧ (upTo 3).all (vecIssues 12) = true ∧ (upTo 7).all (vecIssues 13) = true
    ∧ (upTo 5).all (vecIssues 15) = true := by decide

theorem witness_convert : vecIssues 11 0 = true := by decide

theorem witness_memory_access : (upTo 2).all (scaIssues 3) = true ∧ (upTo 2).all (vecIssues 14) = true := by decide

theorem witness_pebble_sync : (upTo 7).all (scaIssues 4) = true := by decide

/-- Map entry 0 of every context of an empty device names cairn 0 of tile 0, so the hypotheses of `Obligations.PebbleSyncResults` about a local signal hold there. -/
theorem witness_local_signal : mapRemote (Dev.reset.mapEntry 0 0 0) = false
    ∧ 16 * mapDie (Dev.reset.mapEntry 0 0 0) + mapTile (Dev.reset.mapEntry 0 0 0) = 0 := by decide

/-- A stream descriptor: an inbound row of 512 bytes, without a signal. -/
def streamDesc (sig : Bool) : SDesc := ⟨0, sig, 0, 1, 1, 512, 0, 0, 0, 0⟩

/-- `pebState` with a stream descriptor in its cluster, and what a channel runs or queues. -/
def streamState (w : Nat) (ch : StreamCh) (c : PCtx) : State :=
  let s := pebState w
  ⟨{ s.dev with peb.clusters := [(0, { descs := [(7, encodeSDesc (streamDesc false))], chIn := ch, chRouted := ch })], peb.ctxs := [(0, c)] }, []⟩

/-- A context that has nothing outstanding. -/
def quietCtx : PCtx := { state := 1, bound := true }

theorem witness_stream : issues (streamState (encodeP (.sca (sca 5 0))) {} quietCtx) 0 0 5 (.sca (sca 5 0)) = true
    ∧ ((pebDev (streamState (encodeP (.sca (sca 5 0))) {} quietCtx) 0 5).getCluster 0).desc 7 = some (streamDesc false)
    ∧ ((pebDev (streamState (encodeP (.sca (sca 5 0))) {} quietCtx) 0 5).getCluster 0).descErr.contains 7 = false := by decide

/-- A parked FENCE, and a context that has issued END. -/
def fenceState : State := streamState 0 {} { quietCtx with state := 2, park := 3 }
def endState : State := streamState 0 {} { quietCtx with endIssued := true }

theorem witness_fence_satisfied : pebRuns fenceState 0 5 = true ∧ (pebCtx fenceState 0 0 5).state = 2 ∧ (pebCtx fenceState 0 0 5).park = 3
    ∧ (pebDev fenceState 0 5).pebQuiet 0 0 (pebTime fenceState 0 5) = true := by decide

theorem witness_pebble_task : pebRuns endState 0 5 = true ∧ (pebCtx endState 0 0 5).bound = true ∧ (pebCtx endState 0 0 5).state = 1
    ∧ (pebCtx endState 0 0 5).endIssued = true ∧ (pebCtx endState 0 0 5).ended = false ∧ (pebCtx endState 0 0 5).settled (pebTime endState 0 5) = true
    ∧ (pebDev endState 0 5).pebQuiet 0 0 (pebTime endState 0 5) = true
    ∧ (pebDev endState 0 5).signalsOpen (tileOfCluster 0) 0 (pebTime endState 0 5) = false := by decide

/-- A descriptor in a channel, as dispatched in cycle 0, or moved by cycle 3. -/
def streamJob (sig : Bool) (done : Option Nat) : StreamJob := ⟨0, streamDesc sig, 0, 0, 0, none, 0, done, []⟩

/-- A channel whose next descriptor waits, and one whose descriptor has moved. -/
def waitingCh : StreamCh := { queue := [streamJob false none] }
def movedCh (sig : Bool) : StreamCh := { run := some { streamJob sig (some 3) with moved := 512 } }

theorem witness_stream_start : Live (streamState 0 waitingCh quietCtx) ∧ (streamState 0 waitingCh quietCtx).dev.working 0 5 = true
    ∧ (((streamState 0 waitingCh quietCtx).dev.fresh.clusterRun 0 5).getCluster 0).chIn = waitingCh := by decide

theorem witness_stream_complete :
    (((streamState 0 (movedCh true) quietCtx).dev.fresh.clusterRun 0 5).getCluster 0).chIn.run = (movedCh true).run
    ∧ (((streamState 0 (movedCh true) quietCtx).dev.fresh.clusterRun 0 5).getCluster 0).chRouted.run = (movedCh true).run
    ∧ ((streamState 0 (movedCh true) quietCtx).dev.fresh.clusterRun 0 5).streamRides 0 (streamJob true (some 3)) = none := by decide

/-! ## Slabs -/

/-- A ready device whose half 0 runs a job; context 0 of slab 0 has one command and one descriptor. -/
def slabState (h : SlabCmd) (e : List DescWords) (s : Slab) : State :=
  let d := { Dev.reset with
    boot := { Dev.reset.boot with phase := .ready }
    dies.halves := [(0, { partition := some 0 })]
    parts := [(0, { live := true, halves := 1, job := { state := 2, jobBeat := 3 } })]
    slab.slabs := [(0, s)]
    slab.ctxs := [(0, { bound := true, started := true, cmds := [encodeSlab h, encodeSlab h], descs := e })] }
  ⟨d, []⟩

/-- A command without a wait or a signal. -/
def plain (o : SlabOp) : SlabCmd := ⟨Attach.none, o⟩

/-- The command dispatches in cycle 5 of the beat. -/
def plainDispatches (o : SlabOp) : Bool := dispatches (slabState (plain o) [] {}) 0 0 5 (plain o)

theorem witness_slab_plain : [SlabOp.sync, .nop, .base 1 64 8, .loop 2 1 0, .barrier 3 false, .finish].all plainDispatches = true
    ∧ (slabCtx (slabState (plain (.barrier 3 false)) [] {}) 0 0 5).arrived = false := by decide

/-- A pass over array 0 with one input row, a Streak command, a drain of one row and a DMA of descriptor 0. -/
def onePass : PassOp := ⟨0, 0, 0, 4, 16, 16, 1, 1, false, 0, 0, 0, 0⟩
def oneStreak : StreakOp := ⟨0, 0, 16, 16, 1, false, 0, false, 0, 0, 0, 0⟩
def oneDrain : DrainOp := ⟨0, 0, 1, 1, 16, 0, 0, false, 0, 0, false, false, false, 0, 0, 0, 0, 0, 0, 0, 0⟩
def oneDesc : Desc := ⟨0, 0, 0, 0, 0, 4, 16, 16, 1, 0, 1, false, 0, 0, 0, 0, 0, 0, 0, 16, 0, 0⟩

theorem witness_pass :
    let s := slabState (plain (.pass onePass)) [] {}
    dispatches s 0 0 700 (plain (.pass onePass)) = true
    ∧ ((slabDev s 0 700).getSlab 0).seq.selected.any (fun sel => (slabDev s 0 700).passMay 0 0 700 (onePass.resolve (slabCtx s 0 0 700)) sel) = true := by
  decide

theorem witness_streak :
    let s := slabState (plain (.streak oneStreak)) [] {}
    dispatches s 0 0 700 (plain (.streak oneStreak)) = true
    ∧ ((slabDev s 0 700).selectStreak 0 700).streakMay 0 0 700 (oneStreak.resolve (slabCtx s 0 0 700)) = true := by decide

theorem witness_drain :
    let s := slabState (plain (.drain oneDrain)) [] {}
    dispatches s 0 0 5 (plain (.drain oneDrain)) = true ∧ (slabDev s 0 5).drainCan 0 0 5 = true ∧ (slabDev s 0 5).drainCan 0 1 5 = false := by decide

theorem witness_dma :
    let s := slabState (plain (.dma 0 0 0 0)) [encodeDesc oneDesc] {}
    dispatches s 0 0 5 (plain (.dma 0 0 0 0)) = true ∧ (slabCtx s 0 0 5).codeErr.contains (descErrKey 0) = false
    ∧ ((slabCtx s 0 0 5).descs[0]?).bind decodeDesc = some oneDesc ∧ ((slabDev s 0 5).getSlab 0).seq.queued 0 < 16 := by decide

/-- A slab with a finished pass, Streak command and drain of context 1, a descriptor that waits and one whose bytes are there. -/
def busySlab : Slab :=
  { seq := { inflight := [⟨1, 0, 0, 3, none, Attach.none⟩, ⟨1, 1, 0, 3, none, Attach.none⟩, ⟨1, 2, 0, 3, none, Attach.none⟩]
             dmaQ := [⟨1, { oneDesc with src := 1 }, Attach.none, 0, none, none, [], []⟩]
             dmaRun := [⟨1, oneDesc, Attach.none, 0, some 1, some 2, List.replicate 256 ⟨0, false⟩, []⟩] } }

theorem witness_slab_completion :
    let s := slabState (plain .nop) [] busySlab
    slabRuns s 0 5 = true
    ∧ [0, 1, 2].all (fun kind => (((slabRun s 0 5).getSlab 0).seq.inflight.find? (fun f => f.x == 1 && f.kind == kind && decide (f.done ≤ 5))).isSome)
    ∧ ((slabRun s 0 5).getSlab 0).seq.nextDesc true = some ⟨1, { oneDesc with src := 1 }, Attach.none, 0, none, none, [], []⟩
    ∧ ((slabRun s 0 5).getSlab 0).seq.mayStart true 5 ⟨1, { oneDesc with src := 1 }, Attach.none, 0, none, none, [], []⟩ = true := by decide

/-- A descriptor of the memory channel whose last byte is there by the cycle after it is over. -/
theorem witness_dma_over :
    let s := slabState (plain .nop) [] busySlab
    (((slabRun s 0 300).getSlab 0).seq.dmaRun.find? (fun j => j.finished false 300)).isSome = true := by decide

theorem witness_slab_task :
    let s := slabState (plain .nop) [] {}
    let t : State := ⟨{ s.dev with slab.ctxs := [(0, { bound := true, started := true, ended := true })] }, []⟩
    slabRuns t 0 5 = true ∧ ((slabDev t 0 5).getSlab 0).allDone 0 = true ∧ (slabDev t 0 5).signalsOpen (tileOfSlab 0) 0 5 = false
    ∧ ((slabDev t 0 5).getSCtx 0).endDone = false := by decide

/-! ## The mesh, gravel, cairns and barriers -/

/-- A ready device whose half 0 runs a job of partition 0 in job beat 3. -/
def ranDev : Dev :=
  { Dev.reset with
    boot := { Dev.reset.boot with phase := .ready }
    dies.halves := [(0, { partition := some 0 })]
    parts := [(0, { live := true, halves := 1, job := { state := 2, jobBeat := 3 } })] }

/-- Entry 0 of the tile at row 0 and column 2 moves one lane from N to S at cycle 10; entry 0 of the hub tile reads HBM at cycle 200. -/
def meshState : State :=
  ⟨{ ranDev with mesh := { ranDev.mesh with slots := [(0, BitVec.ofNat 64 (200 + 2 ^ 11 + 2 ^ 22 * 4 + 2 ^ 48 + 2 ^ 63)),
      (2048, BitVec.ofNat 64 (10 + 2 ^ 11 + 2 ^ 22 * 2 + 2 ^ 25 + 2 ^ 48 + 2 ^ 63))] } }, []⟩

theorem witness_slot_entry :
    meshState.found.holder (tHalf 2) = some 0 ∧ meshState.found.working 0 10 = true
    ∧ (let e := (tabGet 0 (entryKey 2 0) meshState.found.mesh.slots).toNat
      eFires e 3 = true ∧ eCovers e 10 = true)
    ∧ (let e := (tabGet 0 (entryKey 0 0) meshState.found.mesh.slots).toNat
      eFires e 3 = true ∧ eIn e = 0 ∧ tCol 0 = 0 ∧ eCovers e (72 + hbmLead 0) = true ∧ 72 + hbmLead 0 < beatCycles 0 ∧ meshState.found.working 0 72 = true) := by
  decide

def gravelState : State :=
  ⟨{ ranDev with
     pow := { ranDev.pow with slope := 1 }
     powu := { ranDev.powu with rails := [(0, { coeff := 0 })] }
     slab.slabs := [(0, { regs := { gravelEn := true }, pow.activity := [(10, 40)] }), (1, { regs := { gravelEn := true } })] }, []⟩

theorem witness_gravel :
    (gravelState.found.getSlab 0).regs.gravelEn = true ∧ gravelState.found.now 0 64 = 64 ∧ 64 < gravelState.found.cyclesOf 0
    ∧ streamedIn 64 (gravelState.found.getSlab 0).pow.activity = 40 ∧ (gravelState.found.getSlab 1).regs.gravelEn = true
    ∧ streamedIn (gravelState.found.now 0 512) (gravelState.found.getSlab 1).pow.activity = 0
    ∧ (gravelState.found.getSlab 1).pow.gravelAt + 64 * (gravelState.found.gravelPace 0).2 ≤ gravelState.found.now 0 512 := by decide

theorem witness_cairn_timeouts :
    let s : State := ⟨{ ranDev with cairn := { ranDev.cairn with waiters := [⟨0, 1, 5, 2, 9, false, 3, 3, none⟩], signals := [⟨8, 0, 7, 0, 6, 2, 1, 1, 0, 1, true⟩] } }, []⟩
    (s.found.cairnFlush 0 (s.found.now 0 0 + 1)).cairn.waiters.find? (fun w => w.tile == 0 && w.id == 1) = some ⟨0, 1, 5, 2, 9, false, 3, 3, none⟩
    ∧ s.dev.cairn.signals.find? (fun o => o.tag == 7) = some ⟨8, 0, 7, 0, 6, 2, 1, 1, 0, 1, true⟩ := by decide

/-- Channel 2 of a die, with the arrival of context 0 and perhaps of context 1. -/
def barrierChannel (arrived : Bool) : BarrierCh :=
  { assigned := true, partition := 0, timer := [(0, 5000)]
    arrivals := [⟨0, 0, 0, false, 1, 20, false⟩] ++ (if arrived then [⟨0, 1, 0, false, 1, 20, false⟩] else []) }

/-- Contexts 0 and 1 of slab 0 are the members of channel 2 of die 0, and the round's timer has run out. -/
def barrierState (arrived : Bool) (rb : Nat) : State :=
  ⟨{ ranDev with
     parts := [(0, { live := true, halves := 1, job := { state := 2, jobBeat := 3, lockstep := true } })]
     slab.ctxs := [(0, { bound := true, started := true })]
     cairn := { ranDev.cairn with maps := [(0, { owner := some 0, barrierMask := 4, releaseBeats := [0, 0, rb] }), (1, { owner := some 0, barrierMask := 4, releaseBeats := [0, 0, rb] })] }
     barr := { ranDev.barr with ch := [(2, barrierChannel arrived)] } }, []⟩

theorem witness_barrier :
    (barrierState true 0).found.roundDone 0 2 = true ∧ ((barrierState true 0).found.dueNow 0 2 24).length = 2
    ∧ ((barrierState true 2).found.dueNow 0 2 ((barrierState true 2).found.now 0 0)).length = 2
    ∧ (barrierState true 0).found.now ((barrierState true 0).found.chanHalf 0 2) 24 = 24
    ∧ (barrierState false 2).found.roundDone 0 2 = false ∧ (barrierState false 2).found.doneBefore 0 2 = false
    ∧ (barrierState false 2).found.lockChan 0 2 = true
    ∧ (barrierState false 2).found.releaseBeats 0 2 = 2 ∧ (barrierState false 2).found.chanBeat 0 2 = 3
    ∧ (barrierState false 2).found.chanLimit 0 2 ≤ 5000 := by decide

/-! ## The beat -/

/-- A ready follower of domain 1 with port 3 in its mask. -/
def followDev (st : Nat) : Dev :=
  let d := ranDev
  { d with
    beat := { d.beat with role := 2, state := st, domain := 1, maskVein := 8, parentPort := 3, master := 9 }
    aux := { d.aux with alignGood := 64 } }

/-- The header of beat 500 from a master at HOP 0. -/
def header500 : Header := ⟨0, false, false, 500, 17, 0, 8, 9, 1, 0⟩

theorem witness_header : readHeader (headerBytes header500) = some header500 := by decide +kernel

theorem witness_beat_header :
    [bsSearching, bsAligning, bsLocked].all (fun st => (followDev st).portListens 3 && (followDev st).headerValid 3 header500
      && !((followDev st).getBPort 3).gotThis && decide ((followDev st).beat.highWater < 500)) = true
    ∧ (followDev bsLocked).portListens 3 = true := by decide

/-- The parent is another port. -/
theorem witness_other_parent : (followDev bsLocked).beat.parentPort ≠ 2 := by decide

theorem witness_beat_commands :
    let d := followDev bsLocked
    let far : Dev := { d with clock := { d.clock with wall := 2000 } }
    let errs : Dev := { far with aux := { far.aux with alignErrs := List.replicate 16 40 } }
    errs.aux.alignErrs.length = 16 ∧ 512 < (errs.aux.alignErrs.foldl (· + ·) 0).natAbs ∧ 64 ≤ errs.clock.wall - errs.aux.alignWait
    ∧ 4 ≤ ({ d with aux := { d.aux with missing := 3 } } : Dev).aux.missing + b2n (!({ d with aux := { d.aux with missing := 3 } } : Dev).heardBeat)
    ∧ 1024 ≤ far.clock.wall - far.aux.joinSince ∧ 1024 ≤ far.clock.wall - far.aux.lossSince := by decide

theorem witness_parent_switch :
    let d := followDev bsLocked
    let e : Dev := { d with beat := { d.beat with maskVein := 24, ports := [(3, { misses := 1 }), (4, { good := 16, hop := 2 })] } }
    2 ≤ (e.getBPort 3).misses + b2n (!(e.getBPort 3).gotThis) ∧ e.chooseParent (some 3) = some 4 := by decide

theorem witness_beat_in :
    let d : Dev := { ranDev with beat := { ranDev.beat with role := 1, source := 1, state := bsMaster, beatInOk := true } }
    d.followsIn = true ∧ d.beat.role = 1 ∧ d.beat.source = 1 ∧ d.beat.state = bsMaster := by decide

theorem witness_edge :
    let d : Dev := { ranDev with aux := { ranDev.aux with startPending := some 100 } }
    ranDev.aux.startPending = none ∧ (followDev bsLocked).inBeat = true ∧ ranDev.inBeat = false ∧ d.aux.startPending = some 100 ∧ d.beat.source = 0
    ∧ Dev.reset.boot.phase.live = true ∧ (Phase.noPower).live = false := by decide

theorem witness_seam_change :
    let d : Dev := { ranDev with clock := { ranDev.clock with wall := 40 } }
    let a := d.modSeam 0 (fun s => { s with queue := [⟨none, some 3⟩] })
    let b := d.modSeam 0 (fun s => { s with current := some ⟨none, some 3⟩, changeAt := 26 })
    (a.getSeam 0).current = none ∧ (a.getSeam 0).queue = [⟨none, some 3⟩] ∧ (a.getSeam 0).changes = 0
    ∧ (b.getSeam 0).current.isSome = true ∧ (b.getSeam 0).changeAt + 14 ≤ b.clock.wall := by decide

theorem witness_oppoint :
    let i : Image := ⟨0, false, 2, 1, 0, 0, [], [⟨0, 0, 2⟩, ⟨3, 1, 2⟩], 0, [], false⟩
    let d := ranDev.modPart 0 (fun p => { p with image := some i })
    i.pointAt (d.getPart 0).job.jobBeat = some 1 ∧ (d.getPart 0).running = true ∧ (d.getPart 0).job.waitStart = false
    ∧ (d.getPart 0).job.oppIndex ≠ 1 := by decide

/-! ## Reset and boot -/

/-- The device in a phase of the boot, 2,000 beats later. -/
def bootDev (p : Phase) : Dev :=
  { Dev.reset with
    boot := { Dev.reset.boot with phase := p }
    clock := { Dev.reset.clock with wall := 10000000 } }

theorem witness_self_reset :
    let d := (bootDev .ready).modLink 16 (fun l => { l with regs.state := 4 })
    let e : Dev := { d with bed := { d.bed with ready := true } }
    e.bed.ready = true ∧ e.d2dDown = true ∧ (bootDev .selfReset).due 0 1000000 = true ∧ (bootDev .selfReset).boot.since = 0 := by decide

theorem witness_reset_pin :
    let d : Dev := { bootDev .heldReset with pins := { (bootDev .heldReset).pins with resetN := false, resetActed := true } }
    let e : Dev := { bootDev .heldReset with pins := { (bootDev .heldReset).pins with resetN := true, resetWait := true } }
    d.pins.resetN = false ∧ d.pins.resetActed = true ∧ e.pins.resetWait = true ∧ e.pins.resetN = true ∧ d.boot.phase ≠ .noPower := by decide

theorem witness_stages : (upTo 7).all (fun n => decide ((bootDev (.stage n)).boot.phase = .stage n)
    && (bootDev (.stage n)).due (bootDev (.stage n)).boot.since (1000000 * stageLimit n)) = true
    ∧ (bootDev (.stage 2)).boot.record.attempt < 2 := by decide

theorem witness_second_attempt :
    let d : Dev := { bootDev (.stage 2) with boot := { (bootDev (.stage 2)).boot with record := { (bootDev (.stage 2)).boot.record with attempt := 2 } } }
    2 ≤ d.boot.record.attempt := by decide

theorem witness_d2d_active :
    ((upTo 4).foldl (fun (d : Dev) l => d.modLink (16 + l) (fun x => { x with regs.state := 3 })) (bootDev (.stage 5))).d2dActive = true := by decide

/-! ## The routed plane -/

/-- A packet of a kind from slab 1 to slab 0 of P0 with four bytes of data, TAG 7, cairn 3 and increment 1. -/
def packetOf (kind : Nat) : Packet :=
  let addr := if kind = 0 ∨ kind = 1 ∨ kind = 6 then dpaQuarry 0 0 64 else 0
  let n := if kind = 3 ∨ kind = 4 then 0 else 4
  mkPacket 2 6 0 kind 0 false (msgHeader addr 0 0 n 7 3 (if kind = 4 then 1 else 0) 0) (if kind = 0 ∨ kind = 2 ∨ kind = 6 then List.replicate 4 ⟨9, false⟩ else [])

/-- Slab 0 waits for the answer of a READ (kind 1) and of a WRITE. -/
def askedDev (kind : Nat) : Dev := { ranDev with fab := { ranDev.fab with requests := [⟨2, 6, 7, kind, 0, 0, 4, 0, 0, .signal, 0⟩] } }

theorem witness_delivery :
    [0, 1, 2, 3, 4, 6].all (fun k => routerOf (packetOf k).dest == 2 && formatOk (packetOf k)) = true
    ∧ ranDev.hbmWaits (pAddr (packetOf 0)) = false ∧ ranDev.fwdPacket (packetOf 0) = false ∧ ranDev.nodeSlot 2 (packetOf 6) = none
    ∧ (((askedDev 1).takeLocal 2 0 (packetOf 2)).requestOf (packetOf 2)).isSome = true
    ∧ (((askedDev 0).takeLocal 2 0 (packetOf 3)).requestOf (packetOf 3)).isSome = true
    ∧ (ranDev.takeLocal 2 0 (packetOf 2)).requestOf (packetOf 2) = none ∧ cairnOfUnit (epUnit 2) = some 0 := by decide +kernel

/-- Entry 0 of hub tile 0 reduces group 0 from slabs 1 and 2. -/
def nodeDev (full : Bool) : Dev :=
  { ranDev with fab := { ranDev.fab with
    reduce := [(0, 1 + 2 ^ 9 + 2 ^ 10), (1, 6 + 2 ^ 32 * 10)]
    nodes := if full then [⟨0, 0, 0, 7, 0, 0, [(1, packetOf 6)]⟩] else [] } }

theorem witness_node :
    (nodeDev false).nodeSlot 0 (packetOf 6) = some (0, 0) ∧ (nodeDev true).nodeSlot 0 (packetOf 6) = some (0, 0)
    ∧ ((nodeDev true).takeLocal 0 0 (packetOf 6)).reduceSlots 0 0 = 2 ∧ ((nodeDev false).takeLocal 0 0 (packetOf 6)).reduceSlots 0 0 = 2
    ∧ (nodeDev true).fab.closedTags.contains (0, 0, 7) = false ∧ redMismatch [packetOf 6, packetOf 6] = false
    ∧ (tabInsert 0 (packetOf 6) [(1, packetOf 6)]).length = 2 := by decide

/-- A packet that waits at a place of the plane since beat 0; now it is beat 5. -/
def queuedDev (out : Nat) : Dev :=
  { ranDev with
    clock := { ranDev.clock with wall := 5 }
    fab := { ranDev.fab with queue := [⟨2, 4, out, 0, false, 0, packetOf 0⟩] } }

theorem witness_plane :
    (queuedDev 129).upstream 2 4 (packetOf 0) = some ⟨2, 4, 129, 0, false, 0, packetOf 0⟩
    ∧ (queuedDev 2).upstream 6 1 (packetOf 0) = some ⟨2, 4, 2, 0, false, 0, packetOf 0⟩
    ∧ (queuedDev 2).nextOf 2 2 (fun v => decide ((queuedDev 2).bufferUse 6 1 v < 8)) = some ⟨2, 4, 2, 0, false, 0, packetOf 0⟩
    ∧ (queuedDev 2).seamOpen 2 2 = true
    ∧ (queuedDev 2).route 2 4 { packetOf 0 with vc := 3, esc := true } = .out 0 ∧ 256 ≤ (queuedDev 2).stampAge 2 0 0 := by decide +kernel

theorem witness_timeouts :
    let d : Dev := { askedDev 1 with clock := { ranDev.clock with wall := 10000 } }
    let e : Dev := { nodeDev true with clock := { ranDev.clock with wall := 10000 } }
    (d.fab.requests.find? (fun r => r.tag == 7 && d.due r.since (1000 * (d.getPartFab r.part).timeoutUs)
        && !d.fab.queue.any (fun q => q.outPort == atSource && q.pkt.src == r.src && pTag q.pkt == r.tag))).isSome = true
    ∧ (e.fab.nodes.find? (fun n => n.hub == 0 && n.group == 0 && n.tag == 7)).isSome = true
    ∧ e.due 0 (1000 * (e.getPartFab 0).timeoutUs) = true := by decide

/-! ## Links -/

/-- Port 3 in a state at wall beat 30,000,000 with an allotment that claims slots 8 to 15 both ways, and more of its registers. -/
def linkDev (state : Nat) (f : Link → Link) : Dev :=
  let a : Allot := { port := 3, highest := 0, widthProof := false, release0 := 0, release1 := 0, txEntries := [8 + 2 ^ 11 * 8, 8 + 2 ^ 11 * 8 + 2 ^ 41] }
  let d : Dev := { ranDev with clock := { ranDev.clock with wall := 30000000 } }
  d.modLink 3 (fun l => f { l with regs.state := state, regs.width := 16, sched.allot := some a, sched.owner := 0 })

/-- A flit of zeros but for some bytes from byte 8 on. -/
def flitOf (mid : List Byte) : List Byte := List.replicate 8 0 ++ mid ++ List.replicate (264 - mid.length) 0

/-- Two multiples of the generator of R391 from byte 8 on, with HKIND 7 and SUB 3: CHECK (R390) holds in the first only. -/
def goodFlit : List Byte := flitOf [31, 243, 187, 37, 236, 191, 162, 0, 180, 17, 252, 64, 150, 56, 56, 47, 235, 44, 63, 219]
def badFlit : List Byte := flitOf [31, 240, 241, 41, 172, 177, 188, 144, 232, 120, 81, 116, 101, 206, 194, 2, 15, 69, 146]

theorem flitOf_length (mid : List Byte) (h : mid.length ≤ 264) : (flitOf mid).length = 272 := by
  simp only [flitOf, List.length_append, List.length_replicate]
  omega

theorem gfMulBits_zero (n b : Nat) : gfMulBits n 0 b = 0 := by
  induction n generalizing b with
  | zero => rfl
  | succ n ih => simp [gfMulBits, ih]

theorem syndrome_zeros (n i : Nat) : (List.replicate n 0).foldl (fun a b => gfMul a (gfAlpha i) ^^^ b) 0 = 0 := by
  induction n with
  | zero => rfl
  | succ n ih => simpa [List.replicate_succ, gfMul, gfMulBits_zero] using ih

/-- A flit of zeros around bytes that are a multiple of the generator is a word of the code. -/
theorem syndromes_flitOf (mid : List Byte)
    (h : ((upTo 16).map (fun i => (mid.map BitVec.toNat).foldl (fun a b => gfMul a (gfAlpha i) ^^^ b) 0)).all (· == 0) = true) :
    (rsSyndromes ((flitOf mid).map BitVec.toNat)).all (· == 0) = true := by
  simp only [rsSyndromes, flitOf, List.map_append, List.map_replicate, List.foldl_append]
  simp only [List.all_map, List.all_eq_true, Function.comp, beq_iff_eq] at h ⊢
  intro i hi
  rw [show (0 : Byte).toNat = 0 from rfl, syndrome_zeros, h i hi, syndrome_zeros]

theorem readFlit_flitOf (mid : List Byte)
    (h : ((upTo 16).map (fun i => (mid.map BitVec.toNat).foldl (fun a b => gfMul a (gfAlpha i) ^^^ b) 0)).all (· == 0) = true) :
    readFlit (flitOf mid) = (if checkOk (flitOf mid) then some ((flitOf mid).take 256) else none, false) := by
  simp only [readFlit, rsCorrect, syndromes_flitOf mid h, if_true]
  split <;> simp [*]

theorem crc_zeros (n : Nat) : crcRun 8 7 0 (List.replicate n 0) = 0 := by
  induction n with
  | zero => rfl
  | succ n ih => exact ih

theorem flitOf_check (mid : List Byte) (h : 8 ≤ mid.length) : (flitOf mid).getD 15 0 = mid.getD 7 0 := by
  simp only [flitOf, List.getD_eq_getElem?_getD, List.append_assoc]
  rw [List.getElem?_append_right (by simp), List.getElem?_append_left (by simp; omega)]
  simp

theorem flitCheck_flitOf (mid : List Byte) (h : 8 ≤ mid.length) (hm : mid.length ≤ 248)
    (hc : crcRun 8 7 0 (List.replicate 8 0 ++ mid.take 7 ++ [0] ++ mid.drop 8) = 0) : flitCheck (flitOf mid) = 0 := by
  have e1 : (flitOf mid).take 15 = List.replicate 8 0 ++ mid.take 7 := by
    simp [flitOf, List.take_append, List.take_replicate, show 7 - mid.length = 0 by omega]
  have e2 : ((flitOf mid).drop 16).take 240 = mid.drop 8 ++ List.replicate (248 - mid.length) 0 := by
    simp only [flitOf, List.drop_append, List.length_replicate, List.drop_replicate, List.take_append, List.length_drop,
      List.append_assoc]
    rw [show 8 - 16 = 0 from rfl, show 16 - 8 = 8 from rfl, show 8 - mid.length = 0 by omega]
    simp only [List.replicate_zero, List.nil_append, Nat.sub_zero, List.take_replicate, List.take_nil]
    rw [List.take_of_length_le (by simp; omega)]
    congr 2
    omega
  have run : ∀ (a b : List Byte), crcRun 8 7 0 (a ++ b) = crcRun 8 7 (crcRun 8 7 0 a) b := fun a b => List.foldl_append ..
  rw [flitCheck, e1, e2, ← List.append_assoc, run, hc, crc_zeros]

theorem witness_good_flit :
    goodFlit.length = 272 ∧ readFlit goodFlit = (some (goodFlit.take 256), false) ∧ hKind (flitHeader (goodFlit.take 256)) = 7
    ∧ hSub (flitHeader (goodFlit.take 256)) = subSched := by
  refine ⟨flitOf_length _ (by decide), ?_, by decide +kernel, by decide +kernel⟩
  have hc : checkOk goodFlit = true := by rw [checkOk, goodFlit, flitCheck_flitOf _ (by decide) (by decide) (by decide +kernel), flitOf_check _ (by decide)]; rfl
  rw [goodFlit, readFlit_flitOf _ (by decide +kernel), ← goodFlit, if_pos hc]

theorem witness_bad_flit : badFlit.length = 272 ∧ readFlit badFlit = (none, false) := by
  refine ⟨flitOf_length _ (by decide), ?_⟩
  have hc : checkOk badFlit = false := by rw [checkOk, badFlit, flitCheck_flitOf _ (by decide) (by decide) (by decide +kernel), flitOf_check _ (by decide)]; rfl
  rw [badFlit, readFlit_flitOf _ (by decide +kernel), ← badFlit, if_neg (by simp [hc])]

theorem witness_link_slots :
    let d := linkDev 3 (fun l => { l with sched.rx := [⟨3, 8, [⟨1, false⟩]⟩] })
    d.linkUp 3 = true ∧ d.schedSlot 3 (rxDir 3) 8 = true ∧ d.schedSlot 3 (txDir 3) 8 = true ∧ d.schedSlot 3 (rxDir 3) 20 = false
    ∧ 8 < 40 * (d.getLink (linkReg 3)).regs.width ∧ d.allotBeat 3 = 3 ∧ (d.getPart 0).running = true
    ∧ (d.getLink 3).sched.allot.any (fun a => decide (tRel a 3 8 < 65280) && a.claims (rxDir 3) 8 3) = true
    ∧ ((d.getLink 3).sched.rx.find? (fun r => r.slot == 8 && r.beat == 3)).isSome = true := by decide

theorem witness_replay :
    let n := ctrlPayload 0x0C01 7 9 1
    let p := ctrlPayload 0x0C02 7 9 0
    let d := linkDev 3 (fun l => { l with routed.record := [⟨7, 9, some 0, [], 0⟩], routed.naks := [⟨7, 9, 0, 3⟩, ⟨7, 10, 0, 1⟩] })
    let e := linkDev 3 (fun l => { l with routed.naks := [⟨7, 10, 0, 1⟩] })
    n.length = 240 ∧ leAt n 0 2 = 0x0C01 ∧ p.length = 240 ∧ leAt p 0 2 = 0x0C02 ∧ leAt n 2 7 = 7 ∧ leAt n 9 2 = 9 ∧ d.linkUp 3 = true
    ∧ (d.getLink 3).routed.record.find? (fun f => f.beat == 7 && f.slot == 9) = some ⟨7, 9, some 0, [], 0⟩
    ∧ (d.getLink 3).routed.naks.find? (fun x => d.due x.since 4000) = some ⟨7, 9, 0, 3⟩
    ∧ (e.getLink 3).routed.naks.find? (fun x => e.due x.since 4000) = some ⟨7, 10, 0, 1⟩ := by decide +kernel

/-- A training block of stage LOCK with DONE. -/
def lockBlock : List Byte :=
  let b := natLe 2 0x7E81 ++ natLe 1 1 ++ natLe 1 0 ++ natLe 1 1 ++ natLe 2 0 ++ natLe 1 1 ++ List.replicate 52 0
  b ++ natLe 4 (crc32c b)

theorem witness_training_block :
    lockBlock.length = 64 ∧ leAt lockBlock 0 2 = 0x7E81 ∧ crc32c (lockBlock.take 60) = leAt lockBlock 60 4 ∧ leAt lockBlock 2 1 = 1
    ∧ (leAt lockBlock 7 1).testBit 0 = true := by decide +kernel

theorem witness_training :
    let at_ := fun (st stage : Nat) => linkDev st (fun l => { l with train := { l.train with stage := stage, round := 1, lanesUp := 15 }, regs.autoRetry := true })
    let last := linkDev 2 (fun l => { l with regs.attempt := 3, train := { l.train with stage := 5, round := 2, lanesUp := 15 } })
    (at_ 2 1).due 0 (stageNs 1 false) = true ∧ (at_ 2 5).due 0 1000000 = true ∧ (last.getLink 3).ownMask 3 % 16 = 15 ∧ (last.getLink 3).regs.attempt = 3
    ∧ (last.getLink 3).train.ownDone = false ∧ (at_ 4 0).due 0 10000000000 = true ∧ ((at_ 3 0).getLink 3).regs.state = 3
    ∧ ((at_ 2 7).getLink 3).train.stage = 7 := by decide

theorem witness_mate :
    let d : Dev := { linkDev 4 id with mirror := { ranDev.mirror with matePort := some 3 } }
    d.mirror.matePort = some 3 ∧ (d.getLink 3).regs.state ≠ 3 := by decide

/-! ## Mailbox commands -/

/-- The first 52 bytes of a descriptor (R445) with TAG 5 and SEQ 1, in session 9. -/
def descHead (opcode part bufLen a0 a1 a2 : Nat) : List Byte :=
  natLe 2 opcode ++ natLe 1 0 ++ natLe 1 0 ++ natLe 2 5 ++ natLe 1 part ++ natLe 1 0 ++ natLe 8 0x1000 ++ natLe 4 bufLen ++ natLe 4 1 ++ natLe 8 a0
    ++ natLe 8 a1 ++ natLe 8 a2 ++ natLe 4 9

/-- AUTH of a command of ring 64 or 65 (R477). -/
def authOf (ring : Nat) (head buf : List Byte) (inBuf : Bool) : List Byte :=
  (hashBytes (Config.hmac384 [1] (head ++ natLe 1 ring ++ (if inBuf then hashBytes (Config.sha384 buf) else [])))).take 12

/-- A command of the Installer (ring 64) or the Maker (ring 65), for partition 0. -/
def mbxCmd (ring opcode a0 a1 a2 : Nat) (buf : List Byte) (bufLen : Nat) (inBuf : Bool) : MbxCmd :=
  let h := descHead opcode 0 bufLen a0 a1 a2
  ⟨ring, h ++ authOf ring h buf inBuf, buf, none, false, false, false⟩

/-- A ready device that Bedrock serves, with both sessions open and rings 64 and 65 running; partition 0 holds half 0 and has no job. -/
def servedDev : Dev :=
  let d := { Dev.reset with boot := { Dev.reset.boot with phase := .ready } }
  let open_ : Session := { isOpen := true, id := 9, key := [1], nextSeq := 1 }
  let d : Dev := { d with bed := { d.bed with ready := true }, sec := { d.sec with installer := open_, maker := open_ } }
  let d := (d.modRing 64 (fun r => { r with state := 1, enable := true })).modRing 65 (fun r => { r with state := 1, enable := true })
  (d.modPart 0 (fun p => { p with live := true, halves := 1 })).modHalf 0 (fun h => { h with partition := some 0 })

def served : State := ⟨servedDev, []⟩

theorem natLe_length (n v : Nat) : (natLe n v).length = n := by
  induction n generalizing v with
  | zero => rfl
  | succ n ih => simp [natLe, ih]

theorem descHead_length (o p l a b c : Nat) : (descHead o p l a b c).length = 52 := by simp [descHead, natLe_length]

theorem authOf_length (ring : Nat) (h b : List Byte) (i : Bool) : (authOf ring h b i).length = 12 := by
  simp [authOf, hashBytes, natLe_length]

theorem authOk_mbxCmd (ring opcode a0 a1 a2 : Nat) (buf : List Byte) (n : Nat) (i : Bool) :
    authOk (mbxCmd ring opcode a0 a1 a2 buf n i) [1] i = true := by
  have hd : (mbxCmd ring opcode a0 a1 a2 buf n i).desc.take 52 = descHead opcode 0 n a0 a1 a2 := by
    simp only [mbxCmd]
    rw [List.take_append_of_le_length (by simp [descHead_length]), List.take_of_length_le (by simp [descHead_length])]
  have ha : (mbxCmd ring opcode a0 a1 a2 buf n i).auth = authOf ring (descHead opcode 0 n a0 a1 a2) buf i := by
    have hr : (mbxCmd ring opcode a0 a1 a2 buf n i).desc.drop 52 = authOf ring (descHead opcode 0 n a0 a1 a2) buf i := by
      simp only [mbxCmd]
      rw [List.drop_append_of_le_length (by simp [descHead_length]), List.drop_of_length_le (by simp [descHead_length]), List.nil_append]
    simp only [MbxCmd.auth, slice, hr]
    rw [List.take_of_length_le (by simp [authOf_length])]
    simp [authOf_length]
  simp only [authOk, ha, hd, beq_iff_eq]
  rfl

/-- Everything of `mbxReady` but AUTH, as a test. -/
def readyBut (s : State) (sp : MbxSpec) (c : MbxCmd) : Bool :=
  let d := s.found
  d.boot.phase.live && d.serving && c.opcode == sp.opcode && decide (c.ring < 66) && !(d.getRing c.ring).executing && !d.mustPark c
  && sp.roles.testBit (ringRole c.ring) && decide (64 ≤ c.ring) && (d.ringSession c.ring).isOpen && (d.ringSession c.ring).id == c.session
  && c.seq == (d.ringSession c.ring).nextSeq && (d.ringSession c.ring).key == [1] && (reservedOf c sp).isNone && (d.conflictRing sp c).isNone

theorem mbxReady_of (s : State) (sp : MbxSpec) (ring opcode a0 a1 a2 : Nat) (buf : List Byte) (n : Nat)
    (h : readyBut s sp (mbxCmd ring opcode a0 a1 a2 buf n sp.inBuf) = true) : mbxReady s sp (mbxCmd ring opcode a0 a1 a2 buf n sp.inBuf) := by
  simp only [readyBut, Bool.and_eq_true, beq_iff_eq, decide_eq_true_eq, Bool.not_eq_true', Option.isNone_iff_eq_none] at h
  obtain ⟨⟨⟨⟨⟨⟨⟨⟨⟨⟨⟨⟨⟨h1, h2⟩, h3⟩, h4⟩, h5⟩, h6⟩, h7⟩, h8⟩, h9⟩, h10⟩, h11⟩, h12⟩, h13⟩, h14⟩ := h
  refine ⟨h1, h2, h3, h4, h5, h6, h7, fun hr => absurd h8 (by omega), fun _ _ => ⟨h9, h10, h11, ?_⟩, h13, fun _ => h14, rfl, rfl⟩
  rw [h12]
  exact authOk_mbxCmd ..

/-- Commands of ring 64 on the beat and the fabric. -/
def cmd64 (opcode a0 a1 a2 : Nat) : MbxCmd := mbxCmd 64 opcode a0 a1 a2 [] 0 false

theorem witness_fabric_commands :
    readyBut served beatConfigSpec (cmd64 0x0030 (2 + 2 ^ 16 * 1 + 2 ^ 32 * 8) 0 0) = true ∧ served.found.lockBusy = false
    ∧ readyBut served linkConfigSpec (cmd64 0x0031 3 1 0) = true ∧ served.found.portOut 3 = false ∧ served.found.lockSlot 3 = none
    ∧ readyBut served fabricSelfSpec (cmd64 0x0032 0 7 0) = true
    ∧ readyBut served fabricPartitionSpec (cmd64 0x0032 1 (1 + 2 ^ 8 * 100) 0) = true ∧ (served.found.getPart 0).busy = false
    ∧ readyBut served fabricTreeSpec (cmd64 0x0032 (2 + 2 ^ 8 * 15) 3 0) = true ∧ served.found.lockChannel 15 = false
    ∧ readyBut served fabricApertureSpec (cmd64 0x0032 (3 + 2 ^ 8 * 2) 3 0) = true := by decide +kernel

/-- An entry for device 5: valid, out of port 2. -/
def routeBuf : List Byte := natLe 4 5
def routeCmd : MbxCmd := mbxCmd 64 0x0033 (2 ^ 16 * 5) 1 0 routeBuf 4 true

theorem witness_route_table :
    readyBut served routeTableSpec routeCmd = true ∧ routeCmd.bufLen = 4 * fld routeCmd.a1 0 16 ∧ fld routeCmd.a0 16 16 + fld routeCmd.a1 0 16 ≤ 4096
    ∧ drainUs routeCmd.a1 = 5000 ∧ served.found.fab.change = none ∧ entryFlaw 0 5 (leAt routeCmd.buffer 0 4) = none := by decide +kernel

theorem witness_route_drain :
    let x : RouteChange := { table := 0, sel := 0, first := 5, values := [5], drainUs := 5000, since := 0, held := [] }
    let d : Dev := { servedDev with clock := { servedDev.clock with wall := 100000 }, fab := { servedDev.fab with change := some x } }
    d.boot.phase.live = true ∧ d.affectedLeft x = false ∧ d.due x.since (1000 * x.drainUs) = true := by decide

/-- Two operating points. -/
def pointBuf : List Byte := natLe 8 (16 + 2 ^ 8 * 16) ++ natLe 8 (4 + 2 ^ 8 * 8)
def pointCmd : MbxCmd := mbxCmd 64 0x0041 2 0 0 pointBuf 16 true

theorem witness_power_commands :
    readyBut served powerCapSpec (cmd64 0x0040 0 1000 0) = true ∧ readyBut served powerOrderSpec (cmd64 0x0040 1 (2 + 4 * 1) 0) = true
    ∧ readyBut served powerIdleSpec (cmd64 0x0040 2 1 0) = true ∧ readyBut served powerGravelSpec (cmd64 0x0040 3 15 300) = true
    ∧ readyBut served powerScrubSpec (cmd64 0x0040 4 (168 + 2 ^ 8 * 12) 0) = true
    ∧ readyBut served oppointSpec pointCmd = true ∧ served.found.pointsUsed = [] ∧ pointCmd.bufLen = 16
    ∧ firstEntry 2 8 (pointReserved pointBuf) = none ∧ firstEntry 2 8 (fun i => pointRange (pointAt pointBuf i)) = none := by decide +kernel

theorem witness_guarantee :
    (upTo 4).all (fun k => readyBut served (guaranteeSpec k) (cmd64 0x0042 (16 * k + 2 ^ 8) (if k = 3 then 5 + 2 ^ 32 else if k = 2 then 500 else if k = 1 then 4 + 2 ^ 8 * 16 else 1) 0)) = true
    ∧ guarRange 0 1 0 = none ∧ guarRange 1 4 16 = none ∧ guarRange 2 500 0 = none ∧ guarRange 3 5 1 = none ∧ (served.found.getPart 0).image = none := by
  decide +kernel

theorem witness_read_commands :
    readyBut served deviceInfoSpec (mbxCmd 64 0x0001 0 0 0 [] 4096 false) = true ∧ readyBut served jobStatusSpec (cmd64 0x0023 0 0 0) = true
    ∧ readyBut served energyReadSpec (cmd64 0x0043 0 0 0) = true
    ∧ readyBut served telemetryReadSpec (mbxCmd 64 0x0050 0x300000000000 8 0 [] 8 false) = true ∧ mmioPlace 0x300000000000 = some (0, 0)
    ∧ readyBut served logReadSpec (mbxCmd 64 0x0051 0 0 2 [] 128 false) = true
    ∧ (served.found.getRing 64).state = 1 ∧ (served.found.getRing 64).discard = false ∧ (served.found.getPart 0).live = true := by decide +kernel

/-- A partition of half 1 and DMA channel 0 without regions, and one with a region (whose size follows the open stack capacity). -/
def createCmd : MbxCmd := mbxCmd 64 0x0010 (1 + 2 ^ 8 * 2) 1 0 [] 0 true

theorem witness_partition_commands :
    readyBut served partitionCreateSpec createCmd = true ∧ (served.found.createFail createCmd).isNone = true
    ∧ readyBut served partitionDestroySpec (cmd64 0x0011 0 0 0) = true ∧ (served.found.getPart 0).live = true
    ∧ (served.found.getPart 0).running = false ∧ (served.found.getPart 0).draining = false
    ∧ readyBut served imageLoadSpec (mbxCmd 64 0x0020 0 0 0 [] 0 true) = true := by decide +kernel

theorem witness_fill :
    let d := servedDev.modPart 0 (fun p => { p with filling := true })
    let e := d.modRegion 3 (fun r => { r with valid := true, partition := 0, bands := 1, stackBits := 1 })
    (e.getPart 0).filling = true ∧ 3 ∈ e.regionsOf 0 := by decide +kernel

/-- A loaded image without lockstep, on a partition that holds no half (FMAX is open). -/
def plainImage : Image := ⟨0, false, 2, 1, 0, 0, [], [], 0, [], false⟩
def loadedDev (j : Job) : Dev := servedDev.modPart 0 (fun p => { p with image := some plainImage, job := j, halves := 0 })

theorem witness_jobs :
    readyBut ⟨loadedDev {}, []⟩ jobStartSpec (cmd64 0x0021 0 0 0) = true ∧ (loadedDev {}).startFail 0 = none ∧ (loadedDev {}).pairedJob 0 = false
    ∧ readyBut ⟨loadedDev { state := 2 }, []⟩ jobStopSpec (cmd64 0x0022 0 0 0) = true ∧ ((loadedDev { state := 2 }).getPart 0).running = true
    ∧ (loadedDev { state := 2, waitStart := true }).mayBegin 0 = true ∧ ((loadedDev { state := 3 }).getPart 0).draining = true
    ∧ (loadedDev { state := 3 }).unresolved 0 = false
    ∧ ((loadedDev { state := 4, notify := some 64 }).getRing 64).takesNotice = true
    ∧ (upTo 66).all (fun r => ((loadedDev { state := 4, notify := some 64 }).getRing r).notices.isEmpty) = true := by decide +kernel

/-- A block of R580 for the FEED source, and one fuse entry: SVN 1. -/
def feedBlock : List Byte := natLe 1 8 ++ natLe 1 1 ++ natLe 1 3 ++ natLe 1 0 ++ natLe 4 64 ++ natLe 8 7 ++ natLe 8 0 ++ natLe 8 0 ++ natLe 8 0 ++ natLe 6 0
  ++ natLe 1 0xFF ++ natLe 1 0 ++ natLe 6 0 ++ natLe 10 0
def svnEntry : List Byte := natLe 2 3 ++ natLe 2 7 ++ natLe 4 0

theorem witness_security_commands :
    readyBut served cairnSetSpec (cmd64 0x0090 (2 ^ 6 * 5) cairnMax 0) = true ∧ served.found.cairn.waiters = [] ∧ served.found.cairn.ops = []
    ∧ readyBut served assayConfigSpec (mbxCmd 64 0x0091 3 0 0 feedBlock 64 true) = true
    ∧ served.found.assayFlaw (mbxCmd 64 0x0091 3 0 0 feedBlock 64 true) = none
    ∧ readyBut served fuseProgramSpec (mbxCmd 65 0x00A0 0 0 0 svnEntry 8 true) = true ∧ fuseFlaw svnEntry = none
    ∧ served.found.flash.verified.any (fun k => !fuseKills (fuseEntries svnEntry) k) = true ∧ served.found.fuseBusy (fuseEntries svnEntry) = false
    ∧ readyBut served regAccessSpec (mbxCmd 65 0x00A1 0x300000000000 2 0 [] 0 false) = true
    ∧ readyBut served debugUnlockSpec (mbxCmd 65 0x00A2 0 0 0 [] 224 true) = true ∧ (served.found.secFuse 0).debugDisable = false
    ∧ served.found.anyBusy = false ∧ readyBut served ownershipTakeSpec (mbxCmd 64 0x0002 0 0 0 [] 256 true) = false
    ∧ (served.found.secFuse served.found.bed.primary).freeSlot = some 0 ∧ served.found.bed.owned = false := by decide +kernel

/-- OWNERSHIP_TAKE carries no session fields (R473). -/
def ownCmd : MbxCmd := ⟨64, natLe 2 2 ++ natLe 2 0 ++ natLe 2 5 ++ natLe 10 0 ++ natLe 4 256 ++ natLe 44 0, [], none, false, false, false⟩

theorem witness_ownership : mbxReady served ownershipTakeSpec ownCmd := by
  refine ⟨?_, ?_, ?_, ?_, ?_, ?_, ?_, ?_, fun _ h => absurd rfl h, ?_, fun _ => ?_, rfl, rfl⟩ <;> decide +kernel

theorem witness_unit_commands :
    let off := { servedDev with caps := { servedDev.caps with disabled := [(0, 0, 3, 0)] } }
    readyBut served (leaveSpec 0x0070) (cmd64 0x0070 (2 ^ 8 * 3) 0 0) = true ∧ readyBut served (leaveSpec 0x0072) (cmd64 0x0072 (2 ^ 8 * 3) 0 0) = true
    ∧ unitFail (0, 0, 3, 0) = none ∧ served.found.caps.leaving.contains (0, 0, 3, 0) = false ∧ served.found.unitOn (0, 0, 3, 0) = true
    ∧ readyBut ⟨off, []⟩ unitEnableSpec (cmd64 0x0071 (2 ^ 8 * 3) 0 0) = true ∧ off.leavingNow (0, 0, 3, 0) = false
    ∧ off.caps.disabled.contains (0, 0, 3, 0) = true := by decide +kernel

theorem witness_firmware_commands :
    let ok := { servedDev with bed := { servedDev.bed with standbyOk := true } }
    readyBut served fwStageSpec (mbxCmd 64 0x0060 1 0 0 [] 0 true) = true ∧ served.found.bed.activeBank = 0
    ∧ readyBut ⟨ok, []⟩ fwActivateSpec (cmd64 0x0061 0 0 0) = true ∧ (ok.flash.bank ok.bed.primary 0).present = true
    ∧ (ok.flash.bank ok.bed.primary 0).verified = true ∧ ok.bed.fwPhase = 0
    ∧ readyBut served calRunSpec (cmd64 0x0062 (2 + 2 ^ 8 * 7) 0 0) = true
    ∧ readyBut served mirrorPairSpec (mbxCmd 64 0x0080 0 0 0 [] 0 true) = true := by decide +kernel

/-! ## Host port -/

/-- The PF of P0. -/
def pf0 : Access := ⟨0, 0⟩

/-- The served device with both host ports out of reset and ring 64 as a test changes it. -/
def hostDev (f : Ring → Ring) : Dev :=
  let d := { servedDev with pins := { servedDev.pins with perst0N := true, perst2N := true } }
  d.modRing 64 f

theorem witness_doorbells :
    let d := hostDev id
    d.boot.phase.live = true ∧ d.mayRing pf0 64 = true ∧ (d.getRing 64).boundPort = pf0.port ∧ fld 5 0 12 < 2 ^ (d.getRing 64).sizeLog2
    ∧ 2 ^ (d.getRing 64).sizeLog2 ≤ fld 16 0 12 ∧ (d.getRing 64).state = 1 ∧ d.mayRing ⟨2, 0⟩ 64 = true
    ∧ (d.getRing 64).boundPort ≠ (⟨2, 0⟩ : Access).port ∧ d.portUp pf0 = true ∧ d.host.evt.boundPort = 0 ∧ d.host.evt.enable = false
    ∧ d.host.evt.base % 64 = 0 := by decide +kernel

theorem witness_ring_enable :
    let off := hostDev (fun r => { r with state := 0, enable := false })
    let odd := hostDev (fun r => { r with state := 0, enable := false, descBase := 8 })
    off.mayRing pf0 64 = true ∧ (1 : Nat).testBit 0 = true ∧ (off.getRing 64).enable = false ∧ (off.getRing 64).executing = false
    ∧ (off.getRing 64).descBase % 64 = 0 ∧ (off.getRing 64).cplBase % 64 = 0 ∧ odd.mayRing pf0 64 = true ∧ (odd.getRing 64).descBase % 64 ≠ 0
    ∧ (0 : Nat).testBit 0 = false ∧ ((hostDev id).getRing 64).enable = true := by decide +kernel

theorem witness_port_reset : ((hostDev id).getRing 64).enable = true ∧ ((hostDev id).getRing 64).boundPort = 0 ∧ ((hostDev id).getRing 64).executing = false
    ∧ (hostDev id).portUp pf0 = true := by decide +kernel

theorem witness_host_access :
    let d : Dev := { hostDev id with host := { (hostDev id).host with windows := [(0, ⟨true, true, 0x300000⟩)] } }
    d.boot.phase.live = true ∧ d.portUp pf0 = true ∧ aligned 2 4 = false ∧ aligned 0x1000 4 = true ∧ aligned 0x100 4 = true ∧ windowOf 0 (2 ^ 28) = none
    ∧ (d.getWindow 0).valid = true ∧ (d.getWindow 0).write = true ∧ d.hostCause pf0 true (0x300000 * 2 ^ 24 + 12) 4 = 0 ∧ d.hbmWaits (0x300000 * 2 ^ 24 + 12) = false
    ∧ ((hostDev id).getWindow 0).valid = false := by decide +kernel

theorem witness_assay_feed :
    let d := (hostDev id).modAssay 9 (fun a => { a with state := 1, blk := { a.blk with source := 3 } })
    d.portUp pf0 = true ∧ (d.getAssay 9).blk.source = 3 ∧ (d.getAssay 9).state = 1 := by decide +kernel

theorem witness_fetch :
    let d := hostDev (fun r => { r with tail := 1 })
    d.mayFetch 64 = true ∧ specOf (cmd64 0x0FFF 0 0 0) = none ∧ (specOf (cmd64 0x0001 0 0 0)).isSome = true
    ∧ d.mustPark { cmd64 0x0001 0 0 0 with ring := 64 } = false := by decide +kernel

/-! ## Units and memory -/

/-- The ready device with units that leave service: slab 0, array 1 of slab 1, vein port 2, pebble 3 of cluster 0, channel 4 of stack 0. -/
def leaveDev : Dev := { servedDev with caps := { servedDev.caps with leaving := [(0, 0, 0, 0), (1, 0, 1, 1), (3, 0, 2, 0), (2, 0, 0, 3), (5, 0, 0, 4)] } }

theorem witness_unit_leaves :
    let d := leaveDev
    d.boot.phase.live = true ∧ (d.getSlab 0).seq.atBoundary = true ∧ d.caps.leaving.contains (unitAt 0 0 0) = true
    ∧ (d.getSlab 1).seq.atBoundary = true ∧ d.caps.leaving.contains (unitAt 1 1 1) = true ∧ d.caps.leaving.contains (unitAt 3 2 0) = true
    ∧ d.caps.leaving.contains (2, 0, 0, 3) = true ∧ d.clusterBusy 0 = false ∧ tabGet none 0 d.caps.spare = none
    ∧ d.caps.leaving.contains (5, 0, 0, 4) = true ∧ d.cursorOn 0 8 = false ∧ d.cursorOn 0 9 = false
    ∧ (let e := d.modStack 0 (fun s => { s with reserveUsed := true }); (e.getStack 0).retiring = none ∧ (e.getStack 0).reserveUsed = true) := by decide +kernel

/-- The ready device with one stack as a test changes it, some time after reset. -/
def stackDev (f : Stack → Stack) : Dev :=
  let d := servedDev.modStack 0 f
  { d with clock := { d.clock with wall := 10000 } }

theorem witness_hbm_units :
    let c := stackDev (fun s => { s with retiring := some 5, migrating := true })
    (c.getStack 0).retiring = some 5 ∧ (c.getStack 0).migrating = true ∧ c.due (c.getStack 0).copySince (c.copyBytes 0 / 128) = true
    ∧ (stackDev id).unitOn (4, 0, 0, 5) = true ∧ ((stackDev id).getStack 0).retiring = none ∧ ((stackDev id).getScrub 0).autoRetire = true
    ∧ ((stackDev id).modScrub 0 (fun s => { s with autoRetire := false })).unitOn (4, 0, 0, 5) = true
    ∧ (((stackDev id).modScrub 0 (fun s => { s with autoRetire := false })).getScrub 0).autoRetire = false
    ∧ (stackDev id).caps.stackOn 0 = true ∧ ((stackDev id).getStack 0).state ≠ 1 ∧ ((stackDev id).getStack 0).reserveUsed = false := by decide +kernel

theorem witness_retrain :
    let one := stackDev (fun s => { s with state := 1, attempt := 1 })
    let two := stackDev (fun s => { s with state := 1, attempt := 2 })
    (one.getStack 0).state = 1 ∧ (one.getStack 0).overflow = false ∧ (one.getStack 0).lost = [] ∧ (one.getStack 0).attempt = 1
    ∧ one.due (one.getStack 0).attemptSince 5000000 = true ∧ (two.getStack 0).state = 1 ∧ (two.getStack 0).attempt = 2
    ∧ (two.getStack 0).overflow = false ∧ two.due (two.getStack 0).attemptSince 5000000 = true := by decide +kernel

theorem witness_memory_care :
    let d := { servedDev with mem := { servedDev.mem with writeBacks := [⟨0, 7, false⟩], err := [(7, .ce)] } }
    d.boot.phase.live = true ∧ d.mem.writeBacks = ⟨0, 7, false⟩ :: [] ∧ d.mem.errOf ((0 * 2 ^ 46 + 8 * 3) / 8) = .none
    ∧ (let e := servedDev.modScrub 0 (fun s => { s with autoSppr := true }); (e.getScrub 0).autoSppr = true ∧ e.caps.stackOn 0 = true) := by decide +kernel

/-! ## Mirroring -/

/-- The served device with vein port 0 as its mate port, formed with the peer 77, and the mirror engine as given. -/
def mateDev (m : Mirror) : Dev :=
  let d := servedDev.modLink 0 (fun l => { l with regs := { l.regs with mate := true, mateOk := true, state := 3 } })
  let d := d.modLink 0 (fun l => { l with peer := { l.peer with uid := 77, deviceValid := true, device := 5 } })
  { d with mirror := m, clock := { d.clock with wall := 2000000 } }

/-- The pair that a MIRROR_PAIR asks for, and what a peer of the other side answers. -/
def askedPair : MirrorRegs := { mode := 1, side := 0, peerUid := 77, ranges := [(0, 65536)] }
def answerCfg : MirrorCfg := ⟨1, 64, 0, 1, pkgScl, 0, 0, [(0, 65536)]⟩

theorem witness_mate_handshake : let d := mateDev { cand := some askedPair }; d.boot.phase.live = true ∧ d.mateReady 77 = true ∧ d.mirror.cand = some askedPair
    ∧ askedPair.peerUid = 77 ∧ (mateDev {}).mateReady 77 = true ∧ (mateDev {}).mirror.cand = none ∧ (mateDev {}).mirror.regs.mode = 0 := by decide +kernel

theorem witness_pair_fits : (mateDev { cand := some askedPair }).pairFits askedPair answerCfg = true := by
  have h : (answerCfg.scl == pkgScl) = true := beq_self_eq_true _
  unfold Dev.pairFits
  rw [h]
  decide +kernel

theorem witness_pair_unfit : (mateDev { cand := some askedPair }).pairFits askedPair { answerCfg with side := 0 } = false := by
  have h : (({ answerCfg with side := 0 } : MirrorCfg).scl == pkgScl) = true := beq_self_eq_true _
  unfold Dev.pairFits
  rw [h]
  decide +kernel

def pairWait : Waiting := { ring := 64, opcode := 0x0080, tag := 5, irq := false, audited := false, headAfter := 0, partition := 0, a0 := 1, a1 := 77, a2 := 0
                            targets := [], session := 9, since := 0 }

theorem witness_pair_timeout :
    let d := { mateDev { cand := some askedPair } with host := { servedDev.host with waiting := [pairWait] } }
    d.mirror.cand.isSome = true ∧ d.host.waiting.any (fun w => w.opcode == 0x0080 && d.due w.since 1000000000) = true := by decide +kernel

theorem witness_pair_start :
    let m : Mirror := { regs := { mode := 1 }, ownStart := some (3, 100) }
    let d := (mateDev m).modPart 0 (fun p => { p with image := some plainImage })
    m.regs.mode = 1 ∧ m.ownStart = some (3, 100) ∧ (3, 100) ≠ ((4, 100) : Nat × Nat) ∧ (d.getPart 0).image = some plainImage
    ∧ (mateDev { regs := { mode := 1 } }).mirror.ownStart = none := by decide +kernel

theorem witness_resync :
    let one : Mirror := { regs := { mode := 2, state := 2 }, copying := true, copyFound := true }
    let two : Mirror := { regs := { mode := 2, state := 2 }, copying := true }
    one.copying = true ∧ one.passOver = true ∧ one.copyFound = true ∧ two.copying = true ∧ two.passOver = true ∧ two.copyFound = false
    ∧ two.regs.mode = 2 := by decide +kernel

/-- A pair that runs its job, its interval over. -/
def commitDev (m : Mirror) : Dev := (mateDev m).modPart 0 (fun p => { p with job := { state := 2 } })
def lockPair : Mirror := { regs := { mode := 1, state := 3 }, count := 64 }

theorem witness_interval :
    let d := commitDev lockPair
    d.mirror.commits = true ∧ (d.getPart 0).running = true ∧ d.mirror.regs.interval ≤ d.mirror.count ∧ d.mirror.peerSent = none := by decide +kernel

theorem commitValue_mirror (d : Dev) (m : Mirror) (hp : m.regs.partition = d.mirror.regs.partition) (hc : m.crc = d.mirror.crc) :
    Dev.commitValue { d with mirror := m } = d.commitValue := by
  unfold Dev.commitValue
  rw [show ({ d with mirror := m } : Dev).mirror = m from rfl, hp, hc]
  rfl

theorem witness_interval_equal :
    let e : Dev := { commitDev lockPair with mirror := { lockPair with peerSent := some (0, (commitDev lockPair).commitValue, false) } }
    e.mirror.peerSent = some (e.lastJobBeat 0, e.commitValue, false) ∧ e.mirror.commits = true ∧ (e.getPart 0).running = true := by
  refine ⟨?_, by decide +kernel, by decide +kernel⟩
  rw [commitValue_mirror _ _ rfl rfl]
  rfl

/-- A MIRROR_COMMIT payload for job beat 7 and value 9. -/
def commit7 : List Byte := natLe 2 0x0C03 ++ natLe 7 7 ++ natLe 8 9 ++ natLe 1 0 ++ natLe 2 3

theorem witness_commit :
    leAt commit7 0 2 = 0x0C03 ∧ (mateDev { regs := { mode := 2, side := 1 } }).mirror.regs.side = 1 ∧ (commitDev lockPair).mirror.sent = none
    ∧ (some (7, 9, false) : Option (Nat × Nat × Bool)) = some (leAt commit7 2 7, leAt commit7 9 8, false)
    ∧ 16 ≤ (mateDev { lockPair with sent := some (7, 9, false) }).clock.wall - lockPair.sentSince := by decide +kernel

/-- A forwarded write of 8 bytes with number 0 from the peer's hub tile. -/
def fwdPkt : Packet := mkPacket (endpointOf 0 0 0) (endpointOf 5 0 0) 0 0 0 false (msgHeader 0 0 0 8 0 0 0 0) (List.replicate 8 ⟨0, false⟩)

theorem witness_forward :
    let m : Mirror := { regs := { mode := 2, side := 1, ranges := [(0, 65536)] }, matePort := some 0 }
    let late := { m with nextApply := 1 }
    (mateDev m).fwdPacket fwdPkt = true ∧ formatOk fwdPkt = true ∧ m.reorder = [] ∧ pTag fwdPkt = m.nextApply
    ∧ (mateDev late).fwdPacket fwdPkt = true ∧ tagBefore (pTag fwdPkt) late.nextApply = true
    ∧ (mateDev { m with missingSince := some 0 }).due 0 (1000 * ((mateDev m).getPartFab 0).timeoutUs) = true
    ∧ m.reorder.find? (fun x => x.seq == wrapAdd 16 m.nextApply 1) = none ∧ tagBefore 3 ({ m with nextApply := 4 } : Mirror).nextApply = true := by decide +kernel

/-! ## Power and temperature -/

/-- The served device, a while after reset, with its power state as given. -/
def powerDev (f : Power → Power) : Dev := { servedDev with pow := f servedDev.pow, clock := { servedDev.clock with wall := 2000000 } }

def calWait (kind : Nat) : Waiting := { pairWait with opcode := 0x0062, a0 := kind }

theorem witness_supply :
    let d := servedDev
    let f := d.modHalfPow 0 (fun p => { p with frozen := true })
    let t := d.modHalfPow 0 (fun p => { p with tries := 2 })
    let w := { servedDev with host := { servedDev.host with waiting := [calWait 1, calWait 2] } }
    d.boot.phase.live = true ∧ (d.getHalfPow 0).frozen = false ∧ (f.getHalfPow 0).frozen = true ∧ (d.getHalfPow 0).regulatorBad = false
    ∧ (d.getHalfPow 0).tries < 2 ∧ 2 ≤ (t.getHalfPow 0).tries ∧ (t.getHalfPow 0).regulatorBad = false ∧ d.flash.writesOff = false
    ∧ w.host.waiting.any (calWaits 1 0) = true ∧ w.host.waiting.any (calWaits 2 0) = true := by decide +kernel

/-- Partition 0 runs a lockstep job. -/
def lockDev (f : Power → Power) : Dev := (powerDev f).modPart 0 (fun p => { p with job := { state := 2, lockstep := true } })

theorem getGuar_powerDev (f : Power → Power) (k : Nat) : (powerDev f).getGuar k = {} := rfl

theorem witness_control :
    let low := powerDev (fun p => { p with est := [0], under := 9, hold := 1 })
    let calm := powerDev (fun p => { p with est := [1000], capW := 1000 })
    let above := lockDev (fun p => { p with est := [2000000], capW := 1000 })
    calm.pow.pend = [] ∧ calm.overHalves = [] ∧ calm.meanPower ≤ calm.capNow * 1000 ∧ calm.pow.under < 9
    ∧ above.pow.pend = [] ∧ above.overHalves = [] ∧ above.capNow * 1000 < above.meanPower ∧ above.pow.hold < 12 ∧ above.anyLock = true
    ∧ low.pow.pend = [] ∧ low.overHalves = [] ∧ low.meanPower * 100 < 97 * low.capNow * 1000 ∧ low.pow.under = 9 ∧ low.pow.levelsNext = []
    ∧ 0 < low.pow.hold := by decide +kernel

theorem tab_only (v : Part) (n : Nat) (h : n ≠ 0) : tabGet ({} : Part) n [(0, v)] = {} := by simp [tabGet, h]

theorem witness_control_lock (n : Nat) (h : ((lockDev id).getPart n).live = true) : ((lockDev id).getPart n).lockRun = true := by
  by_cases hn : n = 0
  · subst hn
    decide +kernel
  · have hs : (lockDev id).parts = [(0, (lockDev id).getPart 0)] := by decide +kernel
    have he : (lockDev id).getPart n = {} := by
      unfold Dev.getPart
      rw [hs]
      exact tab_only _ n hn
    rw [he] at h
    exact absurd h (by decide)

theorem witness_repeat :
    let d := lockDev (fun p => { p with throttledSince := some 0, hold12Since := some 0 })
    d.pow.throttledSince = some 0 ∧ d.due 0 (1000000000 * (d.pow.repeats + 1)) = true ∧ d.pow.hold12Since = some 0 ∧ d.due 0 100000000 = true
    ∧ (d.getPart 0).lockRun = true ∧ (d.getPart 0).job.stopPending = none := by decide +kernel

theorem witness_guarantee_window :
    let kept := (powerDev id).modGuar 0 (fun g => { g with rank := 1, v1 := 8, beats := 4096, jobBeats := 4096 })
    let short := (powerDev id).modGuar 0 (fun g => { g with rank := 1, v1 := 8, beats := 4096, jobBeats := 1024 })
    0 < (kept.getGuar 0).rank ∧ 4096 ≤ (kept.getGuar 0).beats ∧ (kept.getGuar 0).breach = false ∧ kept.shortfall 0 0 (kept.getGuar 0) = none
    ∧ 0 < (short.getGuar 0).rank ∧ (short.getGuar 0).breach = false ∧ short.shortfall 0 0 (short.getGuar 0) = some 4 := by decide +kernel

theorem witness_thermal :
    let hot := { servedDev with therm := { servedDev.therm with tj := 10600, cap := some 900 } }
    let trip := { servedDev with therm := { servedDev.therm with tripped := true, tripLogged := false } }
    servedDev.boot.phase.live = true ∧ hot.therm.cap = some 900 ∧ 10500 < hot.therm.tj ∧ servedDev.therm.tj ≤ 10500 ∧ servedDev.boot.phase.canTrip = true
    ∧ servedDev.therm.tripped = false ∧ (12000 : Int) ≤ 12000 ∧ trip.therm.tripped = true ∧ trip.therm.tripLogged = false
    ∧ trip.boot.phase ≠ .noPower := by decide +kernel

/-! ## Bedrock and its timers -/

/-- The served device at wall beat 4,000,000 with its Bedrock record as given. -/
def bedDev (f : Bedrock → Bedrock) : Dev := { servedDev with bed := f servedDev.bed, clock := { servedDev.clock with wall := 4000000 } }

theorem witness_bedrock :
    let act := bedDev (fun b => { b with fwPhase := 2, fwBank := 1 })
    let swi := bedDev (fun b => { b with fwPhase := 3, fwBank := 1 })
    let two := bedDev (fun b => { b with standbyOk := true })
    let alone := bedDev (fun b => { b with standbyOk := false })
    let tak := bedDev (fun b => { b with takeoverSince := some 0, standbyRestart := some 0 })
    act.boot.phase.live = true ∧ (bedDev id).serving = true ∧ (bedDev (fun b => { b with paused := true })).serving = false ∧ act.bed.fwPhase = 2
    ∧ act.bed.fwSince < act.clock.wall ∧ swi.bed.fwPhase = 3 ∧ swi.switchOrder.getD swi.bed.fwSwitch 4 = 2 ∧ act.due act.bed.fwSince 250000000 = true
    ∧ two.bed.ready = true ∧ two.bed.takeoverSince = none ∧ two.bed.fwPhase = 0 ∧ two.bed.standbyOk = true ∧ alone.bed.ready = true
    ∧ alone.bed.takeoverSince = none ∧ alone.bed.standbyOk = false ∧ tak.bed.takeoverSince.isSome = true
    ∧ tak.bed.standbyRestart.isSome = true := by decide +kernel

theorem witness_subdie :
    let d := bedDev (fun b => { b with subdieRestart := [(1, 1)] })
    let e := bedDev (fun b => { b with subdieRestart := [(1, 1)], subdieFails := [(1, 1)] })
    d.bed.ready = true ∧ d.bed.subdieRestart.any (fun x => x.1 == 3) = false ∧ d.bed.subdieRestart.any (fun x => x.1 == 1) = true ∧ d.host.parked = []
    ∧ 0 < tabGet 0 1 d.bed.subdieRestart ∧ d.due (tabGet 0 1 d.bed.subdieRestart - 1) 2000000000 = true ∧ tabGet 0 1 d.bed.subdieFails = 0
    ∧ 0 < tabGet 0 1 e.bed.subdieFails ∧ e.due (tabGet 0 1 e.bed.subdieRestart - 1) 2000000000 = true := by decide +kernel

/-- The served device at wall beat 100 with its deep-idle state as given. -/
def idleDev (f : DeepIdle → DeepIdle) : Dev := { servedDev with idle := f servedDev.idle, clock := { servedDev.clock with wall := 5000 } }

theorem witness_deep_idle :
    let in_ := idleDev (fun i => { i with enabled := true })
    let one := idleDev (fun i => { i with phase := 1 })
    let three := idleDev (fun i => { i with phase := 3 })
    let awake := idleDev (fun i => { i with awakeUntil := 4096 })
    in_.boot.phase.live = true ∧ in_.idle.enabled = true ∧ in_.idle.phase = 0 ∧ in_.bed.ready = true ∧ in_.idle.awakeUntil = 0 ∧ in_.anyBusy = false
    ∧ 64 ≤ one.clock.wall - one.idle.since ∧ one.idle.phase = 1 ∧ one.idle.exitAfter = false ∧ three.idle.phase = 3
    ∧ 64 ≤ three.clock.wall - three.idle.since ∧ awake.idle.phase = 0 ∧ awake.idle.awakeUntil ≠ 0
    ∧ awake.idle.awakeUntil ≤ awake.clock.wall := by decide +kernel

theorem witness_ring_and_log :
    let full := { servedDev with fab := { servedDev.fab with ringQueues := [(5, 8)] } }
    let again := { servedDev with fab := { servedDev.fab with ringMsgs := [⟨0, 1, 2, 3, 2⟩] } }
    let held := { servedDev with evt := { servedDev.evt with held := 64 } }
    tabGet 0 (64 * 0 + 5) servedDev.fab.ringQueues < 8 ∧ 8 ≤ tabGet 0 (64 * 0 + 5) full.fab.ringQueues ∧ servedDev.fab.ringMsgs = []
    ∧ again.fab.ringMsgs = [⟨0, 1, 2, 3, 2⟩] ∧ held.flash.writesOff = false ∧ 64 ≤ held.evt.held := by decide +kernel

theorem witness_session_and_interval :
    let d := { servedDev with clock := { servedDev.clock with wall := 4000000000 } }
    let a := servedDev.modAssay 9 (fun a => { a with state := 1, count := 8, blk := { a.blk with interval := 8, source := 0 } })
    (d.ringSession (if true then 65 else 64)).isOpen = true ∧ d.due (d.ringSession (if true then 65 else 64)).last 1800000000000 = true
    ∧ (a.getAssay (8 * 1 + 1)).counts = true ∧ (a.getAssay 9).blk.interval ≤ (a.getAssay 9).count := by decide +kernel

/-! ## Sideband and test -/

/-- A message over SMBus, and the served device with an endpoint ID there and the SPDM state as given. -/
def sideMsg (session : Option Nat) (body : List Byte) : Message := ⟨0, 9, session, body⟩
def sideDev (f : Security → Security) : Dev := { servedDev with sec := f servedDev.sec, mgmt := { servedDev.mgmt with eids := [(0, 9)] } }
def phaseDev (n : Nat) : Dev := sideDev (fun c => { c with spdm := { c.spdm with phase := n } })

theorem witness_spdm :
    let m := sideMsg none (natLe 1 0 ++ natLe 1 3)
    (phaseDev 0).serves m 4 = true ∧ m.session = none ∧ (phaseDev 1).sec.spdm.phase = 1 ∧ (phaseDev 2).sec.spdm.phase = 2 ∧ 3 ≤ (phaseDev 3).sec.spdm.phase
    ∧ leAt m.body 1 1 = 3 ∧ (leAt m.body 0 1).testBit 0 = false ∧ (phaseDev 0).sec.spdm.phase < 1
    ∧ (sideDev (fun c => { c with spdm := { c.spdm with pending := some (7, []) } })).sec.spdm.pending = some (7, [])
    ∧ (phaseDev 3).serves (sideMsg (some 9) []) 4 = true ∧ (sideMsg (some 9) []).session.bind (phaseDev 3).sessionRing = some 64
    ∧ leAt (sideMsg (some 9) (natLe 1 1 ++ natLe 8 5)).body 0 1 = 1 ∧ (sideMsg (some 9) (natLe 1 1 ++ natLe 8 5)).body.length = 9 := by decide +kernel

theorem witness_sideband :
    let d := sideDev id
    let m := sideMsg none (natLe 1 0 ++ natLe 1 12)
    let t := sideMsg none (natLe 2 0x1000 ++ natLe 2 8 ++ natLe 1 3)
    d.serves m 0 = true ∧ leAt m.body 0 1 % 4 < 2 ∧ 8 ≤ leAt m.body 1 1 ∧ leAt m.body 1 1 < 255 ∧ d.serves m 1 = true ∧ d.serves m 2 = true ∧ d.serves m 5 = true
    ∧ leAt m.body 4 1 = 0 ∧ 0 < leAt t.body 4 1 ∧ leAt t.body 4 1 ≤ 15 ∧ 0x1000 ≤ leAt t.body 0 2 ∧ 8 ≤ leAt t.body 2 2 ∧ leAt t.body 2 2 % 8 = 0
    ∧ d.serves m 6 = true ∧ leAt m.body 0 1 < 8 ∧ (bootDev .heldReset).serves m 0 = false := by decide +kernel

theorem witness_smbus :
    let q := { servedDev with mgmt := { servedDev.mgmt with smbQueue := [[1]], smbTries := 3 } }
    let a := { servedDev with pins := { servedDev.pins with alertN := false } }
    q.mgmt.smbQueue = [1] :: [] ∧ 3 ≤ q.mgmt.smbTries ∧ a.pins.alertN = false ∧ a.boot.phase.serves 0 = true := by decide +kernel

/-- The first packet of a control message in two packets. -/
def firstPacket : List Byte := natLe 1 1 ++ natLe 1 0 ++ natLe 1 9 ++ natLe 1 0x80 ++ List.replicate 64 0

theorem witness_packet :
    (hostDev id).boot.phase.serves 0 = true ∧ (hostDev id).transportUp 1 = true ∧ leAt firstPacket 0 1 % 16 = 1 ∧ leAt firstPacket 1 1 = 0
    ∧ (firstPacket.drop 4).length = 64 ∧ (leAt firstPacket 3 1).testBit 7 = true ∧ (leAt firstPacket 3 1).testBit 6 = false
    ∧ leAt (firstPacket.drop 4) 0 1 % 128 = 0 := by decide +kernel

theorem witness_boot_record :
    let d := { sideDev id with boot := { (sideDev id).boot with records := [(sideDev id).boot.record] } }
    d.boot.records[leAt (sideMsg none []).body 0 1]? = some (sideDev id).boot.record ∧ d.serves (sideMsg none []) 6 = true := by decide +kernel

theorem witness_update :
    let m := sideMsg none (natLe 1 0x15 ++ List.replicate 32 0)
    let r := { sideDev id with boot := { (sideDev id).boot with phase := .recovery, updateVerified := true } }
    (sideDev id).serves m 3 = true ∧ (sideDev id).boot.phase ≠ .recovery ∧ r.serves m 3 = true ∧ r.boot.phase = .recovery ∧ leAt m.body 0 1 = 0x15
    ∧ 32 ≤ (m.body.drop 1).length ∧ (m.body.drop 1).length ≤ 960 ∧ r.boot.updateVerified = true := by decide +kernel

theorem witness_test_port :
    let d := sideDev (fun c => { c with debugScope := 15 })
    let r := d.modTap 1 (fun t => { t with state := 1 })
    d.boot.phase.live = true ∧ d.sec.debugScope.testBit 0 = true ∧ d.sec.debugScope.testBit 1 = true ∧ d.sec.debugScope.testBit 3 = true
    ∧ (d.getTap 1).state ≠ 1 ∧ d.bistFree 1 0 0 = true ∧ d.bistFree 0 0 0 = false ∧ (sideDev id).sec.debugScope.testBit 1 = false ∧ (r.getTap 1).state = 1
    ∧ d.locate (dpaQuarry 1 2 64) = .quarry 1 2 64 ∧ dpaQuarry 1 2 64 / 2 ^ 46 = 1 ∧ dpaQuarry 1 2 64 % 8 = 0
    ∧ d.mem.errOf (dpaQuarry 1 2 64 / 8) = .none ∧ d.test.testMode = false := by decide +kernel

/-! ## Rules over the whole device -/

/-- A ready device with a control-ring message that has failed `n` times, and `q` messages in the queue of its stop. -/
def ringState (n q : Nat) : State :=
  let d := bootDev .ready
  ⟨{ d with fab := { d.fab with ringMsgs := [⟨0, 1, 2, 7, n⟩], ringQueues := [(2, q)] } }, []⟩

theorem witness_ring_messages :
    let mine := fun (m : RingMsg) => m.die == 0 && m.src == 1 && m.dest == 2 && m.id == 7
    let found := fun (n q : Nat) => (ringState n q).found.fab.ringMsgs.find? mine
    let queue := fun (n q : Nat) => tabGet 0 (64 * 0 + 2) (ringState n q).found.fab.ringQueues
    Live (ringState 0 0) ∧ found 1 0 = some ⟨0, 1, 2, 7, 1⟩ ∧ found 2 0 = some ⟨0, 1, 2, 7, 2⟩ ∧ queue 0 7 < 8 ∧ 8 ≤ queue 0 8 := by decide +kernel

theorem witness_completion_entry :
    let d := { bootDev .ready with host := { (bootDev .ready).host with rings := [(3, { state := 1, enable := true, cplBase := 4096 })] } }
    (d.getRing 3).takes = true ∧ (d.getRing 3).discard = false := by decide +kernel

theorem witness_element_codes : (∀ x ∈ [2, 1, 0, 0, 2], x < 3) ∧ 5 * 0 + 4 < [2, 1, 0, 0, 2].length := by decide

theorem witness_pebble_words :
    (PWord.sca ⟨5, 63, 31, 31, 31, 2 ^ 32 - 1⟩).fits ∧ (PWord.vec ⟨15, 63, 31, 31, 31, 31, 31, 31, 7, true, true, 3, true, 31, 31⟩).fits
    ∧ (⟨3, true, 1023, 255, 2048, 2 ^ 24 - 1, 0, 0, 0, 0⟩ : SDesc).fits := by
  simp only [PWord.fits, SDesc.fits, fieldsFit]; decide

theorem witness_engine_words :
    (SlabOp.pass ⟨31, 31, 7, 7, 256, 256, 2048, 15, true, 1, 1, 2047, 7⟩).fits ∧ (SlabOp.streak ⟨31, 31, 65536, 512, 16, true, 1, true, 2047, 7, 0, 7⟩).fits
    ∧ (SlabOp.drain ⟨2047, 7, 2048, 15, 128, 31, 3, true, 7, 3, true, true, true, 3, 1, 0, 7, 0, 7, 0, 0⟩).fits := by
  simp only [SlabOp.fits, fieldsFit]; decide

theorem witness_plain_words : (SlabOp.dma 1023 7 7 7).fits ∧ (SlabOp.barrier 15 true).fits ∧ (SlabOp.base 7 0 0).fits ∧ (SlabOp.loop 65536 4095 127).fits
    ∧ (⟨⟨true, true, 1023, 65535, true, 1023, 255⟩, .sync⟩ : SlabCmd).fits := by
  simp only [SlabOp.fits, SlabCmd.fits, fieldsFit]; decide

theorem witness_descriptor : (⟨3, 3, 3, 31, 31, 7, 256, 256, 2048, 1, 15, true, 0, 0, 0, 0, 0, 0, 0, 65536, 0, 0⟩ : Desc).fits := by
  simp only [Desc.fits, fieldsFit]; decide

theorem witness_step : BeatSafe State.reset ∧ (∃ t, step State.reset = .next t)
    ∧ ({ State.reset with pending := [.alignStep] } : State).pending = .alignStep :: [] := by
  refine ⟨by unfold BeatSafe; decide, ⟨_, rfl⟩, rfl⟩

/-! ## Values that the spec works out -/

/-- The worked encoding of V.FMA.BF16.Z v3, v1, #0.5, v2, m1 in spec/09. -/
theorem test_fma_word : decodeP 0x190084008C38 = some (.vec ⟨8, 3, 3, 1, 0, 2, 2, 0, 1, true, true, 0, false, 0, 0⟩) := by decide

/-- spec/08: W0 of a pass without a wait or a signal is the opcode alone. -/
theorem test_pass_word : (encodeSlab ⟨.none, .pass ⟨5, 5, 0, 0, 128, 128, 256, 15, false, 0, 0, 0, 0⟩⟩).w0 = 1 := by decide

/-- The worked trit byte of spec/05. -/
theorem test_trit_byte : tritPack [2, 1, 0, 0, 2] = [0xA7#8] ∧ tritDigits 0xA7 = [2, 1, 0, 0, 2] := by decide

/-- The draw of spec/05: the first three bits of r are 1, so 1.3 rounds up to 1.5. -/
theorem test_lfsr_draw : (lfsrDraw 5#32).1 / 2 ^ 13 = 7 ∧ convertElem 0x09 (.sr (lfsrDraw 5#32).1) false (fp32.decode 0x3FA66666) = 3 := by decide +kernel

/-- The MXFP4 block of spec/05: 13.0, 5.3, 0.3, −2.6 and 0.25 under scale code 128. -/
theorem test_mxfp4_block :
    let v := [0x41500000, 0x40A9999A, 0x3E99999A, 0xC0266666, 0x3E800000].map fp32.decode
    blockScale 0x09 v = 128 ∧ v.map (blockElem 0x09 128 .rne false) = [7, 5, 0, 0xB, 0] := by decide +kernel

/-- The two modes on the worked sums of spec/06. -/
theorem test_entry_updates :
    let first : Val := .fin false 33554435 (-1)
    let second : Val := .fin false 3 (-1)
    (updateEntry 1 true 0 ⟨first, false, false⟩).1 = 0x4B800001 ∧ (updateEntry 1 true 0x4B800001 ⟨second, false, false⟩).1 = 0x4B800002
    ∧ (updatePair true 0 0 ⟨first, false, false⟩).1 = 0x4B800001 ∧ (updatePair true 0 0 ⟨first, false, false⟩).2.1 = 0xBF000000
    ∧ (updatePair true 0x4B800001 0xBF000000 ⟨second, false, false⟩).1 = 0x4B800002
    ∧ (updatePair true 0x4B800001 0xBF000000 ⟨second, false, false⟩).2.1 = 0xBF800000 := by decide +kernel

/-- The merge of spec/06, by position. -/
theorem test_top_eight :
    let old := [(0x41180000, 17), (0x41000000, 3), (0x41000000, 90), (0x40E80000, 41), (0x40C00000, 5), (0x40B00000, 120), (0x40B00000, 121), (0x40A00000, 64)]
    let new := [(0x40B00000, 129), (0x41000000, 131), (0x40E00000, 200)]
    (topEight false ((old ++ new).map fun c => ⟨c.1, c.2⟩)).map Cand.pos = [17, 3, 90, 131, 41, 200, 5, 120] := by decide +kernel

/-- The width agreement of spec/13. -/
theorem test_width_agreement : agreeWidth 9 (0xFFEF &&& 0xF7FF) 16 = some (12, 0x37EF) ∧ widthChk 12 0x37EF = 0xD80C := by decide +kernel

/-- spec/13: a width-proof slot 300 with RELEASE_1 = 1,200 is released after 150 ns + 301 × 17 / 12 ns. -/
theorem test_release_time : 150 * 96 + 301 * 17 * 8 = 1200 * 12 + (300 + 1) * 17 * 96 / 12 := by decide

/-- The Assay unit of spec/19 on 0x80 and on "123456789", and the CRC-32C and CRC-64 of the same bytes. -/
theorem test_assay_values :
    let b : AssayBlk := { width := 8, poly := 7 }
    let nine := (upTo 9).map (fun i => BitVec.ofNat 8 (0x31 + i))
    assayStep b 0 0x80#8 = 0x89 ∧ nine.foldl (assayStep b) 0 = 0xF4 ∧ crc32c nine = 0xE3069283 ∧ crc64Fin (crc64Run crc64Init nine) = 0x62EC59E3F1A4F00A := by
  decide +kernel

/-- spec/12: slab tile S5 on die P2 of device 37. -/
theorem test_endpoint : endpointOf 37 2 0x16 = 0x9616 := by decide

/-- spec/10: offset 0x10_0000 in the slab store of P2.S5. -/
theorem test_store_address : 2 ^ 46 * 2 + 0x200100000000 + 5 * 0x2000000 + 0x100000 = dpaStore 2 5 0x100000 ∧ dpaStore 2 5 0x100000 = 0xA0010A100000 := by decide

/-- spec/17: HB7 of P2 is link 18, HB3 is link 17, and V0 is vein port 8. -/
theorem test_link_names : linkReg 18 = 18 ∧ linkRouter 18 = 512 + 28 ∧ linkReg 21 = 17 ∧ linkRouter 21 = 512 + 12 ∧ linkRouter 8 = 512 := by decide

/-- spec/12: three BF16 slots of 1.0, 2⁻⁸ and 2⁻⁸, added in slot order, give 0x3F80. -/
theorem test_reduce_order : redAdd 2 (redAdd 2 0x3F80 0x3B80) 0x3B80 = 0x3F80 ∧ redAdd 2 0x3F80 (redAdd 2 0x3B80 0x3B80) = 0x3F81 := by decide +kernel

/-- spec/03: the worked slot entry, and the cycles that it covers. -/
theorem test_slot_entry :
    let e := 0x80FF000007080064
    eStart e = 100 ∧ eLength e = 256 ∧ eOut e = 4 ∧ eIn e = 3 ∧ eLanes e = 0xFF ∧ eValid e = true ∧ eCovers e 355 = true ∧ eCovers e 356 = false := by decide

/-! ## Ill-formed commands -/

/-- A mailbox command of a ring with a descriptor of a length, and a packet of given fields. -/
def shapeCmd (ring len : Nat) : MbxCmd := ⟨ring, List.replicate len 0, [], none, false, false, false⟩
def shapePacket (dest part kind vc len bytes : Nat) : Packet := ⟨dest, 0, part, kind, vc, len, false, false, List.replicate bytes 0, []⟩

theorem test_shape_mailbox : wellFormed (.deviceInfo (shapeCmd 65 64)) = true ∧ wellFormed (.deviceInfo (shapeCmd 66 64)) = false
    ∧ wellFormed (.deviceInfo (shapeCmd 65 63)) = false := by decide

theorem test_shape_packet : wellFormed (.hold (shapePacket 4194303 7 7 3 0 240)) = true ∧ wellFormed (.hold (shapePacket 4194304 0 0 0 0 240)) = false
    ∧ wellFormed (.hold (shapePacket 0 8 0 0 0 240)) = false ∧ wellFormed (.hold (shapePacket 0 0 8 0 0 240)) = false
    ∧ wellFormed (.hold (shapePacket 0 0 0 4 0 240)) = false ∧ wellFormed (.hold (shapePacket 0 0 0 0 16 4080)) = false
    ∧ wellFormed (.hold (shapePacket 0 0 0 0 0 239)) = false ∧ wellFormed (.hold { shapePacket 0 0 0 0 0 240 with src := 4194304 }) = false := by decide +kernel

theorem test_shape_access : wellFormed (.functionLevelReset ⟨2, 16⟩) = true ∧ wellFormed (.functionLevelReset ⟨1, 0⟩) = false
    ∧ wellFormed (.functionLevelReset ⟨0, 17⟩) = false ∧ wellFormed (.perstAssert 3) = false ∧ wellFormed (.mbxDoorbell ⟨0, 0⟩ 66 0) = false
    ∧ wellFormed (.assayFeedByte ⟨0, 0⟩ 4 0 0) = false ∧ wellFormed (.assayFeedByte ⟨0, 0⟩ 0 8 0) = false := by decide

theorem test_shape_message : wellFormed (.getTid ⟨2, 255, none, []⟩) = true ∧ wellFormed (.getTid ⟨3, 0, none, []⟩) = false
    ∧ wellFormed (.getTid ⟨0, 256, none, []⟩) = false ∧ wellFormed (.getTid ⟨0, 0, none, List.replicate 1025 0⟩) = false
    ∧ wellFormed (.mctpPacketReceive 3 []) = false ∧ wellFormed (.mctpAssemblyTimeout 3 0 0) = false := by decide +kernel

theorem test_shape_numbers : wellFormed (.noticePost 8) = false ∧ wellFormed (.fwSwitchDie 4) = false ∧ wellFormed (.calRunDone 3 0 true) = false
    ∧ wellFormed (.unitLeaveService 6 0 0) = false ∧ wellFormed (.pebbleRemap 32 0) = false ∧ wellFormed (.pebbleRemap 0 8) = false
    ∧ wellFormed (.hbmRetireCopyDone 20) = false ∧ wellFormed (.hbmChRetireEffect 0 32) = false ∧ wellFormed (.descriptorFetch 66 none) = false
    ∧ wellFormed (.guaranteeWindowEnd 0 4) = false ∧ wellFormed (.marginEmergency 8) = false ∧ wellFormed (.thermalTrip false 48 0) = false := by decide

theorem test_shape_engines : wellFormed (.pass 31 1 1223) = true ∧ wellFormed (.pass 32 0 0) = false ∧ wellFormed (.pass 0 2 0) = false
    ∧ wellFormed (.pass 0 0 1224) = false ∧ wellFormed (.vAdd 255 3 1223) = true ∧ wellFormed (.vAdd 256 0 0) = false ∧ wellFormed (.vAdd 0 4 0) = false
    ∧ wellFormed (.vAdd 0 0 1224) = false ∧ wellFormed (.dmaDescStart 0 2 0) = false ∧ wellFormed (.streamDescStart 32 0 0) = false
    ∧ wellFormed (.streamDescStart 0 3 0) = false ∧ wellFormed (.slotEntryFire 128 0 0) = false ∧ wellFormed (.slotEntryFire 0 1024 0) = false
    ∧ wellFormed (.cairnWaitTimeout 64 0) = false ∧ wellFormed (.cairnWaitTimeout 0 32) = false ∧ wellFormed (.barrierLate 0 16) = false := by decide

theorem test_shape_links : wellFormed (.routedTimeout 65536) = false ∧ wellFormed (.escapeTimer 1024 0 0 0) = false ∧ wellFormed (.escapeTimer 0 96 0 0) = false
    ∧ wellFormed (.escapeTimer 0 0 4 0) = false ∧ wellFormed (.reduceTagTimeout 32 0 0) = false ∧ wellFormed (.reduceTagTimeout 0 256 0) = false
    ∧ wellFormed (.controlRingMessage 0 26 0 0 false) = false ∧ wellFormed (.controlRingMessage 0 0 26 0 false) = false
    ∧ wellFormed (.portActive 20) = false ∧ wellFormed (.linkTxSlot 0 1280) = false ∧ wellFormed (.autoRetire 0 64) = false
    ∧ wellFormed (.testModeEntry 0 256) = false := by decide

end Sys2Proof.Tests
end

/-! PROOFS. The words of slab commands and DMA descriptors: packed fields and little-endian bytes read back (R6, R7), then O57. -/

namespace Sys2Proof.Machine

/-! ## Packed fields (R6) -/

@[simp] theorem n2b_b2n (b : Bool) : n2b (b2n b) = b := by cases b <;> rfl

theorem b2n_lt_two (b : Bool) : b2n b < 2 := by cases b <;> decide

theorem fieldsFit_cons {w v : Nat} {ws vs : List Nat} : fieldsFit (w :: ws) (v :: vs) ↔ v < 2 ^ w ∧ fieldsFit ws vs := by
  simp [fieldsFit, and_left_comm]

/-- Values that fit come back from their packing; a wider value loses its high bits there. -/
theorem unpackFields_packFields {ws vs : List Nat} (h : fieldsFit ws vs) : unpackFields ws (packFields ws vs) = vs := by
  induction ws generalizing vs with
  | nil => simpa [unpackFields, fieldsFit, eq_comm] using h.1
  | cons w ws ih =>
    cases vs with
    | nil => simp [fieldsFit] at h
    | cons v vs =>
      obtain ⟨hv, hvs⟩ := fieldsFit_cons.1 h
      have hlow : (v % 2 ^ w + 2 ^ w * packFields ws vs) % 2 ^ w = v := by
        rw [Nat.add_mul_mod_self_left, Nat.mod_mod, Nat.mod_eq_of_lt hv]
      have hrest : (v % 2 ^ w + 2 ^ w * packFields ws vs) / 2 ^ w = packFields ws vs := by
        rw [Nat.mod_eq_of_lt hv, Nat.add_mul_div_left v _ (Nat.two_pow_pos w), Nat.div_eq_of_lt hv, Nat.zero_add]
      simp only [packFields, unpackFields, hlow, hrest, ih hvs]

/-- Packing takes the low bits of each value, so its number has as many bits as the widths together. -/
theorem packFields_lt (ws vs : List Nat) : packFields ws vs < 2 ^ ws.sum := by
  induction ws generalizing vs with
  | nil => exact Nat.one_pos
  | cons w ws ih =>
    cases vs with
    | nil => exact Nat.two_pow_pos _
    | cons v vs =>
      calc v % 2 ^ w + 2 ^ w * packFields ws vs
          < 2 ^ w * (packFields ws vs + 1) := by rw [Nat.mul_succ]; have := Nat.mod_lt v (Nat.two_pow_pos w); omega
        _ ≤ 2 ^ w * 2 ^ ws.sum := Nat.mul_le_mul_left _ (ih vs)
        _ = 2 ^ (w :: ws).sum := by rw [List.sum_cons, Nat.pow_add]

/-- Fields of 64 bits together fill one word. -/
theorem packFields_lt_word {ws : List Nat} (h : ws.sum = 64) (vs : List Nat) : packFields ws vs < 2 ^ 64 := h ▸ packFields_lt ws vs

/-! ## Little-endian words in a byte string (R7) -/

/-- The first n bytes of a string that starts with a number's n bytes are that number. -/
theorem leAt_natLe_append {n v : Nat} (h : v < 2 ^ (8 * n)) (bs : List Byte) : leAt (natLe n v ++ bs) 0 n = v := by
  induction n generalizing v with
  | zero => exact (Nat.lt_one_iff.1 h).symm
  | succ n ih =>
    have hq : v / 256 < 2 ^ (8 * n) :=
      Nat.div_lt_of_lt_mul (by rwa [Nat.mul_succ, Nat.add_comm, Nat.pow_add] at h)
    have hrest : leNat ((natLe n (v / 256) ++ bs).take n) = v / 256 := ih hq
    calc leAt (natLe (n + 1) v ++ bs) 0 (n + 1)
        = v % 256 + 256 * leNat ((natLe n (v / 256) ++ bs).take n) := by simp [leAt, natLe, leNat]
      _ = v := by rw [hrest, Nat.mod_add_div]

/-- Offsets at or past the end of a number's n bytes read the string behind them. -/
theorem leAt_natLe_append_ge {n k : Nat} (h : n ≤ k) (v m : Nat) (bs : List Byte) : leAt (natLe n v ++ bs) k m = leAt bs (k - n) m := by
  induction n generalizing v k with
  | zero => rfl
  | succ n ih =>
    obtain ⟨j, rfl⟩ := Nat.exists_eq_add_of_le' h
    have hrest : leAt (natLe n (v / 256) ++ bs) (j + n) m = leAt bs (j + n - n) m := ih (Nat.le_add_left n j) _
    simpa [leAt, natLe, ← Nat.add_assoc] using hrest

/-- A command whose words are 64 bits comes back from its 32 bytes (R202). -/
theorem cmdWordsOf_bytes {w : CmdWords} (h0 : w.w0 < 2 ^ 64) (h1 : w.w1 < 2 ^ 64) (h2 : w.w2 < 2 ^ 64) (h3 : w.w3 < 2 ^ 64) :
    cmdWordsOf w.bytes = w := by
  have front {v : Nat} (hv : v < 2 ^ 64) (bs : List Byte) : leAt (natLe 8 v ++ bs) 0 8 = v := leAt_natLe_append hv bs
  have last : leAt (natLe 8 w.w3) 0 8 = w.w3 := by simpa using front h3 []
  simp [cmdWordsOf, CmdWords.bytes, leAt_natLe_append_ge, front h0, front h1, front h2, last]

/-! ## Slab commands (R206 to R215) -/

/-- W0 gives back the opcode and what is attached to the command (R206). -/
theorem unpackFields_encodeW0 {a : Attach} {code : Nat} (hc : code < 256) (hwc : a.waitCairn < 1024) (hwn : a.waitN < 65536)
    (hsc : a.sigCairn < 1024) (hsi : a.sigInc < 256) :
    unpackFields w0Widths (encodeW0 a code)
      = [code, b2n a.waitEn, b2n a.waitObs, a.waitCairn, a.waitN, b2n a.sigEn, a.sigCairn, a.sigInc, 0] := by
  refine unpackFields_packFields ?_
  simp only [w0Widths, fieldsFit_cons]
  exact ⟨hc, b2n_lt_two _, b2n_lt_two _, hwc, hwn, b2n_lt_two _, hsc, hsi, by decide, by simp [fieldsFit]⟩

@[simp] theorem encodeSlab_w0 (c : SlabCmd) : (encodeSlab c).w0 = encodeW0 c.at_ c.op.code := by
  unfold encodeSlab; cases c.op <;> rfl

theorem SlabOp.code_lt (o : SlabOp) : o.code < 256 := by cases o <;> simp [SlabOp.code]

/-- The words W1 to W3 give back an operation that fits, under its opcode. -/
theorem decodeOp_encodeSlab (a : Attach) {o : SlabOp} (h : o.fits) : decodeOp o.code (encodeSlab ⟨a, o⟩) = some o := by
  cases o with
  | pass p =>
    obtain ⟨hk, hn, hm, h1⟩ := h
    simp [decodeOp, SlabOp.code, encodeSlab, unpackFields_packFields h1, Nat.sub_add_cancel, hk, hn, hm]
  | drain d =>
    obtain ⟨hr, hn, h1, h2, h3⟩ := h
    simp [decodeOp, SlabOp.code, encodeSlab, unpackFields_packFields h1, unpackFields_packFields h2, unpackFields_packFields h3,
      Nat.sub_add_cancel, hr, hn]
  | streak k =>
    obtain ⟨hk, hn, hm, h1, h2⟩ := h
    simp [decodeOp, SlabOp.code, encodeSlab, unpackFields_packFields h1, unpackFields_packFields h2, Nat.sub_add_cancel, hk, hn, hm]
  | dma i s t u => simp [decodeOp, SlabOp.code, encodeSlab, unpackFields_packFields (show fieldsFit _ _ from h)]
  | barrier ch r => simp [decodeOp, SlabOp.code, encodeSlab, unpackFields_packFields (show fieldsFit _ _ from h)]
  | base r v st =>
    obtain ⟨h1, h2⟩ := h
    simp [decodeOp, SlabOp.code, encodeSlab, unpackFields_packFields h1, unpackFields_packFields h2]
  | loop n b m =>
    obtain ⟨hn, h1⟩ := h
    simp [decodeOp, SlabOp.code, encodeSlab, unpackFields_packFields h1, Nat.sub_add_cancel, hn]
  | sync => rfl
  | nop => rfl
  | finish => rfl

/-- A slab command whose fields fit comes back from its words. -/
theorem decodeSlab_encodeSlab {c : SlabCmd} (h : c.fits) : decodeSlab (encodeSlab c) = some c := by
  obtain ⟨hwc, hwn, hsc, hsi, ho⟩ := h
  simp [decodeSlab, unpackFields_encodeW0 c.op.code_lt hwc hwn hsc hsi, decodeOp_encodeSlab c.at_ ho]

/-- The words of a command are 64 bits each: a word that holds fields is filled by them, and the others are 0. -/
theorem encodeSlab_lt (c : SlabCmd) :
    (encodeSlab c).w0 < 2 ^ 64 ∧ (encodeSlab c).w1 < 2 ^ 64 ∧ (encodeSlab c).w2 < 2 ^ 64 ∧ (encodeSlab c).w3 < 2 ^ 64 := by
  obtain ⟨a, o⟩ := c
  have packed {ws : List Nat} (h : ws.sum = 64) {vs : List Nat} : packFields ws vs < 2 ^ 64 := packFields_lt_word h vs
  have zero : 0 < 2 ^ 64 := Nat.two_pow_pos 64
  cases o with
  | drain => exact ⟨packed rfl, packed rfl, packed rfl, packed rfl⟩
  | streak | base => exact ⟨packed rfl, packed rfl, packed rfl, zero⟩
  | pass | dma | barrier | loop => exact ⟨packed rfl, packed rfl, zero, zero⟩
  | sync | nop | finish => exact ⟨packed rfl, zero, zero, zero⟩

/-! ## DMA descriptors (R225) -/

/-- The decoder reads the low field of a two-field word without splitting it. -/
theorem packFields_mod {w r v x : Nat} (h : fieldsFit [w, r] [v, x]) : packFields [w, r] [v, x] % 2 ^ w = v :=
  (List.cons.inj (unpackFields_packFields h)).1

theorem packFields_div_mod {w r v x : Nat} (h : fieldsFit [w, r] [v, x]) : packFields [w, r] [v, x] / 2 ^ w % 2 ^ r = x :=
  (List.cons.inj (List.cons.inj (unpackFields_packFields h)).2).1

/-- A descriptor whose fields fit comes back from its eight words. `2 ^ 48` and `2 ^ 32` stay powers, as the laws of the two-field words
spell them. -/
theorem decodeDesc_encodeDesc {e : Desc} (h : e.fits) : decodeDesc (encodeDesc e) = some e := by
  obtain ⟨hk, hn, hm, hl, h0, h1, h2, h3, h4, h5, h6, h7⟩ := h
  simp [-Nat.reducePow, decodeDesc, encodeDesc, unpackFields_packFields h0, unpackFields_packFields h5, d48Widths, d32Widths, packFields_mod h1,
    packFields_mod h2, packFields_mod h3, packFields_div_mod h3, packFields_mod h4, packFields_div_mod h4, packFields_mod h6,
    packFields_mod h7, Nat.sub_add_cancel, hk, hn, hm, hl]

/-- Settles O57: packed fields that fit read back word by word, and 64-bit words read back from their little-endian bytes. -/
theorem slabWordsRoundTrip : Obligations.SlabWordsRoundTrip := by
  refine ⟨fun c hc => ⟨decodeSlab_encodeSlab hc, ?_⟩, fun _ he => decodeDesc_encodeDesc he⟩
  obtain ⟨h0, h1, h2, h3⟩ := encodeSlab_lt c
  exact cmdWordsOf_bytes h0 h1 h2 h3

end Sys2Proof.Machine

/-! PROOFS. What a mailbox command that passes its checks finds and what its completion leaves (R441, R448, R455). -/

namespace Sys2Proof.Machine

/-! ## Commands of a running device -/

/-- A command of a running device completes with the effect that its meaning has on the device as found. -/
theorem completes_of_live {i : Instr} {s : State} {f : Dev → Dev} {E : State → Prop} (hl : Live s) (hi : exec i s = s.live f)
    (hE : E { s with dev := settle (f s.found) }) : Completes i s E :=
  ⟨_, hi.trans (live_eq hl f), hE⟩

theorem gives_of_live {i : Instr} {s : State} {f : Dev → Dev} {d : Dev} (hl : Live s) (hi : exec i s = s.live f) (hd : f s.found = d) :
    Gives i s d := by
  subst hd; exact hi.trans (live_eq hl f)

/-! ## Partitions left alone -/

theorem getPart_eq_of_parts {d e : Dev} (h : d.parts = e.parts) (n : Nat) : d.getPart n = e.getPart n := congrArg (tabGet ({} : Part) n) h

theorem ite_parts {c : Prop} [Decidable c] {d e e' : Dev} (h : e.parts = d.parts) (h' : e'.parts = d.parts) :
    (if c then e else e').parts = d.parts := by
  split
  · exact h
  · exact h'

/-! ## From the descriptor to the effect -/

/-- What the checks of R448 and the audit record of R455 may have set when the effect of a command begins; its ring executes then. -/
structure Clearance where
  out : List Out
  alertN : Bool
  auditBytes : List (List Byte)
  auditBase : Nat
  evtRing : EvtRing
  installer : Session
  maker : Session
  auditSeq : Nat
  auditLast : List Byte
  evt : Events
  err : Bool

/-- The device as the effect of a command on a ring finds it: what reads none of these fields is as on the device found, by definition. -/
def Dev.cleared (d : Dev) (ring : Nat) (a : Clearance) : Dev :=
  { d.modRing ring (fun q => { q with executing := true }) with
    clock.out := a.out, pins.alertN := a.alertN, flash.auditBytes := a.auditBytes, flash.auditBase := a.auditBase, host.evt := a.evtRing
    sec.installer := a.installer, sec.maker := a.maker, sec.auditSeq := a.auditSeq, sec.auditLast := a.auditLast, evt := a.evt
    mirror.err := a.err }

@[simp] theorem cleared_clock_wall (d : Dev) (ring : Nat) (a : Clearance) : (d.cleared ring a).clock.wall = d.clock.wall := rfl

theorem modRing_eq_cleared (d : Dev) (ring : Nat) : ∃ a, d.modRing ring (fun q => { q with executing := true }) = d.cleared ring a :=
  ⟨⟨d.clock.out, d.pins.alertN, d.flash.auditBytes, d.flash.auditBase, d.host.evt, d.sec.installer, d.sec.maker, d.sec.auditSeq,
    d.sec.auditLast, d.evt, d.mirror.err⟩, rfl⟩

theorem cleared_setSession (d : Dev) (ring : Nat) (a : Clearance) (r : Nat) (x : Session) :
    ∃ a', (d.cleared ring a).setSession r x = d.cleared ring a' := by
  unfold Dev.setSession
  split
  · exact ⟨{ a with installer := x }, rfl⟩
  · exact ⟨{ a with maker := x }, rfl⟩

theorem cleared_audit (d : Dev) (ring : Nat) (a : Clearance) (role session opcode r target : Nat) (old new : List Byte) :
    ∃ a', (d.cleared ring a).audit role session opcode r target old new = d.cleared ring a' := by
  unfold Dev.audit
  dsimp only
  generalize Ev.mk .. = ev
  obtain ⟨o, p, h, e, m, q⟩ := raise_shape _ ev
  exact ⟨⟨o, p, _, _, h, a.installer, a.maker, _, _, e, m⟩, q⟩

/-- A ready command passes step 2 of R448, which changes at most its session. -/
theorem checkRole_ready {s : State} {sp : MbxSpec} {c : MbxCmd} (h : mbxReady s sp c) :
    ∃ a, (s.found.modRing c.ring (fun q => { q with executing := true })).checkRole sp c = (none, s.found.cleared c.ring a) := by
  obtain ⟨-, -, -, -, -, -, hrole, hgrant, hsession, -, -, hread, -⟩ := h
  obtain ⟨a, ha⟩ := modRing_eq_cleared s.found c.ring
  rw [ha]
  have hgranted : ¬(c.ring < 64 ∧ (s.found.cleared c.ring a).granted c.ring ≠ some c.part) := fun ⟨hr, hn⟩ => hn (hgrant hr)
  unfold Dev.checkRole
  rw [if_neg hgranted, hrole]
  by_cases hplain : c.ring < 64 ∨ sp.opcode = 0x0002
  · exact ⟨a, by simp [hplain]⟩
  · obtain ⟨hr, hop⟩ := not_or.1 hplain
    obtain ⟨hopen, hid, hseq, hauth⟩ := hsession (Nat.le_of_not_lt hr) hop
    have hsame : (s.found.cleared c.ring a).ringSession c.ring = s.found.ringSession c.ring := by rw [← ha]; rfl
    obtain ⟨a', ha'⟩ := cleared_setSession s.found c.ring a c.ring
      { s.found.ringSession c.ring with
        nextSeq := wrapAdd 32 (s.found.ringSession c.ring).nextSeq 1, fails := 0, last := s.found.clock.wall }
    refine ⟨a', ?_⟩
    simp [hr, hop, Dev.checkSession, hread, hsame, hopen, hid, hseq, hauth, ← ha']

/-- An accepted command takes its effect after its audit record (R455). -/
theorem accept_cleared (d : Dev) {sp : MbxSpec} {c : MbxCmd} (hc : c.auditFails = false) (a : Clearance) (p : Plan) :
    ∃ a' b, (d.cleared c.ring a).accept sp c p = (d.cleared c.ring a').commit sp c b p := by
  unfold Dev.accept
  rw [hc]
  split
  · exact ⟨a, false, rfl⟩
  · simp only [Bool.false_eq_true, if_false]
    split
    · exact ⟨a, true, rfl⟩
    · obtain ⟨a', ha'⟩ := cleared_audit d c.ring a _ _ _ _ _ _ _
      exact ⟨a', true, by rw [ha']⟩

/-- Steps 3 and 4 of R448 and R449 let a ready command pass to its own checks, here ones that accept it. -/
theorem checkRest_ready {s : State} {sp : MbxSpec} {c : MbxCmd} {p : Plan} (h : mbxReady s sp c) (a : Clearance)
    (hrun : sp.run c (s.found.cleared c.ring a) = .go p) : (s.found.cleared c.ring a).checkRest sp c = (s.found.cleared c.ring a).accept sp c p := by
  obtain ⟨-, -, -, -, -, -, -, -, -, hreserved, hconflict, hread, -⟩ := h
  have hfree : (if sp.reads then none else (s.found.cleared c.ring a).conflictRing sp c) = none := by
    split
    · rfl
    · exact hconflict (by simpa using ‹¬sp.reads = true›)
  simp [Dev.checkRest, hreserved, hfree, hread, hrun]

/-- A ready command whose own checks accept it takes its effect and ends by `Dev.commit`. -/
theorem mbxRow_commits {s : State} {sp : MbxSpec} {c : MbxCmd} {p : Plan} (h : mbxReady s sp c)
    (hrun : ∀ a, sp.run c (s.found.cleared c.ring a) = .go p) :
    ∃ a b, mbxRow sp none c s.found = (s.found.cleared c.ring a).commit sp c b p := by
  obtain ⟨a, hrole⟩ := checkRole_ready h
  have hrest := checkRest_ready h a (hrun a)
  obtain ⟨-, hserving, hcode, hring, hidle, hpark, -, -, -, -, -, -, haudit⟩ := h
  obtain ⟨a', b, haccept⟩ := accept_cleared s.found (sp := sp) haudit a p
  refine ⟨a', b, ?_⟩
  have hgate : (c.opcode == sp.opcode && true && s.found.serving && decide (c.ring < 66) && !(s.found.getRing c.ring).executing) = true := by
    rw [hserving, hidle]; simp [hcode, hring]
  unfold mbxRow Dev.runMbx
  dsimp only
  rw [hgate, gate_true, hpark, hrole]
  exact hrest.trans haccept

/-! ## From the effect to the completion -/

/-- Everything that a completion entry changes: the outputs and the rings. -/
theorem postEntry_shape (d : Dev) (ring opcode flags tag head : Nat) (irq : Bool) (r : Reply) :
    ∃ o q, d.postEntry ring opcode flags tag head irq r = { d with clock.out := o, host.rings := q } := by
  unfold Dev.postEntry
  split
  · exact ⟨_, _, rfl⟩
  · exact ⟨_, _, rfl⟩

/-- Everything that the completion of a command changes: the outputs and the rings. -/
theorem completeCmd_shape (d : Dev) (ring opcode tag head : Nat) (irq audited cplFails : Bool) (bufAddr : Nat) (r : Reply) :
    ∃ o q, d.completeCmd ring opcode tag head irq audited cplFails bufAddr r = { d with clock.out := o, host.rings := q } := by
  have hbuf : ∃ o, (if r.out.isEmpty then d else d.emit (.hostWrite bufAddr r.out)) = { d with clock.out := o } := by
    split
    · exact ⟨d.clock.out, rfl⟩
    · exact ⟨_, rfl⟩
  obtain ⟨o, ho⟩ := hbuf
  unfold Dev.completeCmd
  dsimp only
  split
  · exact ⟨_, _, rfl⟩
  · rw [ho]
    split
    · exact ⟨_, _, rfl⟩
    · obtain ⟨o', q, h⟩ := postEntry_shape { d with clock.out := o } ring opcode (4 * b2n audited) tag head irq r
      rw [h]
      exact ⟨_, _, rfl⟩

@[simp] theorem finish_parts (d : Dev) (c : MbxCmd) (audited : Bool) (r : Reply) : (d.finish c audited r).parts = d.parts := by
  obtain ⟨o, q, h⟩ := completeCmd_shape d c.ring c.opcode c.tag (d.getRing c.ring).head c.irq audited c.cplFails c.bufAddr r
  rw [Dev.finish, h]

/-- A command that waited completes and leaves every partition alone. -/
@[simp] theorem completeLate_parts (d : Dev) (w : Waiting) (r : Reply) : (d.completeLate w r).parts = d.parts := by
  unfold Dev.completeLate
  dsimp only
  obtain ⟨o, q, h⟩ := completeCmd_shape _ w.ring w.opcode w.tag w.headAfter w.irq w.audited false 0 r
  rw [h]
  exact ite_parts rfl rfl

@[simp] theorem completeAll_parts (d : Dev) (pick : Waiting → Bool) (r : Waiting → Reply) : (d.completeAll pick r).parts = d.parts :=
  each_keeps (fun d => d.parts) _ (fun d w => completeLate_parts d w (r w)) _ d

/-- Beside its effect a command changes no partition. -/
theorem commit_parts (d : Dev) (sp : MbxSpec) (c : MbxCmd) (b : Bool) (p : Plan) : (d.commit sp c b p).parts = (p.effect d).1.parts := by
  unfold Dev.commit
  rcases p.effect d with ⟨e, r⟩
  dsimp only
  split
  · rfl
  · exact (finish_parts _ _ _ _).trans (ite_parts rfl rfl)

theorem commit_waits {d : Dev} {p : Plan} (sp : MbxSpec) (c : MbxCmd) (b : Bool) (hw : (p.effect d).2.waits = true) :
    d.commit sp c b p = (p.effect d).1.hold_ sp c b := by
  unfold Dev.commit
  rcases he : p.effect d with ⟨e, r⟩
  rw [he] at hw
  exact if_pos hw

/-- A command that is held waits for its own event (R451). -/
theorem waitsFor_hold (s : State) (d : Dev) (sp : MbxSpec) (c : MbxCmd) (b : Bool) : waitsFor { s with dev := settle (d.hold_ sp c b) } c :=
  ⟨_, List.mem_append_right _ List.mem_cons_self, rfl, rfl, rfl, rfl⟩

end Sys2Proof.Machine

/-! PROOFS. A job from JOB_START to its notice (R29, R35, R332, R451, R454), then O35. -/

namespace Sys2Proof.Machine

/-! ## JOB_START -/

@[simp] theorem keepNotice_image (d : Dev) (n : Nat) : ((d.keepNotice n).getPart n).image = (d.getPart n).image := by
  unfold Dev.keepNotice
  dsimp only
  split
  · split
    · simp
    · rfl
  · rfl

@[simp] theorem askFrequency_parts (d : Dev) (n freq : Nat) : (d.askFrequency n freq).parts = d.parts :=
  each_keeps (fun d => d.parts) _ (fun _ _ => by exact ite_parts rfl rfl) _ d

@[simp] theorem wake_parts (d : Dev) : d.wake.parts = d.parts := by
  unfold Dev.wake
  exact ite_parts rfl (ite_parts rfl rfl)

/-- An accepted job is RUNNING and waits for its start beat (R35, R451). -/
theorem acceptJob_job {d : Dev} {n : Nat} {i : Image} (hi : (d.getPart n).image = some i) (start : Nat) (notify : Option Nat) :
    let j := ((d.acceptJob n start notify).getPart n).job
    j.state = 2 ∧ j.waitStart = true ∧ j.lockstep = i.lockstep ∧ j.startBeat = start := by
  simp only [Dev.acceptJob, keepNotice_image, hi]
  rw [getPart_eq_of_parts (askFrequency_parts _ _ _)]
  simp

theorem startJob_parts {d : Dev} {n : Nat} (h : d.pairedJob n = false) (start : Nat) (notify : Option Nat) :
    (d.startJob n start notify).1.parts = (d.acceptJob n start notify).parts := by
  simp [Dev.startJob, h]

/-- The plan of a JOB_START that passes its checks. -/
def startPlan (c : MbxCmd) (i : Image) : Plan where
  effect := fun d => d.startJob c.part (if i.lockstep then c.a0 else d.beat.number) (if c.a1.testBit 0 then some c.ring else none)

theorem jobStartSpec_accepts {d : Dev} {c : MbxCmd} {i : Image} (hp : c.part < 8) (hl : (d.getPart c.part).live = true)
    (hf : d.startFail c.part = none) (hi : (d.getPart c.part).image = some i) (hb : i.lockstep = true → d.earliestStart ≤ c.a0) :
    jobStartSpec.run c d = .go (startPlan c i) := by
  have hlate : ¬(i.lockstep = true ∧ c.a0 < d.earliestStart) := fun ⟨h, hlt⟩ => Nat.not_le_of_lt hlt (hb h)
  simp only [jobStartSpec, Dev.ofPart, hp, hl, hf, hi, and_self, if_true, if_neg hlate]
  rfl

theorem startPlan_parts {d : Dev} {c : MbxCmd} (h : d.pairedJob c.part = false) (i : Image) :
    ((startPlan c i).effect d).1.parts
      = (d.acceptJob c.part (if i.lockstep then c.a0 else d.beat.number) (if c.a1.testBit 0 then some c.ring else none)).parts :=
  startJob_parts h _ _

/-- R29, R35, R36, R451: an accepted JOB_START outside a mirrored pair. -/
theorem jobStart_completes {s : State} {c : MbxCmd} {i : Image} (h : mbxReady s jobStartSpec c) (hp : c.part < 8)
    (hl : (s.found.getPart c.part).live = true) (hf : s.found.startFail c.part = none) (hm : s.found.pairedJob c.part = false)
    (hi : (s.found.getPart c.part).image = some i) (hb : i.lockstep = true → s.found.earliestStart ≤ c.a0) :
    Completes (.jobStart c) s (fun t =>
      let j := (t.dev.getPart c.part).job
      j.state = 2 ∧ j.waitStart = true ∧ j.lockstep = i.lockstep ∧ j.startBeat = if i.lockstep then c.a0 else s.found.beat.number) := by
  obtain ⟨a, b, hrow⟩ := mbxRow_commits h fun a => jobStartSpec_accepts (d := s.found.cleared c.ring a) hp hl hf hi hb
  refine completes_of_live h.1 rfl ?_
  rw [hrow, settle_getPart, getPart_eq_of_parts ((commit_parts _ _ _ _ _).trans (startPlan_parts (d := s.found.cleared c.ring a) hm i))]
  exact acceptJob_job (d := s.found.cleared c.ring a) hi _ _

/-! ## Job beat 0 -/

@[simp] theorem registerHead_parts (d : Dev) (key t : Nat) : (d.registerHead key t).parts = d.parts := by
  unfold Dev.registerHead
  dsimp only
  split
  · exact ite_parts rfl rfl
  · rfl

@[simp] theorem beginHalf_parts (d : Dev) (h t : Nat) : (d.beginHalf h t).parts = d.parts := by
  refine each_keeps (fun d => d.parts) _ (fun d k => ?_) _ d
  refine (each_keeps (fun d => d.parts) _ (fun d q => ?_) _ _).trans (each_keeps (fun d => d.parts) _ (fun d x => ?_) _ _)
  · exact each_keeps (fun d => d.parts) _ (fun _ _ => by exact ite_parts rfl rfl) _ _
  · exact ite_parts (registerHead_parts _ _ _) rfl

@[simp] theorem beginMesh_parts (d : Dev) (n : Nat) : (d.beginMesh n).parts = d.parts := by
  unfold Dev.beginMesh
  exact each_keeps (fun d => d.parts) _ (fun d e => modLink_parts d e _) _ _

@[simp] theorem beginAssays_parts (d : Dev) (n : Nat) : (d.beginAssays n).parts = d.parts :=
  each_keeps (fun d => d.parts) _ (fun _ _ => by exact ite_parts rfl rfl) _ d

@[simp] theorem newSetpoint_parts (d : Dev) (h : Nat) : (d.newSetpoint h).parts = d.parts := by
  unfold Dev.newSetpoint
  exact ite_parts rfl rfl

@[simp] theorem applyOffset_parts (d : Dev) (n : Nat) : (d.applyOffset n).parts = d.parts :=
  each_keeps (fun d => d.parts) _ (fun _ _ => by exact ite_parts rfl (newSetpoint_parts _ _)) _ d

/-- At job beat 0 only the beginning job itself changes among the partitions (R35). -/
theorem jobStartBeat_parts {d : Dev} {n : Nat} (h : d.mayBegin n = true) :
    (jobStartBeat n d).parts
      = (d.modPart n (fun p => { p with job := { p.job with waitStart := false, jobBeat := 0, oppIndex := 0 } })).parts := by
  unfold jobStartBeat
  rw [h, gate_true]
  dsimp only
  rw [applyOffset_parts, beginAssays_parts, beginMesh_parts]
  have hhalves (e : Dev) (l : List Nat) : (Dev.each l (fun d k => d.beginHalf k (d.now k 0)) e).parts = e.parts :=
    each_keeps (fun d => d.parts) _ (fun d k => beginHalf_parts d k _) l e
  split <;> split <;> exact hhalves _ _

/-! ## JOB_STOP, the end of a drain and the notice -/

theorem running_state {p : Part} (h : p.running = true) : p.job.state = 2 := by
  simp only [Part.running, Bool.and_eq_true, beq_iff_eq] at h
  exact h.2

theorem stopNext_job {d : Dev} {n : Nat} (hr : (d.getPart n).running = true) (hs : (d.getPart n).job.stopPending = none) (cause : Nat) :
    ((d.stopNext n cause).getPart n).job = { (d.getPart n).job with stopPending := some cause } := by
  simp [Dev.stopNext, hr, hs]

/-- The plan of JOB_STOP. -/
def stopPlan (n : Nat) : Plan where
  effect := fun d => if (d.getPart n).busy then (d.stopNext n 1, { waits := true }) else (d, { r0 := (d.getPart n).result0 })

theorem jobStopSpec_accepts {d : Dev} {c : MbxCmd} (hp : c.part < 8) (hl : (d.getPart c.part).live = true) :
    jobStopSpec.run c d = .go (stopPlan c.part) := by
  simp only [jobStopSpec, Dev.ofPart, hp, hl, and_self, if_true]
  rfl

theorem stopPlan_effect {d : Dev} {n : Nat} (hr : (d.getPart n).running = true) :
    (stopPlan n).effect d = (d.stopNext n 1, { waits := true }) := by
  simp [stopPlan, Part.busy, hr]

/-- R451: JOB_STOP of a running job waits for the edge that stops it. -/
theorem jobStop_completes {s : State} {c : MbxCmd} (h : mbxReady s jobStopSpec c) (hp : c.part < 8)
    (hl : (s.found.getPart c.part).live = true) (hr : (s.found.getPart c.part).running = true)
    (hs : (s.found.getPart c.part).job.stopPending = none) :
    Completes (.jobStop c) s (fun t =>
      waitsFor t c ∧ (t.dev.getPart c.part).job = { (s.found.getPart c.part).job with stopPending := some 1 }) := by
  obtain ⟨a, b, hrow⟩ := mbxRow_commits h fun a => jobStopSpec_accepts (d := s.found.cleared c.ring a) hp hl
  have heff := stopPlan_effect (d := s.found.cleared c.ring a) hr
  refine completes_of_live h.1 rfl ⟨?_, ?_⟩
  · rw [hrow, commit_waits _ _ _ (by rw [heff])]
    exact waitsFor_hold _ _ _ _ _
  · rw [hrow, settle_getPart, getPart_eq_of_parts (commit_parts _ _ _ _ _), heff]
    exact stopNext_job hr hs 1

theorem stopsDone_parts (d : Dev) (n : Nat) : (d.stopsDone n).parts = d.parts := by
  unfold Dev.stopsDone
  exact ite_parts (completeAll_parts _ _ _) rfl

theorem drainEnd_job {d : Dev} {n : Nat} (h : (d.getPart n).draining = true) :
    ((d.drainEnd n).getPart n).job = { (d.getPart n).job with state := if (d.getPart n).job.cause = 0 then 4 else 5 } := by
  simp [Dev.drainEnd, h]

theorem partitionDrainEnd_job {d : Dev} {n : Nat} (h : (d.getPart n).draining = true) (hu : d.unresolved n = false) :
    ((partitionDrainEnd n d).getPart n).job = { (d.getPart n).job with state := if (d.getPart n).job.cause = 0 then 4 else 5 } := by
  unfold partitionDrainEnd
  rw [h, hu, Bool.not_false, Bool.and_self, gate_true, getPart_eq_of_parts (stopsDone_parts _ _), drainEnd_job h]

/-- R454: where no notice waits on a ring, the last job's own is posted. -/
theorem noticePost_own {d : Dev} {n r : Nat} (hserving : d.serving = true)
    (hnone : (upTo 66).all (fun r => (d.getRing r).notices.isEmpty) = true) (hn : (d.getPart n).job.notify = some r)
    (hended : (d.getPart n).job.state = 4 ∨ (d.getPart n).job.state = 5) (htakes : (d.getRing r).takesNotice = true)
    (hempty : (d.getRing r).notices = []) :
    noticePost n d = (d.modPart n (fun p => { p with job := { p.job with notify := none } })).postNotice r
      ⟨n, (d.getPart n).result0, (d.getPart n).result1⟩ := by
  have hstate : ((d.getPart n).job.state == 4 || (d.getPart n).job.state == 5) = true := by simpa using hended
  unfold noticePost
  dsimp only
  rw [hserving, gate_true]
  split
  case h_1 q hfound =>
    have hq : (d.getRing q).notices = [] := List.isEmpty_iff.1 (List.all_eq_true.1 hnone q (List.mem_of_find?_eq_some hfound))
    have htaken := List.find?_some hfound
    simp [hq] at htaken
  case h_2 => simp only [hn, hstate, htakes, hempty, List.isEmpty_nil, Bool.and_self, gate_true]

/-- Settles O35: the effects of the five commands that carry a job from its start to its notice. -/
theorem jobResults : Obligations.JobResults := by
  intro s
  refine ⟨fun c i hc hp hl hf hm hi hb => jobStart_completes hc hp hl hf hm hi hb, fun c hc hp hl hr hs => ?stop, fun n hl hb => ?beat,
    fun n hl hd hu => ?drain,
    fun n r hl hserving hnone hn hended htakes hempty => gives_of_live hl rfl (noticePost_own hserving hnone hn hended htakes hempty)⟩
  case stop =>
    obtain ⟨t, ht, hw, hj⟩ := jobStop_completes hc hp hl hr hs
    exact ⟨t, ht, hw, by rw [hj], by rw [hj]; exact running_state hr⟩
  case beat =>
    refine completes_of_live hl rfl ?_
    rw [settle_getPart, getPart_eq_of_parts (jobStartBeat_parts hb), modPart_same]
    exact ⟨rfl, rfl, rfl⟩
  case drain =>
    refine completes_of_live hl rfl ?_
    rw [settle_getPart, partitionDrainEnd_job hd hu]

end Sys2Proof.Machine

/-! PROOFS. Deep idle (R28, R29), the flush of events (R568), idle sessions (R479) and Assay intervals (R582, R584), then O48. -/

namespace Sys2Proof.Machine

/-! ## Deep idle (R28, R29) -/

theorem deepIdleEntry_enters {d : Dev} (he : d.idle.enabled = true) (hp : d.idle.phase = 0) (hr : d.bed.ready = true)
    (ha : d.idle.awakeUntil = 0) (hb : d.anyBusy = false) :
    deepIdleEntry d = { d with idle.phase := 1, idle.since := d.clock.wall, idle.exitAfter := false } := by
  simp [deepIdleEntry, he, hp, hr, ha, hb]

theorem deepIdleTransitionDone_entered {d : Dev} (hw : 64 ≤ d.clock.wall - d.idle.since) (hp : d.idle.phase = 1)
    (hx : d.idle.exitAfter = false) : deepIdleTransitionDone d = { d with idle.phase := 2, bed.deepIdle := true } := by
  simp [deepIdleTransitionDone, hw, hp, hx]

theorem deepIdleTransitionDone_left {d : Dev} (hw : 64 ≤ d.clock.wall - d.idle.since) (hp : d.idle.phase = 3) :
    deepIdleTransitionDone d = d.endExit := by
  simp [deepIdleTransitionDone, hw, hp]

theorem deepIdleAwakeExpiry_ends {d : Dev} (hp : d.idle.phase = 0) (ha : d.idle.awakeUntil ≠ 0) (hw : d.idle.awakeUntil ≤ d.clock.wall) :
    deepIdleAwakeExpiry d = { d with idle.awakeUntil := 0 } := by
  have hgate : (d.idle.phase == 0 && d.idle.awakeUntil != 0 && decide (d.idle.awakeUntil ≤ d.clock.wall)) = true := by simp [hp, ha, hw]
  rw [deepIdleAwakeExpiry, hgate, gate_true]

/-- The end of an exit frees the jobs of its list; a job that does not wait for the exit stays so. -/
theorem waitExit_each {b n : Nat} {l : List Nat} {d : Dev} (h : n ∈ l ∨ (d.getPart n).job.waitExit = false) :
    ((Dev.each l (fun d n =>
      d.modPart n (fun p => { p with job := { p.job with waitExit := false, beat := b, startBeat := b } })) d).getPart n).job.waitExit = false := by
  induction l generalizing d with
  | nil => simpa [Dev.each] using h
  | cons m l ih =>
    refine ih ?_
    by_cases hn : n = m
    · subst hn; exact .inr (by simp)
    · rw [modPart_ne _ _ hn]
      exact h.imp_left fun hm => (List.mem_cons.1 hm).resolve_left hn

theorem endExit_waitExit (d : Dev) {n : Nat} (hn : n < 8) : (d.endExit.getPart n).job.waitExit = false := by
  have hlate : n ∈ (upTo 8).filter (fun n => (d.getPart n).job.waitExit) ∨ (d.getPart n).job.waitExit = false := by
    simp [upTo, hn]
  unfold Dev.endExit
  exact (congrArg (fun p => p.job.waitExit) (getPart_eq_of_parts (completeAll_parts _ _ _) n)).trans (waitExit_each hlate)

/-! ## Events and sessions (R479, R568) -/

theorem eventLogFlush_full {d : Dev} (ho : d.flash.writesOff = false) (hh : 64 ≤ d.evt.held) : eventLogFlush d = d.flushEvents := by
  simp [eventLogFlush, ho, hh]

theorem sessionIdleTimeout_due {d : Dev} {maker : Bool} (ho : (d.ringSession (if maker then 65 else 64)).isOpen = true)
    (hd : d.due (d.ringSession (if maker then 65 else 64)).last 1800000000000 = true) :
    sessionIdleTimeout maker d = d.closeSession (if maker then 65 else 64) := by
  unfold sessionIdleTimeout
  dsimp only
  rw [ho, hd, Bool.and_self, gate_true]

/-- A session that closes leaves the other role's alone. -/
theorem closeSession_sessions (d : Dev) (maker : Bool) :
    (d.closeSession (if maker then 65 else 64)).ringSession (if maker then 65 else 64) = Session.closed
      ∧ (d.closeSession (if maker then 65 else 64)).ringSession (if maker then 64 else 65) = d.ringSession (if maker then 64 else 65) := by
  cases maker with
  | false => exact ⟨rfl, rfl⟩
  | true => exact ⟨rfl, rfl⟩

/-! ## Assay intervals (R582, R584) -/

theorem assayIntervalClose_full {d : Dev} {die unit : Nat} (hdie : die < 4) (hunit : unit < 8) (hc : (d.getAssay (8 * die + unit)).counts = true)
    (hi : (d.getAssay (8 * die + unit)).blk.interval ≤ (d.getAssay (8 * die + unit)).count) :
    assayIntervalClose die unit d = d.assayClose (8 * die + unit) (d.lastJobBeat (d.getAssay (8 * die + unit)).blk.partition) := by
  simp [assayIntervalClose, hdie, hunit, hc, hi]

/-- What a unit holds once its interval has closed; MISMATCH_SEEN depends on its check, whose event changes no unit. -/
theorem assayClose_unit (d : Dev) (u beat : Nat) :
    let a := d.getAssay u
    ∃ m, (d.assayClose u beat).getAssay u = { a with
      value := a.blk.out a.reg, reg := a.blk.init, count := 0, intervals := wrapAdd 24 a.intervals 1
      state := if a.blk.oneShot then 3 else a.state, mismatchSeen := m } := by
  unfold Dev.assayClose
  dsimp only
  split
  · exact ⟨_, by rw [raise_getAssay, modAssay_same]⟩
  · exact ⟨_, by rw [modAssay_same]⟩

/-- Settles O48: each timer's condition opens its gate, and the effect behind it is read off. -/
theorem managementTimerResults : Obligations.ManagementTimerResults := by
  intro s d hl
  refine ⟨fun he hp hr ha hb => gives_of_live hl rfl (deepIdleEntry_enters he hp hr ha hb),
    fun hw hp hx => gives_of_live hl rfl (deepIdleTransitionDone_entered hw hp hx), fun hw hp => ?left,
    fun hp ha hw => gives_of_live hl rfl (deepIdleAwakeExpiry_ends hp ha hw), fun ho hh => ?flush, fun maker ho hd => ?session,
    fun die unit hdie hunit hc hi => ?assay⟩
  case left =>
    refine completes_of_live hl rfl ?_
    rw [deepIdleTransitionDone_left hw hp]
    exact ⟨rfl, fun n hn => endExit_waitExit d hn⟩
  case flush =>
    refine completes_of_live hl rfl ?_
    rw [eventLogFlush_full ho hh]
    exact ⟨rfl, rfl⟩
  case session =>
    obtain ⟨hclosed, hother⟩ := closeSession_sessions d maker
    refine completes_of_live hl rfl ?_
    rw [sessionIdleTimeout_due ho hd]
    exact ⟨congrArg Session.isOpen hclosed, hother⟩
  case assay =>
    obtain ⟨m, hclosed⟩ := assayClose_unit d (8 * die + unit) (d.lastJobBeat (d.getAssay (8 * die + unit)).blk.partition)
    refine completes_of_live hl rfl ?_
    rw [assayIntervalClose_full hdie hunit hc hi, settle_getAssay, hclosed]
    exact ⟨rfl, rfl, rfl, rfl, rfl⟩

end Sys2Proof.Machine

/-! PROOFS. The beat number over steps and at reset (R33), then O59 and O60; HOP of a master that starts, then O19 refuted. -/

namespace Sys2Proof.Machine

/-! ## Every step (R33) -/

/-- However a command ends, the high-water mark has followed the beat number. -/
theorem settle_beatSafe (d : Dev) (q : List Instr) : BeatSafe ⟨settle d, q⟩ := Nat.le_max_right _ _

/-- Settles O59: a step idles on an empty queue, or runs the front command, which ends by `settle`. -/
theorem stepKeepsBeatSafe : Obligations.StepKeepsBeatSafe := by
  intro s t hs ht
  obtain ⟨hempty, rfl⟩ | ⟨i, rest, d, hfront, rfl⟩ := step_cases ht
  · exact ⟨hs, by rw [hempty]; rfl⟩
  · exact ⟨settle_beatSafe d rest, by rw [hfront]; rfl⟩

/-- Settles O60: every conjunct reads a literal or an empty table of `Dev.reset`. -/
theorem resetState : Obligations.ResetState := by
  refine ⟨rfl, rfl, rfl, rfl, rfl, rfl, fun _ => rfl, fun _ => ⟨rfl, rfl⟩, fun _ => rfl, rfl, rfl, fun _ => rfl,
    fun _ => ⟨rfl, rfl⟩, ?_, rfl⟩
  exact Nat.le_refl 0

/-! ## HOP at a beat edge (R43, R46, R52) -/

theorem nextNumber_parentNext (d : Dev) : d.nextNumber.aux.parentNext = d.aux.parentNext := by
  unfold Dev.nextNumber Dev.becomeMaster Dev.placeOnIn
  dsimp only
  (repeat' split) <;> rfl

theorem newParent_hop {d : Dev} {m : Nat} (h : d.aux.parentNext = some m) : d.newParent.beat.hop = (d.getBPort m).hop + 1 := by
  simp [Dev.newParent, h]

@[simp] theorem decide24_hop (d : Dev) : d.decide24.beat.hop = d.beat.hop := by
  unfold Dev.decide24
  dsimp only
  (repeat' split) <;> simp

@[simp] theorem countHold_hop (d : Dev) : d.countHold.beat.hop = d.beat.hop := by
  unfold Dev.countHold
  dsimp only
  split <;> rfl

@[simp] theorem approachStep_beat (d : Dev) : d.approachStep.beat = d.beat := by
  unfold Dev.approachStep
  dsimp only
  (repeat' split) <;> rfl

/-- A parent chosen under R52 sets HOP at the edge after `Dev.nextNumber`, so also that of a master which starts at the same edge. -/
theorem beatLogic_hop_ne_zero {d : Dev} {m : Nat} (h : d.aux.parentNext = some m) : d.beatLogic.beat.hop ≠ 0 := by
  have hlate : d.portsEdge.nextNumber.aux.parentNext = some m := (nextNumber_parentNext _).trans h
  have hhop : d.beatLogic.beat.hop = d.portsEdge.nextNumber.newParent.beat.hop := by
    unfold Dev.beatLogic
    dsimp only
    split <;> simp
  rw [hhop, newParent_hop hlate]
  exact Nat.succ_ne_zero _

/-- A LOCKED follower whose parent has failed two headers, with port 1 eligible in its place. -/
def orphanedFollower : Dev :=
  { Dev.reset with beat.role := 2, beat.state := bsLocked, beat.ports := [(0, { misses := 2 }), (1, { good := 16 })] }

/-- PARENT_SWITCH, and in the same beat a BEAT_CONFIG that makes the device master from beat number 1 on. -/
def followerMadeMaster : Dev := (parentSwitch orphanedFollower).setBeat 1 0 8 0 0xFFFF 0xF 1

theorem followerMadeMaster_pending :
    followerMadeMaster.aux.startPending = some 1 ∧ followerMadeMaster.beat.source = 0 ∧ followerMadeMaster.aux.parentNext = some 1 := by
  decide

/-- Refutes O19: a master that starts at the edge at which a chosen parent takes over does not get HOP 0, since the new parent's HOP is written after
the start. -/
theorem not_beatNumberAtEdge : ¬ Obligations.BeatNumberAtEdge := by
  intro h
  obtain ⟨hstart, hsource, hparent⟩ := followerMadeMaster_pending
  obtain ⟨-, -, hmaster⟩ := h followerMadeMaster
  obtain ⟨-, -, hhop, -⟩ := hmaster 1 hstart (.inl hsource)
  exact beatLogic_hop_ne_zero hparent hhop

end Sys2Proof.Machine

/-! PROOFS. The beat's own commands (R47 to R54, R62), then O16; hold requests (R58, R59, R506), then O17. -/

namespace Sys2Proof.Machine

/-! ## Loss of the beat (R51, R62, R68) -/

@[simp] theorem beatLossEv_beat (d : Dev) (cause : Nat) :
    (d.beatLossEv cause).beat = { d.beat with lossCause := cause, lossSeen := true } := by
  simp [Dev.beatLossEv]

@[simp] theorem beatLossEv_aux (d : Dev) (cause : Nat) : (d.beatLossEv cause).aux = d.aux := by
  simp [Dev.beatLossEv]

@[simp] theorem stopLockstep_beat (d : Dev) (cause : Nat) : (d.stopLockstep cause).beat = d.beat :=
  each_keeps (fun d => d.beat) _ (fun _ _ => by split <;> rfl) _ d

@[simp] theorem loseBeat_beat (d : Dev) (cause : Nat) :
    (d.loseBeat cause).beat = { d.beat with lossCause := cause, lossSeen := true, ports := [], state := bsLost } := by
  simp [Dev.loseBeat, Dev.clearPorts]

/-! ## The beat's own commands where their conditions hold -/

/-- R51: the edge moves one fine-phase step, by the sign of the sum of 16 errors. -/
theorem alignStep_due {d : Dev} (hs : d.beat.state = bsLocked) (hn : d.aux.alignErrs.length = 16)
    (he : 512 < (d.aux.alignErrs.foldl (· + ·) 0).natAbs) (hw : 64 ≤ d.clock.wall - d.aux.alignWait) :
    alignStep d = { d with
      aux.edgePhase := d.aux.edgePhase + (if 0 < d.aux.alignErrs.foldl (· + ·) 0 then 1 else -1), aux.alignErrs := []
      aux.alignWait := d.clock.wall } := by
  simp [alignStep, hs, hn, he, hw]

theorem headersMissingCount_due {d : Dev} (hr : d.beat.role = 2) (hs : d.beat.state = bsLocked)
    (hm : 4 ≤ d.aux.missing + b2n (!d.heardBeat)) : headersMissingCount d = d.loseBeat 1 := by
  simp [headersMissingCount, hr, hs, hm]

theorem parentSwitch_due {d : Dev} {n : Nat} (hs : d.beat.state = bsLocked)
    (hm : 2 ≤ (d.getBPort d.beat.parentPort).misses + b2n (!(d.getBPort d.beat.parentPort).gotThis))
    (hn : d.chooseParent (some d.beat.parentPort) = some n) : parentSwitch d = { d with aux.parentNext := some n } := by
  simp [parentSwitch, hs, hm, hn]

theorem joinTimeout_due {d : Dev} (hr : d.beat.role = 2) (hs : d.beat.state = bsAligning) (hw : 1024 ≤ d.clock.wall - d.aux.joinSince) :
    joinTimeout d = { (d.beatLossEv d.joinCause).clearPorts with
      beat.state := bsLost, aux.lossSince := (d.beatLossEv d.joinCause).clock.wall, aux.lostByJoin := true } := by
  simp [joinTimeout, hr, hs, hw, Dev.clearPorts]

theorem joinRestart_due {d : Dev} (hr : d.beat.role = 2) (hs : d.beat.state = bsLost) (hj : d.aux.lostByJoin = true)
    (hw : 1024 ≤ d.clock.wall - d.aux.lossSince) : joinRestart d = d.startSearch := by
  simp [joinRestart, hr, hs, hj, hw]

theorem masterConflictExpiry_due {d : Dev} (hs : d.beat.state = bsSearching) (hr : d.aux.conflictRaised = false)
    (hc : 4 ≤ d.aux.conflictBeats + b2n d.aux.conflictNow) :
    masterConflictExpiry d = { d.beatLossEv 3 with aux.conflictRaised := true } := by
  simp [masterConflictExpiry, hs, hr, hc]

/-- R46: a good edge of BEAT_IN places the edge of a master that follows it, by the grid steps of its offset. -/
theorem beatInEdge_followed {d : Dev} {offset : Int} (hr : d.beat.role = 1) (hs : d.beat.source = 1) (ho : offset.natAbs ≤ 128)
    (hf : d.followsIn = true) :
    beatInEdge offset d = { d with
      aux.beatInPhase := offset - 10 * gridSteps offset, aux.beatInIgnored := 0, aux.beatInGood := d.aux.beatInGood + 1
      aux.edgePhase := d.aux.edgePhase + gridSteps offset } := by
  simp [beatInEdge, hr, hs, Nat.not_lt.2 ho, hf, Dev.inPhase, Dev.placeOnIn]

theorem beatInMissing_due {d : Dev} (hr : d.beat.role = 1) (hs : d.beat.source = 1) : beatInMissing d = d.ignoreBeatIn := by
  simp [beatInMissing, hr, hs]

theorem ignoreBeatIn_counts (d : Dev) :
    d.ignoreBeatIn.aux.beatInIgnored = d.aux.beatInIgnored + 1 ∧ d.ignoreBeatIn.aux.beatInGood = 0 := by
  unfold Dev.ignoreBeatIn
  dsimp only
  split
  · simp
  · exact ⟨rfl, rfl⟩

/-- R47: the fourth edge ignored in a row is a loss of BEAT_IN. -/
theorem ignoreBeatIn_fourth {d : Dev} (hs : d.beat.state = bsMaster) (hn : d.aux.beatInIgnored = 3) :
    d.ignoreBeatIn.beat.beatInOk = false ∧ d.ignoreBeatIn.beat.lossCause = 5 := by
  simp [Dev.ignoreBeatIn, hs, hn]

/-- Settles O16: each command's conditions open its gate, and the effect behind it is read off. -/
theorem beatCommandResults : Obligations.BeatCommandResults := by
  intro s hl d sum
  refine ⟨fun hs hn he hw => completes_of_live hl rfl ?align, fun hr hs hm => completes_of_live hl rfl ?missing,
    fun n hs hm hn => completes_of_live hl rfl ?parent, fun hr hs hw => completes_of_live hl rfl ?timeout,
    fun hr hs hj hw => completes_of_live hl rfl ?restart, fun hs hr hc => completes_of_live hl rfl ?conflict,
    fun offset hr hs ho hf => completes_of_live hl rfl ?edge, fun hr hs hm => completes_of_live hl rfl ?noEdge⟩
  case align => rw [alignStep_due hs hn he hw]; exact ⟨rfl, rfl, rfl⟩
  case missing => rw [headersMissingCount_due hr hs hm]; simp [d]
  case parent => rw [parentSwitch_due hs hm hn]; exact ⟨rfl, rfl⟩
  case timeout => rw [joinTimeout_due hr hs hw]; simp [d, Dev.clearPorts]
  case restart => rw [joinRestart_due hr hs hj hw]; exact ⟨rfl, rfl, rfl⟩
  case conflict => rw [masterConflictExpiry_due hs hr hc]; simpa [d] using hs
  case edge => rw [beatInEdge_followed hr hs ho hf]; exact ⟨rfl, rfl, rfl, rfl⟩
  case noEdge =>
    obtain ⟨hignored, hgood⟩ := ignoreBeatIn_counts d
    rw [beatInMissing_due hr hs]
    exact ⟨hignored, hgood, ignoreBeatIn_fourth hm⟩

/-! ## Hold requests (R58, R59, R506) -/

@[simp] theorem freeBuffer_beat (d : Dev) (router inPort vc n : Nat) : (d.freeBuffer router inPort vc n).beat = d.beat := by
  unfold Dev.freeBuffer
  split
  · split <;> rfl
  · rfl

@[simp] theorem leave_beat (d : Dev) (q : QPkt) (flits cyc : Nat) : (d.leave q flits cyc).beat = d.beat := by
  unfold Dev.leave
  dsimp only
  split
  · exact freeBuffer_beat _ _ _ _ _
  · exact freeBuffer_beat _ _ _ _ _

@[simp] theorem takeLocal_beat (d : Dev) (r cyc : Nat) (p : Packet) : (d.takeLocal r cyc p).beat = d.beat := by
  unfold Dev.takeLocal
  split
  · exact leave_beat _ _ _ _
  · rfl

theorem hold_taken {d : Dev} {p : Packet} (hk : p.kind = 5) (hs : d.beat.state = bsMaster) :
    hold p d = (d.takeLocal (routerOf p.dest) 0 p).holdRequest (leAt p.payload 0 2) (leAt p.payload 2 1) (leAt p.payload 3 1 % 16) := by
  simp [hold, hk, hs]

@[simp] theorem holdRequest_number (d : Dev) (device n k : Nat) : (d.holdRequest device n k).beat.number = d.beat.number := by
  unfold Dev.holdRequest
  dsimp only
  split <;> rfl

/-- N = 0 cancels the device's request. -/
theorem holdRequest_cancels (d : Dev) (device k : Nat) : ∀ r ∈ (d.holdRequest device 0 k).beat.requests, r.device ≠ device := by
  simp [Dev.holdRequest]

/-- Another N replaces the device's request by this one. -/
theorem holdRequest_replaces (d : Dev) (device : Nat) {n : Nat} (hn : n ≠ 0) (k : Nat) :
    ∃ r ∈ (d.holdRequest device n k).beat.requests, r.device = device ∧ r.n = n ∧ r.s = k
      ∧ ∀ q ∈ (d.holdRequest device n k).beat.requests, q.device = device → q = r := by
  simp only [Dev.holdRequest, if_neg hn]
  refine ⟨_, List.mem_append_right _ List.mem_cons_self, rfl, rfl, rfl, fun q hq hd => ?_⟩
  obtain hold | hnew := List.mem_append.1 hq
  · simp [hd] at hold
  · exact List.mem_singleton.1 hnew

/-- The requests of the other devices stand. -/
theorem mem_holdRequest_of_ne (d : Dev) {device : Nat} (n k : Nat) {r : HoldReq} (hr : r.device ≠ device) :
    r ∈ (d.holdRequest device n k).beat.requests ↔ r ∈ d.beat.requests := by
  unfold Dev.holdRequest
  dsimp only
  split
  · simp [hr]
  · have hother : ∀ seen, r ≠ ⟨device, n, k, seen⟩ := fun _ h => hr (h ▸ rfl)
    simp [hr, hother]

theorem holdRequestTimer_due {d : Dev} (h : 0 < d.pow.hold) :
    holdRequestTimer d = d.askHolds (cdiv 148 (16 / d.pow.hold - 1 + 1)) (16 / d.pow.hold - 1) := by
  simp [holdRequestTimer, h]

/-- Settles O17: the master's list after the packet has left its queue, and the requests of a device whose level is above 0. -/
theorem holdRequestResults : Obligations.HoldRequestResults := by
  intro s hl d
  refine ⟨fun p hk hs => completes_of_live hl rfl ?_, fun hh => gives_of_live hl rfl (holdRequestTimer_due hh)⟩
  have htaken : (d.takeLocal (routerOf p.dest) 0 p).beat = d.beat := takeLocal_beat _ _ _ _
  rw [hold_taken hk hs, ← htaken]
  refine ⟨holdRequest_number _ _ _ _, fun hn => ?_, fun hn => holdRequest_replaces _ _ hn _, fun r hr => mem_holdRequest_of_ne _ _ _ hr⟩
  rw [hn]
  exact holdRequest_cancels _ _ (leAt p.payload 3 1 % 16)

end Sys2Proof.Machine

/-! PROOFS. Whole resets and PWR_FAIL_N (R523 to R528, R551, R565, R603, R604), then O21. -/

namespace Sys2Proof.Machine

/-! ## Commands of a device in any phase -/

/-- A command that a device carries out in any phase completes with its effect on the device as found. -/
theorem completes_of_run {i : Instr} {s : State} {f : Dev → Dev} {E : State → Prop} (hi : exec i s = s.run f)
    (hE : E { s with dev := settle (f s.found) }) : Completes i s E :=
  ⟨_, hi, hE⟩

theorem gives_of_run {i : Instr} {s : State} {f : Dev → Dev} {d : Dev} (hi : exec i s = s.run f) (hd : f s.found = d) : Gives i s d := by
  subst hd; exact hi

/-! ## Whole resets (R33, R526, R527, R528, R603) -/

/-- What every whole reset leaves: memory and the units at their reset values, no beat number; the fuses and the queue stay (R528). -/
def ResetClean (s t : State) : Prop :=
  t.dev.mem = Dev.reset.mem ∧ t.dev.parts = Dev.reset.parts ∧ t.dev.slab = Dev.reset.slab ∧ t.dev.peb = Dev.reset.peb
    ∧ t.dev.cairn = Dev.reset.cairn ∧ t.dev.links = Dev.reset.links ∧ t.dev.beat.number = 0
    ∧ t.dev.fuses = s.dev.fuses ∧ t.pending = s.pending

/-- A command that wipes the device leaves it clean, whatever pins, boot and trip record it sets. -/
theorem resetClean_wipe {s : State} {d : Dev} (hf : d.fuses = s.dev.fuses) (mark : Bool) (pins : Pins) (boot : Boot) (therm : Thermal) :
    ResetClean s { s with dev := settle { d.wipe mark with pins := pins, boot := boot, therm := therm } } :=
  ⟨rfl, rfl, rfl, rfl, rfl, rfl, rfl, hf, rfl⟩

/-- R33: the high-water mark after a whole reset, where the beat number is 0. -/
theorem settle_wipe_highWater (d : Dev) (mark : Bool) (pins : Pins) (boot : Boot) (therm : Thermal) :
    (settle { d.wipe mark with pins := pins, boot := boot, therm := therm }).beat.highWater = if mark then d.beat.highWater else 0 :=
  Nat.max_zero _

theorem each_emit_shape {α : Type} (o : α → Out) (l : List α) (d : Dev) :
    ∃ c, Dev.each l (fun d a => d.emit (o a)) d = { d with clock.out := c } := by
  induction l generalizing d with
  | nil => exact ⟨_, rfl⟩
  | cons a l ih =>
    obtain ⟨c, hc⟩ := ih (d.emit (o a))
    exact ⟨c, hc⟩

/-- R526, R553: the last rung of the ladder flushes the events, stops the links and wipes the device; `c` holds the setpoints sent to the rails. -/
theorem selfReset_eq (d : Dev) (attempt : Nat) : ∃ c, d.selfReset 3 attempt =
    { ({ d.flushEvents.linksStop with clock.out := c }.wipe true).newRecord 3 attempt with
      pins.addrStrap := d.pins.addrPins }.enter .selfReset := by
  obtain ⟨c, hc⟩ := each_emit_shape (fun r => .setpoint r 800) (upTo 8) d.flushEvents.linksStop
  exact ⟨c, congrArg (fun e : Dev => { (e.wipe true).newRecord 3 attempt with pins.addrStrap := e.pins.addrPins }.enter .selfReset) hc⟩

/-- R523, R603: stage 0 starts over a wiped device. -/
theorem resetClean_bootAfterPin {s : State} {d : Dev} (hf : d.fuses = s.dev.fuses) : ResetClean s { s with dev := settle d.bootAfterPin } :=
  resetClean_wipe (d := d) hf false _ _ _

theorem selfReset_due {d : Dev} (hr : d.bed.ready = true) (hd : d.d2dDown = true) : selfReset 3 d = d.selfReset 3 1 := by
  simp [selfReset, hr, hd]

theorem selfResetHoldEnd_due {d : Dev} (hp : d.boot.phase = .selfReset) (hd : d.due d.boot.since 1000000 = true) :
    selfResetHoldEnd d = d.startStage 0 := by
  simp [selfResetHoldEnd, hp, hd]

theorem resetNRelease_acted {d : Dev} {ns : Nat} (hn : d.pins.resetN = false) (ha : d.pins.resetActed = true) (hw : 10000 ≤ ns) :
    resetNRelease ns none d = { d with
      pins := { d.pins with resetN := true, resetActed := false, thermTripN := true, addrStrap := d.pins.addrPins }
      therm.tripped := false }.bootAfterPin := by
  have hlow : 1000 ≤ ns := Nat.le_trans (by decide) hw
  simp [resetNRelease, hn, ha, hlow, Nat.not_lt.2 hw]

theorem resetNHoldExpiry_due {d : Dev} (hw : d.pins.resetWait = true) (hn : d.pins.resetN = true) :
    resetNHoldExpiry d = d.bootAfterPin := by
  simp [resetNHoldExpiry, hw, hn]

/-! ## PWR_FAIL_N (R551, R565, R604) -/

theorem pwrFailAssert_ready {d : Dev} (h : d.boot.phase = .ready) :
    pwrFailAssert d = { d with pins.pwrFailN := false, pins.stopped := true, flash.writesOff := true }.stopAllJobs 3 := by
  simp [pwrFailAssert, h]

theorem pwrFailAssert_stage {d : Dev} {n : Nat} (h : d.boot.phase = .stage n) :
    pwrFailAssert d = { d with pins.pwrFailN := false, pins.stopped := true, flash.writesOff := true }.enter .powerFail := by
  simp [pwrFailAssert, h]

theorem pwrFailAssert_off {d : Dev} (h : d.boot.phase = .noPower ∨ d.boot.phase = .heldReset) :
    pwrFailAssert d = { d with pins.pwrFailN := false } := by
  obtain h | h := h <;> simp [pwrFailAssert, h]

/-- Settles O21: each command that resets wipes the device, and PWR_FAIL_N is read off by the phase. -/
theorem wholeResetResults : Obligations.WholeResetResults := by
  refine ⟨fun s => ?resets, fun s => ?power⟩
  case resets =>
    intro d clean
    refine ⟨fun hl hr hd => completes_of_live hl rfl ?self, fun hp hd => completes_of_run rfl ?hold, fun hp => completes_of_run rfl ?low,
      fun ns hn ha hw => completes_of_run rfl ?high, fun hw hn => completes_of_run rfl ?late, completes_of_run rfl ?loss⟩
    case self =>
      obtain ⟨c, hc⟩ := selfReset_eq d 1
      rw [selfReset_due hr hd, hc]
      exact ⟨resetClean_wipe (d := { d.flushEvents.linksStop with clock.out := c }) rfl _ _ _ _, rfl, rfl,
        settle_wipe_highWater _ true _ _ _, rfl⟩
    case hold => rw [selfResetHoldEnd_due hp hd]; exact ⟨rfl, rfl⟩
    case low =>
      rw [resetNAssert, if_neg hp]
      exact ⟨resetClean_wipe (d := d.linksStop) rfl true _ _ _, rfl, rfl, rfl, settle_wipe_highWater d.linksStop true _ _ _, rfl⟩
    case high =>
      rw [resetNRelease_acted hn ha hw]
      exact ⟨resetClean_bootAfterPin rfl, rfl, rfl, rfl, rfl, rfl, rfl⟩
    case late =>
      rw [resetNHoldExpiry_due hw hn]
      exact ⟨resetClean_bootAfterPin rfl, rfl, rfl⟩
    case loss => exact ⟨resetClean_wipe (d := d.linksStop) rfl false _ _ _, rfl, rfl, rfl⟩
  case power =>
    exact ⟨fun h => gives_of_run rfl (pwrFailAssert_ready h), fun n h => gives_of_run rfl (pwrFailAssert_stage h),
      fun h => gives_of_run rfl (pwrFailAssert_off h), gives_of_run rfl rfl⟩

end Sys2Proof.Machine

/-! PROOFS. What an accepted mailbox command that completes at once leaves; the commands on the beat and the fabric, then O30. -/

namespace Sys2Proof.Machine

/-! ## A plan of its own checks, from the row to the completion -/

/-- A row of FABRIC_POLICY serves the commands of its SELECT as a row without one does. -/
theorem mbxRow_select {c : MbxCmd} {k : Nat} (h : fld c.a0 0 4 = k) (sp : MbxSpec) : mbxRow sp (some k) c = mbxRow sp none c := by
  funext d
  simp [mbxRow, h]

/-- The device once its command has completed: the outputs, the rings and the flash may have changed; what reads none of these is as before, by
definition. -/
def Dev.completed (d : Dev) (out : List Out) (rings : List (Nat × Ring)) (flash : Flash) : Dev :=
  { d with clock.out := out, host.rings := rings, flash := flash }

@[simp] theorem completed_getLink (d : Dev) (out : List Out) (rings : List (Nat × Ring)) (flash : Flash) (n : Nat) :
    (d.completed out rings flash).getLink n = d.getLink n := rfl

@[simp] theorem completed_getPartFab (d : Dev) (out : List Out) (rings : List (Nat × Ring)) (flash : Flash) (n : Nat) :
    (d.completed out rings flash).getPartFab n = d.getPartFab n := rfl

@[simp] theorem completed_getTree (d : Dev) (out : List Out) (rings : List (Nat × Ring)) (flash : Flash) (n : Nat) :
    (d.completed out rings flash).getTree n = d.getTree n := rfl

@[simp] theorem completed_getWindow (d : Dev) (out : List Out) (rings : List (Nat × Ring)) (flash : Flash) (n : Nat) :
    (d.completed out rings flash).getWindow n = d.getWindow n := rfl

/-- A command that completes at once changes nothing else beside its effect. -/
theorem commit_shape (d : Dev) (sp : MbxSpec) (c : MbxCmd) (b : Bool) {p : Plan} (hw : (p.effect d).2.waits = false) :
    ∃ o q f, d.commit sp c b p = (p.effect d).1.completed o q f := by
  unfold Dev.commit
  rcases he : p.effect d with ⟨e, r⟩
  rw [he] at hw
  dsimp only at hw ⊢
  rw [hw, if_neg Bool.false_ne_true, Dev.finish]
  split
  · obtain ⟨o, q, h⟩ := completeCmd_shape e.saveConfig c.ring c.opcode c.tag (e.saveConfig.getRing c.ring).head c.irq b c.cplFails c.bufAddr r
    exact ⟨o, q, _, h⟩
  · obtain ⟨o, q, h⟩ := completeCmd_shape e c.ring c.opcode c.tag (e.getRing c.ring).head c.irq b c.cplFails c.bufAddr r
    exact ⟨o, q, e.flash, h⟩

/-- A ready command whose own checks give a plan completes: `E` is shown of what the plan makes of the device, whatever the session, the audit
record, the completion and the configuration store have left. -/
theorem completes_of_plan {i : Instr} {s : State} {sp : MbxSpec} {c : MbxCmd} {old new : List Byte} {f : Dev → Dev} {E : State → Prop}
    (h : mbxReady s sp c) (hi : exec i s = s.live (mbxRow sp none c))
    (hrun : ∀ a, sp.run c (s.found.cleared c.ring a) = plan old new f 0 0)
    (hE : ∀ a o q fl, E { s with dev := settle ((f (s.found.cleared c.ring a)).completed o q fl) }) :
    Completes i s E := by
  obtain ⟨a, b, hrow⟩ := mbxRow_commits h hrun
  obtain ⟨o, q, fl, hcommit⟩ := commit_shape (s.found.cleared c.ring a) sp c b
    (p := { old := old, new := new, effect := fun d => (f d, { r0 := 0, r1 := 0 }) }) rfl
  refine completes_of_live h.1 hi ?_
  rw [hrow, hcommit]
  exact hE a o q fl

/-! ## BEAT_CONFIG (R48, R55, R66) -/

theorem setBeat_follower_or_off {d : Dev} {role : Nat} (hr : role = 2 ∨ role = 0) (source cap domain vein d2d start : Nat) :
    let b := (d.setBeat role source cap domain vein d2d start).beat
    b.role = role ∧ b.domain = domain ∧ b.maskVein = vein ∧ b.maskD2d = d2d ∧ b.number = d.beat.number := by
  obtain rfl | rfl := hr
  · have hnotOff : ¬(2 : Nat) = 0 := by decide
    have hnotMaster : ¬(2 : Nat) = 1 := by decide
    simp only [Dev.setBeat, if_neg hnotOff, if_neg hnotMaster]
    split
    case isTrue h =>
      simp only [Bool.and_eq_true, beq_iff_eq] at h
      obtain ⟨⟨⟨⟨hrole, hdomain⟩, hvein⟩, hd2d⟩, -⟩ := h
      exact ⟨hrole.symm, hdomain.symm, hvein.symm, hd2d.symm, rfl⟩
    case isFalse => exact ⟨rfl, rfl, rfl, rfl, rfl⟩
  · exact ⟨rfl, rfl, rfl, rfl, rfl⟩

theorem beatConfigSpec_accepts {d : Dev} {c : MbxCmd} (hb : d.lockBusy = false) (hr : fld c.a0 0 2 = 2 ∨ fld c.a0 0 2 = 0) :
    beatConfigSpec.run c d = plan (natLe 4 d.beatConfigReg ++ natLe 4 (d.beat.maskVein + 2 ^ 16 * d.beat.maskD2d)) (natLe 8 c.a0)
      (fun d => d.setBeat (fld c.a0 0 2) (fld c.a0 2 1) (fld c.a0 3 4) (fld c.a0 16 16) (fld c.a0 32 16) (fld c.a0 48 4) c.a1) 0 0 := by
  have h3 : fld c.a0 0 2 ≠ 3 := by omega
  have h1 : fld c.a0 0 2 ≠ 1 := by omega
  simp [beatConfigSpec, h3, h1, hb]

theorem beatConfig_completes {s : State} {c : MbxCmd} (h : mbxReady s beatConfigSpec c) (hb : s.found.lockBusy = false)
    (hr : fld c.a0 0 2 = 2 ∨ fld c.a0 0 2 = 0) :
    Completes (.beatConfig c) s (fun t => t.dev.beat.role = fld c.a0 0 2 ∧ t.dev.beat.domain = fld c.a0 16 16
      ∧ t.dev.beat.maskVein = fld c.a0 32 16 ∧ t.dev.beat.maskD2d = fld c.a0 48 4 ∧ t.dev.beat.number = s.found.beat.number) :=
  completes_of_plan (old := natLe 4 s.found.beatConfigReg ++ natLe 4 (s.found.beat.maskVein + 2 ^ 16 * s.found.beat.maskD2d)) h rfl
    (fun a => beatConfigSpec_accepts (d := s.found.cleared c.ring a) hb hr) fun _ _ _ _ => setBeat_follower_or_off hr _ _ _ _ _ _

/-! ## LINK_CONFIG (R417, R419) -/

/-- The fields that LinkConfig sets: ENABLE, MAX_WIDTH, MATE and AUTO_RETRY. -/
def LinkRegs.settings (g : LinkRegs) : Bool × Nat × Bool × Bool := (g.enable, g.maxWidth, g.mate, g.autoRetry)

/-- What a change of one link leaves alone in it, it leaves alone in every link. -/
theorem modLink_keeps {β : Type} (g : Link → β) {f : Link → Link} (h : ∀ l, g (f l) = g l) (d : Dev) (k n : Nat) :
    g ((d.modLink k f).getLink n) = g (d.getLink n) := by
  by_cases hn : n = k
  · subst hn; rw [modLink_same, h]
  · rw [modLink_ne _ _ hn]

/-- MATE_OK alone follows the check of the mate ports. -/
theorem mateCheck_keeps {β : Type} (g : Link → β) (h : ∀ l v, g { l with regs.mateOk := v } = g l) (d : Dev) (n : Nat) :
    g (d.mateCheck.getLink n) = g (d.getLink n) := by
  refine each_keeps (fun d => g (d.getLink n)) _ (fun d m => ?_) _ d
  dsimp only
  split
  · rfl
  · exact modLink_keeps g (fun l => h l _) d m n

theorem freeBuffer_regs (d : Dev) (router inPort vc k n : Nat) : ((d.freeBuffer router inPort vc k).getLink n).regs = (d.getLink n).regs := by
  unfold Dev.freeBuffer
  split
  · split
    · exact modLink_keeps Link.regs (fun _ => by rfl) d _ n
    · rfl
  · rfl

theorem dropQueued_regs (d : Dev) (m n : Nat) : ((d.dropQueued m).getLink n).regs = (d.getLink n).regs :=
  each_keeps (fun d => (d.getLink n).regs) _ (fun _ _ => by exact freeBuffer_regs _ _ _ _ _ n) _ _

theorem disablePort_settings (d : Dev) (m n : Nat) : ((d.disablePort m).getLink n).regs.settings = (d.getLink n).regs.settings := by
  unfold Dev.disablePort
  dsimp only
  rw [mateCheck_keeps (fun l => l.regs.settings) (fun _ _ => by rfl), dropQueued_regs]
  exact modLink_keeps (fun l => l.regs.settings) (fun _ => by rfl) d m n

theorem disablePort_state (d : Dev) (n : Nat) : ((d.disablePort n).getLink n).regs.state = 0 := by
  unfold Dev.disablePort
  dsimp only
  rw [mateCheck_keeps (fun l => l.regs.state) (fun _ _ => by rfl), dropQueued_regs, modLink_same]

theorem beginAttempt_settings (d : Dev) (m attempt : Nat) (full : Bool) (n : Nat) :
    ((d.beginAttempt m attempt full).getLink n).regs.settings = (d.getLink n).regs.settings :=
  modLink_keeps (fun l => l.regs.settings) (fun _ => by rfl) d m n

theorem lastCause_settings (d : Dev) (m cause n : Nat) :
    ((d.modLink m (fun l => { l with regs.lastCause := cause })).getLink n).regs.settings = (d.getLink n).regs.settings :=
  modLink_keeps (fun l => l.regs.settings) (fun _ => by rfl) d m n

theorem retrain_settings (d : Dev) (m cause n : Nat) : ((d.retrain m cause).getLink n).regs.settings = (d.getLink n).regs.settings := by
  unfold Dev.retrain
  split
  · rw [mateCheck_keeps (fun l => l.regs.settings) (fun _ _ => by rfl), beginAttempt_settings, lastCause_settings]
  · rfl

/-- A new value of LinkConfig is what the port holds, whether the port stays, leaves service or trains. -/
theorem setLink_settings (d : Dev) (n v : Nat) :
    ((d.setLink n v).getLink n).regs.settings = (v.testBit 0, fld v 1 2, v.testBit 3, v.testBit 4) := by
  unfold Dev.setLink
  dsimp only
  rw [mateCheck_keeps (fun l => l.regs.settings) (fun _ _ => by rfl)]
  split
  · split
    · rw [modLink_same]; rfl
    · rw [disablePort_settings, lastCause_settings, modLink_same]; rfl
  · split
    · rw [beginAttempt_settings, lastCause_settings, modLink_same]; rfl
    · split
      · rw [retrain_settings, modLink_same]; rfl
      · rw [modLink_same]; rfl

/-- R419: a port in service that LinkConfig no longer enables is DISABLED. -/
theorem setLink_disables {d : Dev} {n v : Nat} (hv : v.testBit 0 = false) (hs : (d.getLink n).regs.state ≠ 0) :
    ((d.setLink n v).getLink n).regs.state = 0 := by
  unfold Dev.setLink
  dsimp only
  rw [mateCheck_keeps (fun l => l.regs.state) (fun _ _ => by rfl), hv, Bool.not_false, if_pos rfl, if_neg hs, disablePort_state]

theorem linkConfigSpec_accepts {d : Dev} {c : MbxCmd} (hn : fld c.a0 0 5 < 16) (hm : c.a1.testBit 3 = false)
    (ho : d.portOut (fld c.a0 0 5) = false) (hl : d.lockSlot (fld c.a0 0 5) = none) :
    linkConfigSpec.run c d = plan (natLe 4 (d.getLink (fld c.a0 0 5)).regs.config) (natLe 4 c.a1) (fun d => d.setLink (fld c.a0 0 5) c.a1) 0 0 := by
  simp [linkConfigSpec, Nat.not_le.2 hn, hm, ho, hl]

theorem linkConfig_completes {s : State} {c : MbxCmd} (h : mbxReady s linkConfigSpec c) (hn : fld c.a0 0 5 < 16) (hm : c.a1.testBit 3 = false)
    (ho : s.found.portOut (fld c.a0 0 5) = false) (hl : s.found.lockSlot (fld c.a0 0 5) = none) :
    Completes (.linkConfig c) s (fun t =>
      (t.dev.getLink (fld c.a0 0 5)).regs.settings = (c.a1.testBit 0, fld c.a1 1 2, c.a1.testBit 3, c.a1.testBit 4)
        ∧ (c.a1.testBit 0 = false → (s.found.getLink (fld c.a0 0 5)).regs.state ≠ 0 → (t.dev.getLink (fld c.a0 0 5)).regs.state = 0)) := by
  refine completes_of_plan (old := natLe 4 (s.found.getLink (fld c.a0 0 5)).regs.config) (new := natLe 4 c.a1)
    (f := fun d => d.setLink (fld c.a0 0 5) c.a1) h rfl (fun a => ?_) fun a o q fl => ?_
  · exact linkConfigSpec_accepts (d := s.found.cleared c.ring a) hn hm ho hl
  · simp only [settle_getLink, completed_getLink]
    exact ⟨setLink_settings _ _ _, fun hv hs => setLink_disables (d := s.found.cleared c.ring a) hv hs⟩

/-! ## FABRIC_POLICY (R339, R351, R364, R381, R435) -/

theorem fabricSelfSpec_accepts {d : Dev} {c : MbxCmd} (hn : fld c.a1 0 12 < 0xF00) :
    fabricSelfSpec.run c d = plan (natLe 4 d.routeSelfReg) (natLe 4 (fld c.a1 0 12 + 2 ^ 12))
      (fun d => { d with fab.selfDevice := fld c.a1 0 12, fab.selfValid := true }) 0 0 := by
  simp [fabricSelfSpec, Nat.not_le.2 hn]

theorem fabricPartitionSpec_accepts {d : Dev} {c : MbxCmd} (hn : fld c.a0 8 5 < 8) (hlo : 100 ≤ fld c.a1 8 24) (hhi : fld c.a1 8 24 ≤ 100000)
    (hb : (d.getPart (fld c.a0 8 5)).busy = false) :
    fabricPartitionSpec.run c d = plan (natLe 4 (d.partFabricReg (fld c.a0 8 5))) (natLe 4 c.a1)
      (fun d => d.modPartFab (fld c.a0 8 5) (fun _ => { priority := c.a1.testBit 0, timeoutUs := fld c.a1 8 24 })) 0 0 := by
  simp [fabricPartitionSpec, Nat.not_le.2 hn, Nat.not_lt.2 hlo, Nat.not_lt.2 hhi, hb]

theorem fabricTreeSpec_accepts {d : Dev} {c : MbxCmd} (hn : fld c.a0 8 5 < 16) (ht : c.a1.testBit 0 = false ∨ c.a1.testBit 1 = true)
    (hl : d.lockChannel (fld c.a0 8 5) = false) :
    fabricTreeSpec.run c d = plan (natLe 4 (d.barrierTreeReg (fld c.a0 8 5))) (natLe 4 c.a1)
      (fun d => d.modTree (fld c.a0 8 5) (fun _ =>
        { enabled := c.a1.testBit 0, root := c.a1.testBit 1, parentPort := fld c.a1 2 4, children := fld c.a1 6 16 })) 0 0 := by
  have hnoParent : ¬(c.a1.testBit 0 = true ∧ c.a1.testBit 1 = false) := fun ⟨h0, h1⟩ =>
    ht.elim (fun h => Bool.false_ne_true (h.symm.trans h0)) (fun h => Bool.false_ne_true (h1.symm.trans h))
  simp [-Nat.testBit_zero, fabricTreeSpec, Nat.not_le.2 hn, hl, ← and_assoc, hnoParent]

/-! ## ROUTE_TABLE_SET (R356, R375) -/

/-- The drain that a ROUTE_TABLE_SET of the device table begins (R375). -/
def deviceDrain (c : MbxCmd) (wall : Nat) : RouteChange where
  table := 0
  sel := 0
  first := fld c.a0 16 16
  values := tableValues 0 c.buffer
  drainUs := drainUs c.a1
  since := wall
  held := []

/-- Its plan: the drain begins and the command waits. -/
def drainPlan (c : MbxCmd) : Plan where
  effect := fun d => ({ d with fab.change := some (deviceDrain c d.clock.wall) }, { waits := true })

theorem tableValues_device_length (buf : List Byte) : (tableValues 0 buf).length = buf.length / 4 := by
  simp [tableValues, entryBytes, upTo]

theorem tableValues_device_getD {buf : List Byte} {i : Nat} (h : i < buf.length / 4) : (tableValues 0 buf).getD i 0 = leAt buf (4 * i) 4 := by
  simp [tableValues, entryBytes, upTo, h]

/-- Entries without a flaw in the buffer give no offset of one. -/
theorem device_entries_sound {buf : List Byte} {first : Nat}
    (h : ∀ i, i < buf.length / 4 → entryFlaw 0 (first + i) (leAt buf (4 * i) 4) = none) :
    (upTo (tableValues 0 buf).length).findSome?
      (fun i => (entryFlaw 0 (first + i) ((tableValues 0 buf).getD i 0)).map (fun o => entryBytes 0 * i + o)) = none := by
  refine List.findSome?_eq_none_iff.2 fun i hi => ?_
  have hi : i < buf.length / 4 := by simpa [upTo, tableValues_device_length] using hi
  rw [tableValues_device_getD hi, h i hi, Option.map_none]

theorem routeTableSpec_accepts {d : Dev} {c : MbxCmd} (ht : fld c.a0 0 2 = 0) (hb : c.bufLen = 4 * fld c.a1 0 16)
    (hs : fld c.a0 16 16 + fld c.a1 0 16 ≤ 4096) (hlo : 100 ≤ drainUs c.a1) (hhi : drainUs c.a1 ≤ 1000000) (hc : d.fab.change = none)
    (hv : ∀ i, i < c.buffer.length / 4 → entryFlaw 0 (fld c.a0 16 16 + i) (leAt c.buffer (4 * i) 4) = none) :
    routeTableSpec.run c d = .go (drainPlan c) := by
  have hlen : c.bufLen = fld c.a1 0 16 * entryBytes 0 := hb.trans (Nat.mul_comm _ _)
  have hsize : ¬tableSize 0 < fld c.a0 16 16 + fld c.a1 0 16 := Nat.not_lt.2 hs
  have hdrain : ¬(drainUs c.a1 < 100 ∨ 1000000 < drainUs c.a1) := by omega
  have hdevice : ¬(0 : Nat) = 3 := by decide
  have hsel : tableSel c.a0 = 0 := by simp [tableSel, ht]
  simp only [routeTableSpec, ht, hsel, hlen, device_entries_sound hv, hc, if_neg hsize, if_neg hdrain, if_neg hdevice, ne_eq, not_true,
    if_false]
  rfl

/-- R375: the drain begins, the tables stay, and the command waits for its end. -/
theorem routeTableSet_completes {s : State} {c : MbxCmd} (h : mbxReady s routeTableSpec c) (ht : fld c.a0 0 2 = 0)
    (hb : c.bufLen = 4 * fld c.a1 0 16) (hs : fld c.a0 16 16 + fld c.a1 0 16 ≤ 4096) (hlo : 100 ≤ drainUs c.a1) (hhi : drainUs c.a1 ≤ 1000000)
    (hc : s.found.fab.change = none)
    (hv : ∀ i, i < c.buffer.length / 4 → entryFlaw 0 (fld c.a0 16 16 + i) (leAt c.buffer (4 * i) 4) = none) :
    Completes (.routeTableSet c) s (fun t => t.dev.fab.device = s.found.fab.device ∧ waitsFor t c
      ∧ t.dev.fab.change = some (deviceDrain c s.found.clock.wall)) := by
  obtain ⟨a, b, hrow⟩ := mbxRow_commits h fun a => routeTableSpec_accepts (d := s.found.cleared c.ring a) ht hb hs hlo hhi hc hv
  refine completes_of_live h.1 rfl ?_
  rw [hrow, commit_waits _ _ _ rfl]
  exact ⟨rfl, waitsFor_hold _ _ _ _ _, rfl⟩

/-- Settles O30: each accepted command's plan is what its row does, and the plan's effect is read off. -/
theorem fabricCommandResults : Obligations.FabricCommandResults := by
  intro s c d sel n
  refine ⟨beatConfig_completes, fun h hn hm ho hl => ?link, fun h hk hn => ?self, fun h hk hn hlo hhi hb => ?partition,
    fun h hk hn ht hl => ?tree, fun h hk => ?aperture, fun h ht hb hs hlo hhi hc hv => routeTableSet_completes h ht hb hs hlo hhi hc hv⟩
  case link =>
    obtain ⟨t, hnext, hset, hoff⟩ := linkConfig_completes h hn hm ho hl
    simp only [LinkRegs.settings, Prod.mk.injEq] at hset
    obtain ⟨henable, hwidth, hmate, hretry⟩ := hset
    exact ⟨t, hnext, henable, hwidth, hmate.trans hm, hretry, hoff⟩
  case self =>
    exact completes_of_plan (old := natLe 4 d.routeSelfReg) h (congrArg s.live (mbxRow_select hk _))
      (fun a => fabricSelfSpec_accepts (d := d.cleared c.ring a) hn) fun _ _ _ _ => ⟨rfl, rfl⟩
  case partition =>
    exact completes_of_plan (old := natLe 4 (d.partFabricReg n)) h (congrArg s.live (mbxRow_select hk _))
      (fun a => fabricPartitionSpec_accepts (d := d.cleared c.ring a) hn hlo hhi hb) fun _ _ _ _ => by simp [n]
  case tree =>
    exact completes_of_plan (old := natLe 4 (d.barrierTreeReg n)) h (congrArg s.live (mbxRow_select hk _))
      (fun a => fabricTreeSpec_accepts (d := d.cleared c.ring a) hn ht hl) fun _ _ _ _ => by simp [n]
  case aperture =>
    refine completes_of_plan (old := natLe 8 (d.apertureReg n)) h (congrArg s.live (mbxRow_select hk _)) (fun _ => rfl) fun a _ _ _ => ?_
    simp only [settle_getWindow, completed_getWindow]
    exact ⟨modWindow_same _ _ _, fun _ hne => modWindow_ne (d.cleared c.ring a) _ hne⟩

end Sys2Proof.Machine

/-! PROOFS. What reading memory leaves of the meshes and the halves (R286, R301, R302); slot entries, scheduled reads of HBM (R77 to R79, R302) and
gravel windows (R513 to R515), then O13. -/

namespace Sys2Proof.Machine

/-! ## Reading memory leaves the meshes and the halves -/

/-- A device whose meshes and halves are as before. A read of memory leaves it so: it raises events and queues write-backs at most (R286 to R288). -/
structure ReadFrame (d e : Dev) : Prop where
  mesh : e.mesh = d.mesh
  dies : e.dies = d.dies

theorem ReadFrame.refl (d : Dev) : ReadFrame d d := ⟨rfl, rfl⟩

theorem ReadFrame.trans {d e f : Dev} (h : ReadFrame d e) (h' : ReadFrame e f) : ReadFrame d f :=
  ⟨h'.mesh.trans h.mesh, h'.dies.trans h.dies⟩

theorem ReadFrame.now {d e : Dev} (h : ReadFrame d e) (half cyc : Nat) : e.now half cyc = d.now half cyc :=
  congrArg (fun x : Dies => (tabGet ({} : Half) half x.halves).cycBase + cyc) h.dies

theorem readFrame_raise (d : Dev) (ev : Ev) : ReadFrame d (d.raise ev) := ⟨raise_mesh d ev, raise_dies d ev⟩

theorem readFrame_raiseOnce (d : Dev) (ev : Ev) : ReadFrame d (d.raiseOnce ev) := by
  unfold Dev.raiseOnce
  split
  · obtain ⟨m, hm⟩ := noteError_shape d ev
    rw [hm]
    exact ⟨rfl, rfl⟩
  · exact readFrame_raise d ev

theorem readFrame_schedPoison (d : Dev) (tile port : Nat) : ReadFrame d (d.schedPoison tile port) := readFrame_raiseOnce d _

theorem readFrame_queueWriteBack (d : Dev) (memory word : Nat) (poison : Bool) : ReadFrame d (d.queueWriteBack memory word poison) := by
  unfold Dev.queueWriteBack
  dsimp only
  split
  · exact ⟨rfl, rfl⟩
  · exact .refl d

theorem readFrame_readWord (d : Dev) (pl : Place) (word flags : Nat) : ReadFrame d (d.readWord pl word flags).2.2 := by
  unfold Dev.readWord
  dsimp only
  split
  · dsimp only
    exact readFrame_raiseOnce d _
  · split
    · exact .refl d
    · exact .refl d
    · split
      · exact .refl d
      · exact (readFrame_raise d _).trans (readFrame_queueWriteBack _ _ _ _)
    · split
      · exact readFrame_raise d _
      · exact (readFrame_raise d _).trans (readFrame_queueWriteBack _ _ _ _)

theorem readFrame_readWords (fuel : Nat) (d : Dev) (a n : Nat) : ReadFrame d (d.readWords fuel a n).2 := by
  induction fuel generalizing d a n with
  | zero => exact .refl d
  | succ fuel ih =>
    unfold Dev.readWords
    dsimp only
    split
    · exact .refl d
    · split
      · exact (readFrame_raiseOnce d _).trans (ih _ _ _)
      · exact (readFrame_raiseOnce d _).trans (ih _ _ _)
      · exact (readFrame_readWord d _ _ _).trans (ih _ _ _)

theorem readFrame_readMem (d : Dev) (a n : Nat) : ReadFrame d (d.readMem a n).2 := readFrame_readWords _ d a n

theorem readFrame_hbmPieces (d : Dev) (tile a n : Nat) : ReadFrame d (d.hbmPieces tile a n).2 := by
  induction n generalizing d a with
  | zero => exact .refl d
  | succ n ih =>
    unfold Dev.hbmPieces
    dsimp only
    split
    · dsimp only
      exact (readFrame_schedPoison d tile 0).trans (ih _ _)
    · exact (readFrame_readMem d _ _).trans (ih _ _)

/-! ## Slot entries and scheduled reads (R77 to R79, R302) -/

/-- An entry of a tile's slot table (R77). -/
abbrev Dev.slotEntry (d : Dev) (tile entry : Nat) : Nat := (tabGet 0 (entryKey tile entry) d.mesh.slots).toNat

theorem slotEntryFire_due {d : Dev} {tile entry cyc n : Nat} (hn : d.holder (tHalf tile) = some n) (hw : d.working (tHalf tile) cyc = true)
    (hf : eFires (d.slotEntry tile entry) (d.getPart n).job.jobBeat = true) (hc : eCovers (d.slotEntry tile entry) cyc = true) :
    slotEntryFire tile entry cyc d =
      let e := d.slotEntry tile entry
      let t := d.now (tHalf tile) cyc
      ((d.runTile tile t).moveLanes tile entry e cyc t).afterCycle tile entry e cyc t := by
  simp only [slotEntryFire, hn, hw, hf, hc, Bool.and_self, gate_true]

/-- The cycle that delivers what a scheduled read issues now (R302). -/
abbrev Dev.deliveryCycle (d : Dev) (tile cyc : Nat) : Nat := cyc + hbmLead (d.getHalf (tHalf tile)).freq

/-- What an entry reads from HBM, at its cursor, for a cycle of the firing in the current beat (R301, R302). -/
def Dev.scheduledPieces (d : Dev) (tile entry at_ : Nat) : List PByte × Dev :=
  let e := d.slotEntry tile entry
  let c := d.cursor tile entry
  let m := (eLanePairs tile e).length
  d.hbmPieces tile (cursorDpa tile (c.base + c.pos + (at_ - eStart e) * m * 64)) m

/-- Bytes wait for the job cycle that delivers them (R302). -/
def Dev.addPrefetch (d : Dev) (k t : Nat) (bs : List PByte) : Dev :=
  { d with mesh.prefetch := tabSet [] k (tabGet [] k d.mesh.prefetch ++ [⟨t, bs⟩]) d.mesh.prefetch }

/-- R302: a read whose delivery lies in the current beat of a job that has begun. -/
theorem hbmScheduledRead_due {d : Dev} {tile entry cyc n : Nat} (hn : d.holder (tHalf tile) = some n) (hr : (d.getPart n).running = true)
    (hw : d.working (tHalf tile) cyc = true) (hcyc : cyc < beatCycles (d.getHalf (tHalf tile)).freq)
    (hlead : d.deliveryCycle tile cyc < beatCycles (d.getHalf (tHalf tile)).freq) (hs : (d.getPart n).job.waitStart = false)
    (ht : tCol tile = 0) (hin : eIn (d.slotEntry tile entry) = 0) (hf : eFires (d.slotEntry tile entry) (d.getPart n).job.jobBeat = true)
    (hc : eCovers (d.slotEntry tile entry) (d.deliveryCycle tile cyc) = true) :
    hbmScheduledRead tile entry cyc d =
      let at_ := d.deliveryCycle tile cyc
      let r := d.scheduledPieces tile entry at_
      r.2.addPrefetch (entryKey tile entry) (r.2.now (tHalf tile) at_) r.1 := by
  have hbeat : ¬beatCycles (d.getHalf (tHalf tile)).freq ≤ d.deliveryCycle tile cyc := Nat.not_le.2 hlead
  simp only [hbmScheduledRead, hn, hr, hw, hs, ht, hin, hf, hc, hcyc, decide_eq_false hbeat, decide_true, Bool.false_and,
    Bool.false_or, Bool.and_self, BEq.rfl, Bool.false_eq_true, if_false, gate_true]
  rfl

/-- R302: the pieces wait beside those that waited before, and nothing else of the meshes changes. -/
theorem scheduledPieces_addPrefetch_mesh (d : Dev) (tile entry at_ : Nat) :
    let r := d.scheduledPieces tile entry at_
    (r.2.addPrefetch (entryKey tile entry) (r.2.now (tHalf tile) at_) r.1).mesh =
      { d.mesh with
        prefetch := tabSet [] (entryKey tile entry) (tabGet [] (entryKey tile entry) d.mesh.prefetch ++ [⟨d.now (tHalf tile) at_, r.1⟩])
          d.mesh.prefetch } := by
  intro r
  have hframe : ReadFrame d r.2 := readFrame_hbmPieces d tile _ _
  simp only [Dev.addPrefetch, hframe.mesh, hframe.now]

/-! ## Gravel (R513 to R515) -/

/-- The streamed cycles of a window set both levels (R513). -/
theorem gravelWindow_streamed {d : Dev} {slab cyc : Nat} (he : (d.getSlab slab).regs.gravelEn = true)
    (ht : d.now (halfOfUnit slab) cyc % 64 = 0) (hpos : 0 < d.now (halfOfUnit slab) cyc) (hc : cyc < d.cyclesOf (halfOfUnit slab))
    (hn : 0 < streamedIn (d.now (halfOfUnit slab) cyc) (d.getSlab slab).pow.activity) :
    gravelWindow slab cyc d =
      let t := d.now (halfOfUnit slab) cyc
      let n := streamedIn t (d.getSlab slab).pow.activity
      let keep := (d.getSlab slab).pow.activity.filter (fun p => decide (t < p.1 + p.2))
      d.modSlab slab (fun s => { s with
        regs.gravelG0 := n / 4, regs.gravelG := n / 4, regs.gravelOn := keep.isEmpty && decide (4 ≤ n)
        pow.activity := keep, pow.gravelAt := t }) := by
  simp only [gravelWindow, he, ht, hpos, hc, hn, decide_true, Bool.and_self, gate_true, if_true]

/-- A slab that did not stream moves its level once its pace allows a step (R514, R515). -/
theorem gravelWindow_idle {d : Dev} {slab cyc : Nat} (he : (d.getSlab slab).regs.gravelEn = true)
    (ht : d.now (halfOfUnit slab) cyc % 64 = 0) (hpos : 0 < d.now (halfOfUnit slab) cyc) (hc : cyc < d.cyclesOf (halfOfUnit slab))
    (hn : streamedIn (d.now (halfOfUnit slab) cyc) (d.getSlab slab).pow.activity = 0)
    (hp : (d.getSlab slab).pow.gravelAt + 64 * (d.gravelPace (halfOfUnit slab)).2 ≤ d.now (halfOfUnit slab) cyc) :
    gravelWindow slab cyc d = d.modSlab slab (fun s => { s with
      regs.gravelG := d.gravelNext slab cyc, regs.gravelOn := decide (0 < d.gravelNext slab cyc)
      pow.gravelAt := d.now (halfOfUnit slab) cyc }) := by
  simp only [gravelWindow, he, ht, hpos, hc, hn, hp, decide_true, Bool.and_self, gate_true, if_true, Nat.lt_irrefl, if_false]

/-- Settles O13: each command's conditions open its gate; a scheduled read leaves the meshes but for what waits, and a window changes one slab. -/
theorem meshAndGravelResults : Obligations.MeshAndGravelResults := by
  refine ⟨fun s tile entry cyc n hl hn => ?mesh, fun s slab cyc hl => ?gravel⟩
  case mesh =>
    intro d half e job lead len
    refine ⟨fun hw hf hc => gives_of_live hl rfl (slotEntryFire_due hn hw hf hc),
      fun hr hw hcyc hlead hs ht hin hf hc => completes_of_live hl rfl ?_⟩
    rw [hbmScheduledRead_due hn hr hw hcyc hlead hs ht hin hf hc]
    dsimp only
    rw [settle_mesh, scheduledPieces_addPrefetch_mesh]
    exact ⟨rfl, rfl, rfl⟩
  case gravel =>
    intro d u r n he ht hpos hc
    refine ⟨fun hn => completes_of_live hl rfl ?streamed, fun hn hp => completes_of_live hl rfl ?idle⟩
    case streamed =>
      rw [gravelWindow_streamed he ht hpos hc hn]
      simp only [settle_getSlab, modSlab_same]
      exact ⟨rfl, rfl, fun _ hne => modSlab_ne d _ hne⟩
    case idle =>
      rw [gravelWindow_idle he ht hpos hc hn hp]
      simp only [settle_getSlab, modSlab_same, true_and]
      rfl

end Sys2Proof.Machine

/-! PROOFS. Frequency changes of the Seam (R89) and the operating point of a job beat (R233, R499), then O20. -/

namespace Sys2Proof.Machine

/-- R89 step 1: the first change that waits begins where none runs and the last one is over. -/
theorem seamChangeStart_due {d : Dev} {die : Nat} {r : SeamReq} {rest : List SeamReq} (hc : (d.getSeam die).current = none)
    (hq : (d.getSeam die).queue = r :: rest) (hw : (d.getSeam die).changes = 0 ∨ (d.getSeam die).changeAt + 14 < d.clock.wall) :
    seamChangeStart die d
      = d.modSeam die (fun s => { s with current := some r, queue := rest, mode := 2, changeAt := d.clock.wall }) := by
  simp [seamChangeStart, Dev.gate, hc, hq, hw]

/-- R89 step 4: a change that runs ends 14 beats after its edge. -/
theorem seamChangeEnd_due {d : Dev} {die : Nat} (hc : (d.getSeam die).current.isSome = true)
    (hw : (d.getSeam die).changeAt + 14 ≤ d.clock.wall) :
    seamChangeEnd die d = d.modSeam die (fun s => { s with
      mode := if (d.getHalf (2 * die)).freq = (d.getHalf (2 * die + 1)).freq then 0 else 1
      changes := wrapAdd 16 s.changes 1, current := none }) := by
  simp [seamChangeEnd, hc, hw]

/-- R499: the new point of a running job is in force, and the rails or the frequencies follow it. -/
theorem oppointChange_due {d : Dev} {n k : Nat} {i : Image} (hi : (d.getPart n).image = some i)
    (hp : i.pointAt (d.getPart n).job.jobBeat = some k) (hr : (d.getPart n).running = true) (hw : (d.getPart n).job.waitStart = false)
    (hk : (d.getPart n).job.oppIndex ≠ k) :
    oppointChange n d =
      let e := d.modPart n (fun p => { p with job.oppIndex := k })
      if (e.halvesToMove n (e.pointNow n).freq).isEmpty then e.offsetEdge n else e.askFrequency n (e.pointNow n).freq := by
  simp only [oppointChange, hi, hp, hr, hw, bne_iff_ne.2 hk, Bool.not_false, Bool.and_self, gate_true]

/-- Settles O20: each command's conditions open its gate; the change of one Seam leaves the other Seams and every half. -/
theorem frequencyChangeResults : Obligations.FrequencyChangeResults := by
  intro s hl d
  refine ⟨fun die r rest hc hq hw => completes_of_live hl rfl ?start, fun die hc hw => completes_of_live hl rfl ?finish,
    fun n i k hi hp hr hw hk => gives_of_live hl rfl (oppointChange_due hi hp hr hw hk)⟩
  case start =>
    rw [seamChangeStart_due hc hq hw]
    simp only [settle_getSeam, settle_getHalf]
    exact ⟨modSeam_same _ _ _, fun _ hne => modSeam_ne d _ hne, fun _ => rfl⟩
  case finish =>
    rw [seamChangeEnd_due hc hw]
    simp only [settle_getSeam, settle_getHalf, modSeam_same, modSeam_getHalf, true_and]
    exact ⟨fun _ hne => modSeam_ne d _ hne, fun _ => trivial⟩

end Sys2Proof.Machine

/-! PROOFS. The commands on power that wait for a control step or a scrub pass, and the operating points (R90, R312, R498, R502, R509), then O32. -/

namespace Sys2Proof.Machine

/-! ## The scrub state and the guarantees beside a command's effect -/

@[simp] theorem completed_getGuar (d : Dev) (out : List Out) (rings : List (Nat × Ring)) (flash : Flash) (n : Nat) :
    (d.completed out rings flash).getGuar n = d.getGuar n := rfl

@[simp] theorem completed_getScrub (d : Dev) (out : List Out) (rings : List (Nat × Ring)) (flash : Flash) (n : Nat) :
    (d.completed out rings flash).getScrub n = d.getScrub n := rfl

@[simp] theorem cleared_getScrub (d : Dev) (ring : Nat) (a : Clearance) (n : Nat) : (d.cleared ring a).getScrub n = d.getScrub n := rfl

@[simp] theorem cleared_getGuar (d : Dev) (ring : Nat) (a : Clearance) (n : Nat) : (d.cleared ring a).getGuar n = d.getGuar n := rfl

/-! ## POWER_POLICY_SET (R28, R312, R502) -/

theorem powerCapSpec_accepts {d : Dev} {c : MbxCmd} (hlo : 1000 ≤ c.a1) (hhi : c.a1 ≤ 2400) :
    powerCapSpec.run c d = plan (natLe 2 d.pow.capW) (natLe 2 c.a1) (fun d => d.pendPolicy 0 c.a1 0) 0 0 :=
  if_neg (by omega)

theorem powerOrderSpec_accepts {d : Dev} {c : MbxCmd} (h : ∀ m, m < 3 → m ∈ [fld c.a1 0 2, fld c.a1 2 2, fld c.a1 4 2]) :
    powerOrderSpec.run c d = plan (natLe 1 (orderBits d.pow.order)) (natLe 1 c.a1) (fun d => d.pendPolicy 1 c.a1 0) 0 0 :=
  if_pos (List.all_eq_true.2 fun m hm => List.contains_iff_mem.2 (h m (List.mem_range.1 hm)))

theorem powerGravelSpec_accepts {d : Dev} {c : MbxCmd} (hlo : 1 ≤ fld c.a2 0 9) (hhi : fld c.a2 0 9 ≤ 300) :
    powerGravelSpec.run c d = plan (natLe 4 d.gravelBits ++ natLe 4 (d.pow.slope + 2 ^ 16 * d.pow.floor)) (natLe 4 c.a1 ++ natLe 4 c.a2)
      (fun d => d.pendPolicy 3 c.a1 c.a2) 0 0 :=
  if_neg (by omega)

/-- The scrub settings of every die wait for its next pass (R312). -/
def Dev.pendScrub (d : Dev) (v : Nat × Nat × Bool × Bool) : Dev :=
  Dev.each (upTo 4) (fun d p => d.modScrub p (fun s => { s with pending := some v })) d

theorem powerScrubSpec_accepts {d : Dev} {c : MbxCmd} (hslo : 1 ≤ fld c.a1 0 8) (hshi : fld c.a1 0 8 ≤ 168) (hhlo : 12 ≤ fld c.a1 8 10)
    (hhhi : fld c.a1 8 10 ≤ 720) :
    powerScrubSpec.run c d = plan ((upTo 4).flatMap (fun p => natLe 4 (d.scrubSetting p))) ((upTo 4).flatMap (fun _ => natLe 4 c.a1))
      (fun d => d.pendScrub (fld c.a1 0 8, fld c.a1 8 10, c.a1.testBit 18, c.a1.testBit 19)) 0 0 :=
  (if_neg (by omega)).trans (if_neg (by omega))

/-- A change of the scrub state of each listed die, where no die is listed twice. -/
theorem each_modScrub_getScrub (f : Scrub → Scrub) {l : List Nat} (hl : l.Nodup) (d : Dev) (p : Nat) :
    (Dev.each l (fun d k => d.modScrub k f) d).getScrub p = if p ∈ l then f (d.getScrub p) else d.getScrub p := by
  induction l generalizing d with
  | nil => rfl
  | cons k l ih =>
    obtain ⟨hk, hl⟩ := List.nodup_cons.1 hl
    refine (ih hl (d.modScrub k f)).trans ?_
    by_cases hp : p = k
    · subst hp; simp [hk]
    · simp [hp, modScrub_ne d f hp]

theorem pendScrub_getScrub (d : Dev) (v : Nat × Nat × Bool × Bool) {p : Nat} (hp : p < 4) :
    (d.pendScrub v).getScrub p = { d.getScrub p with pending := some v } :=
  (each_modScrub_getScrub _ List.nodup_range d p).trans (if_pos (List.mem_range.2 hp))

/-- A policy that its row accepts waits for the next control step: the values in force stay. -/
theorem powerPolicy_completes {i : Instr} {s : State} {sp : MbxSpec} {c : MbxCmd} {old new : List Byte} {sel a2 : Nat} (h : mbxReady s sp c)
    (hi : exec i s = s.live (mbxRow sp none c))
    (hrun : ∀ a, sp.run c (s.found.cleared c.ring a) = plan old new (fun d => d.pendPolicy sel c.a1 a2) 0 0) :
    Completes i s (fun t => t.dev.pow.pend = s.found.pow.pend ++ [(sel, c.a1, a2)] ∧ t.dev.pow.capW = s.found.pow.capW
      ∧ t.dev.pow.order = s.found.pow.order ∧ t.dev.pow.slope = s.found.pow.slope ∧ t.dev.idle = s.found.idle) :=
  completes_of_plan h hi hrun fun _ _ _ _ => ⟨rfl, rfl, rfl, rfl, rfl⟩

/-! ## OPPOINT_TABLE_SET and GUARANTEE_SET (R90, R498, R509) -/

theorem oppointSpec_accepts {d : Dev} {c : MbxCmd} (hlo : 1 ≤ fld c.a0 0 5) (hhi : fld c.a0 0 5 ≤ 16) (hb : c.bufLen = 8 * fld c.a0 0 5)
    (hu : d.pointsUsed = []) (hr : firstEntry (fld c.a0 0 5) 8 (pointReserved c.buffer) = none)
    (hv : firstEntry (fld c.a0 0 5) 8 (fun i => pointRange (pointAt c.buffer i)) = none) :
    oppointSpec.run c d = plan (pointBytes d.pow.points) []
      (fun d => { d with pow.points := (upTo (fld c.a0 0 5)).map (fun i => (i, pointAt c.buffer i)) }) 0 0 := by
  have hcount : ¬(fld c.a0 0 5 = 0 ∨ 16 < fld c.a0 0 5) := by omega
  simp only [oppointSpec, if_neg hcount, hb, ne_eq, not_true, if_false, hr, hv, hu, List.any_nil, Bool.false_eq_true]

/-- The bytes of a guarantee before the command, as its audit record holds them (R455). -/
def Dev.guarOld (d : Dev) (n kind : Nat) : List Byte :=
  guarBytes kind (d.getGuar (4 * n + kind)).setting.rank (d.getGuar (4 * n + kind)).setting.v1 (d.getGuar (4 * n + kind)).setting.v2

theorem guaranteeSpec_accepts {d : Dev} {c : MbxCmd} {kind : Nat} (hp : c.part < 8) (hl : (d.getPart c.part).live = true)
    (hi : (d.getPart c.part).image = none) (hk : fld c.a0 8 8 ≠ 0)
    (hv : guarRange kind (guarValues kind c.a1).1 (guarValues kind c.a1).2 = none) :
    (guaranteeSpec kind).run c d
      = plan (d.guarOld c.part kind) (guarBytes kind (fld c.a0 8 8) (guarValues kind c.a1).1 (guarValues kind c.a1).2)
          (fun d => d.modGuar (4 * c.part + kind)
            (fun g => { g with pend := some (fld c.a0 8 8, (guarValues kind c.a1).1, (guarValues kind c.a1).2) })) 0 0 := by
  simp [guaranteeSpec, Dev.guarOld, Dev.ofPart, hp, hl, hi, hk, hv]

/-- Settles O32: each accepted command's plan is what its row does, and the plan's effect is read off. -/
theorem powerCommandResults : Obligations.PowerCommandResults := by
  intro s c d sel pends
  refine ⟨fun h hk hlo hhi => ?cap, fun h hk ho => ?order, fun h hk => ?idle, fun h hk hlo hhi => ?gravel,
    fun h hk hslo hshi hhlo hhhi => ?scrub, fun h hlo hhi hb hu hr hv => ?points, fun h hp hl hi hk hv => ?guarantee⟩
  case cap =>
    exact powerPolicy_completes (old := natLe 2 d.pow.capW) h (congrArg s.live (mbxRow_select hk _))
      fun a => powerCapSpec_accepts (d := d.cleared c.ring a) hlo hhi
  case order =>
    exact powerPolicy_completes (old := natLe 1 (orderBits d.pow.order)) h (congrArg s.live (mbxRow_select hk _))
      fun a => powerOrderSpec_accepts (d := d.cleared c.ring a) ho
  case idle =>
    exact powerPolicy_completes (old := natLe 1 (b2n d.idle.enabled)) (new := natLe 1 c.a1) h (congrArg s.live (mbxRow_select hk _))
      fun _ => rfl
  case gravel =>
    exact powerPolicy_completes (old := natLe 4 d.gravelBits ++ natLe 4 (d.pow.slope + 2 ^ 16 * d.pow.floor)) h
      (congrArg s.live (mbxRow_select hk _)) fun a => powerGravelSpec_accepts (d := d.cleared c.ring a) hlo hhi
  case scrub =>
    refine completes_of_plan (old := (upTo 4).flatMap (fun p => natLe 4 (d.scrubSetting p))) h (congrArg s.live (mbxRow_select hk _))
      (fun a => powerScrubSpec_accepts (d := d.cleared c.ring a) hslo hshi hhlo hhhi) fun a _ _ _ p hp => ?_
    simp [pendScrub_getScrub _ _ hp, d]
  case points =>
    exact completes_of_plan (old := pointBytes d.pow.points) h rfl
      (fun a => oppointSpec_accepts (d := d.cleared c.ring a) hlo hhi hb hu hr hv) fun _ _ _ _ => rfl
  case guarantee =>
    refine completes_of_plan (old := d.guarOld c.part (fld c.a0 4 2)) h rfl
      (fun a => guaranteeSpec_accepts (d := d.cleared c.ring a) hp hl hi hk hv) fun a _ _ _ => ?_
    simp [d]

end Sys2Proof.Machine

/-! PROOFS. The commands on units, firmware, calibration and pairs, which mostly begin something that a later command ends (R451, R471, R554, R563,
R564), then O37. -/

namespace Sys2Proof.Machine

/-! ## Commands that wait for their own event (R451) -/

/-- The plan of a command whose effect begins at once and whose completion waits for its own event. -/
def waitPlan (old new : List Byte) (f : Dev → Dev) : Plan where
  old := old
  new := new
  effect := fun d => (f d, { waits := true })

/-- A ready command passes the gate of its row and step 2 of R448. -/
theorem mbxRow_checks {s : State} {sp : MbxSpec} {c : MbxCmd} (h : mbxReady s sp c) :
    ∃ a, mbxRow sp none c s.found = (s.found.cleared c.ring a).checkRest sp c := by
  obtain ⟨a, hrole⟩ := checkRole_ready h
  obtain ⟨-, hserving, hcode, hring, hidle, hpark, -⟩ := h
  refine ⟨a, ?_⟩
  simp only [mbxRow, Dev.runMbx, hcode, hserving, hring, hidle, hpark, hrole, beq_self_eq_true, decide_true, Bool.not_false, Bool.and_self,
    gate_true, Bool.false_eq_true, if_false]

/-- A ready command whose own checks give a waiting plan takes its effect and is held, whatever bytes its audit record has. -/
theorem mbxRow_waits {s : State} {sp : MbxSpec} {c : MbxCmd} {f : Dev → Dev} (h : mbxReady s sp c)
    (hrun : ∀ a, ∃ old new, sp.run c (s.found.cleared c.ring a) = .go (waitPlan old new f)) :
    ∃ a b, mbxRow sp none c s.found = (f (s.found.cleared c.ring a)).hold_ sp c b := by
  obtain ⟨a, hchecks⟩ := mbxRow_checks h
  obtain ⟨old, new, hgo⟩ := hrun a
  have haccepts := checkRest_ready h a hgo
  obtain ⟨-, -, -, -, -, -, -, -, -, -, -, -, haudit⟩ := h
  obtain ⟨a', b, hcommit⟩ := accept_cleared s.found (sp := sp) haudit a (waitPlan old new f)
  exact ⟨a', b, hchecks.trans (haccepts.trans (hcommit.trans (commit_waits sp c b rfl)))⟩

/-- A ready command that waits completes with its effect and itself among the waiting commands. -/
theorem completes_of_wait {i : Instr} {s : State} {sp : MbxSpec} {c : MbxCmd} {f : Dev → Dev} {E : State → Prop} (h : mbxReady s sp c)
    (hi : exec i s = s.live (mbxRow sp none c)) (hrun : ∀ a, ∃ old new, sp.run c (s.found.cleared c.ring a) = .go (waitPlan old new f))
    (hE : ∀ a b, E { s with dev := settle ((f (s.found.cleared c.ring a)).hold_ sp c b) }) : Completes i s E := by
  obtain ⟨a, b, hrow⟩ := mbxRow_waits h hrun
  refine completes_of_live h.1 hi ?_
  rw [hrow]
  exact hE a b

/-! ## UNIT_RETIRE, UNIT_DISABLE and UNIT_ENABLE (R129, R452, R554) -/

/-- A unit other than a pebble or a pseudo-channel is only listed as leaving. -/
theorem leaveUnit_listed {u : UnitId} (h2 : u.1 ≠ 2) (h4 : u.1 ≠ 4) (d : Dev) :
    d.leaveUnit u = { d with caps.leaving := d.caps.leaving ++ [u] } := by
  simp [Dev.leaveUnit, h2, h4]

theorem leaveSpec_accepts {opcode : Nat} {d : Dev} {c : MbxCmd} (hf : unitFail (unitOf c.a0) = none)
    (hl : d.caps.leaving.contains (unitOf c.a0) = false) (hon : d.unitOn (unitOf c.a0) = true) (h2 : (unitOf c.a0).1 ≠ 2)
    (h4 : (unitOf c.a0).1 ≠ 4) :
    (leaveSpec opcode).run c d = .go (waitPlan (d.capBytes (unitOf c.a0)) ((d.unitAway (unitOf c.a0)).capBytes (unitOf c.a0))
      (fun d => { d with caps.leaving := d.caps.leaving ++ [unitOf c.a0] })) := by
  simp only [leaveSpec, hf, hl, hon, Dev.remapsNow, beq_eq_false_iff_ne.2 h2, h4, Bool.false_and, Bool.not_true, Bool.false_eq_true, false_and,
    if_false, leaveUnit_listed h2 h4]
  rfl

theorem leaveUnit_completes {i : Instr} {s : State} {c : MbxCmd} {opcode : Nat} (h : mbxReady s (leaveSpec opcode) c)
    (hi : exec i s = s.live (mbxRow (leaveSpec opcode) none c)) (hf : unitFail (unitOf c.a0) = none)
    (hl : s.found.caps.leaving.contains (unitOf c.a0) = false) (hon : s.found.unitOn (unitOf c.a0) = true) (h2 : (unitOf c.a0).1 ≠ 2)
    (h4 : (unitOf c.a0).1 ≠ 4) :
    Completes i s (fun t => unitOf c.a0 ∈ t.dev.caps.leaving ∧ waitsFor t c ∧ t.dev.caps.generation = s.found.caps.generation) :=
  completes_of_wait h hi (fun a => ⟨_, _, leaveSpec_accepts (d := s.found.cleared c.ring a) hf hl hon h2 h4⟩)
    fun _ _ => ⟨List.mem_append_right _ List.mem_cons_self, waitsFor_hold _ _ _ _ _, rfl⟩

theorem unitEnableSpec_accepts {d : Dev} {c : MbxCmd} (hf : unitFail (unitOf c.a0) = none) (hl : d.leavingNow (unitOf c.a0) = false)
    (hd : d.caps.disabled.contains (unitOf c.a0) = true) :
    unitEnableSpec.run c d = .go (waitPlan (d.capBytes (unitOf c.a0)) ((d.bringBack (unitOf c.a0)).capBytes (unitOf c.a0)) id) := by
  simp only [unitEnableSpec, hf, hl, hd, Bool.false_eq_true, if_false, if_true]
  rfl

/-! ## FW_STAGE and FW_ACTIVATE (R462, R471, R563) -/

/-- What the verification of a staged image answers. -/
def stageReply : Option Nat → Reply
  | none => {}
  | some o => { status := stBad, detail := bufferDetail stBad o }

/-- The plan of an FW_STAGE of a bank that is not active: the bank is written whether or not its image verifies. -/
def stagePlan (c : MbxCmd) (old : List Byte) : Plan where
  old := old
  effect := fun d => (d.writeBank (fld c.a0 0 1) c.buffer, stageReply (fwFlaw (d.secFuse d.bed.primary) c.buffer))

theorem fwStageSpec_accepts {d : Dev} {c : MbxCmd} (hb : fld c.a0 0 1 ≠ d.bed.activeBank) :
    fwStageSpec.run c d = .go (stagePlan c (d.flash.bank d.bed.primary (fld c.a0 0 1)).image) := by
  simp only [fwStageSpec, if_neg hb, stagePlan]
  congr 2
  funext e
  cases fwFlaw (e.secFuse e.bed.primary) c.buffer <;> rfl

theorem stagePlan_completes_now (c : MbxCmd) (old : List Byte) (d : Dev) : ((stagePlan c old).effect d).2.waits = false := by
  simp only [stagePlan]
  cases fwFlaw (d.secFuse d.bed.primary) c.buffer <;> rfl

/-- The completion of a command that does not write the configuration store leaves the flash as its effect has it (R529). -/
theorem commit_flash {d : Dev} {sp : MbxSpec} {c : MbxCmd} {b : Bool} {p : Plan} (hw : (p.effect d).2.waits = false)
    (hc : storesConfig c.opcode = false) : (d.commit sp c b p).flash = (p.effect d).1.flash := by
  unfold Dev.commit
  rcases he : p.effect d with ⟨e, r⟩
  rw [he] at hw
  dsimp only at hw ⊢
  obtain ⟨o, q, hdone⟩ := completeCmd_shape e c.ring c.opcode c.tag (e.getRing c.ring).head c.irq b c.cplFails c.bufAddr r
  simp [hw, hc, Dev.finish, hdone]

theorem bank_setBank_same (f : Flash) (die b : Nat) (x : FwBank) : (f.setBank die b x).bank die b = x := by
  unfold Flash.setBank Flash.bank
  (repeat' split) <;> rfl

theorem bank_setBank_of_bank_ne (f : Flash) (die : Nat) {b k : Nat} (h : b = 0 ↔ k ≠ 0) (x : FwBank) :
    (f.setBank die b x).bank die k = f.bank die k := by
  unfold Flash.setBank Flash.bank
  by_cases hb : b = 0
  · have hk := h.1 hb
    simp only [hb, hk, if_true, if_false]
    split <;> rfl
  · have hk : k = 0 := Decidable.not_not.1 (mt h.2 hb)
    simp only [hb, hk, if_true, if_false]
    split <;> rfl

theorem bank_zero_setBank_two (f : Flash) (b k : Nat) (x : FwBank) : (f.setBank 2 b x).bank 0 k = f.bank 0 k := by
  simp only [Flash.setBank, if_true]
  split <;> rfl

/-- P2's copy of a staged image is none of P0's banks. -/
theorem writeBank_bank (d : Dev) (b : Nat) (img : List Byte) (k : Nat) :
    (d.writeBank b img).flash.bank 0 k = (d.flash.setBank 0 b ⟨img, (fwFlaw (d.secFuse d.bed.primary) img).isNone, true⟩).bank 0 k := by
  unfold Dev.writeBank
  dsimp only
  split
  · exact bank_zero_setBank_two _ _ _ _
  · rfl

theorem fwStage_completes {s : State} {c : MbxCmd} (h : mbxReady s fwStageSpec c) (hb : fld c.a0 0 1 ≠ s.found.bed.activeBank) :
    Completes (.fwStage c) s (fun t => (t.dev.flash.bank 0 (fld c.a0 0 1)).image = c.buffer
      ∧ (t.dev.flash.bank 0 (fld c.a0 0 1)).verified = (fwFlaw (s.found.secFuse s.found.bed.primary) c.buffer).isNone
      ∧ t.dev.flash.bank 0 (1 - fld c.a0 0 1) = s.found.flash.bank 0 (1 - fld c.a0 0 1)) := by
  obtain ⟨a, b, hrow⟩ := mbxRow_commits (p := stagePlan c (s.found.flash.bank s.found.bed.primary (fld c.a0 0 1)).image) h
    fun a => fwStageSpec_accepts (d := s.found.cleared c.ring a) hb
  obtain ⟨hlive, -, hcode, -⟩ := h
  have hstore : storesConfig c.opcode = false := by rw [hcode]; rfl
  have hflash : (mbxRow fwStageSpec none c s.found).flash = ((s.found.cleared c.ring a).writeBank (fld c.a0 0 1) c.buffer).flash := by
    rw [hrow, commit_flash (stagePlan_completes_now _ _ _) hstore]
    rfl
  have hbit : fld c.a0 0 1 < 2 := Nat.mod_lt _ (by decide)
  have hother : fld c.a0 0 1 = 0 ↔ 1 - fld c.a0 0 1 ≠ 0 := by omega
  refine completes_of_live hlive rfl ?_
  simp only [settle_flash, hflash, writeBank_bank, bank_setBank_same, bank_setBank_of_bank_ne _ _ hother, true_and]
  exact ⟨rfl, rfl⟩

/-- An activation of a bank begins: mailbox service takes no new command (R563 step 1). -/
def Dev.beginActivate (d : Dev) (b : Nat) : Dev := { d with bed.fwPhase := 1, bed.fwBank := b, bed.fwSince := d.clock.wall }

theorem fwActivateSpec_accepts {d : Dev} {c : MbxCmd} (hs : d.bed.standbyOk = true)
    (hp : (d.flash.bank d.bed.primary (fld c.a0 0 1)).present = true) (hv : (d.flash.bank d.bed.primary (fld c.a0 0 1)).verified = true)
    (hf : d.bed.fwPhase = 0) :
    fwActivateSpec.run c d
      = .go (waitPlan (natLe 1 d.flash.activeBank) (natLe 1 (fld c.a0 0 1)) (fun d => d.beginActivate (fld c.a0 0 1))) := by
  simp [fwActivateSpec, waitPlan, Dev.beginActivate, hs, hp, hv, hf]

/-- An activation that has begun goes on waiting for the executing commands, or pauses mailbox service. -/
theorem activatePause_begun {d : Dev} (h : d.bed.fwPhase = 1) :
    ∃ o b, d.activatePause = { d with clock.out := o, bed := b } ∧ b.fwBank = d.bed.fwBank ∧ b.activeBank = d.bed.activeBank
      ∧ (b.fwPhase = 1 ∨ b.fwPhase = 2 ∧ b.paused = true) := by
  unfold Dev.activatePause
  split
  · exact ⟨_, _, rfl, rfl, rfl, .inr ⟨rfl, rfl⟩⟩
  · exact ⟨d.clock.out, d.bed, rfl, rfl, rfl, .inl h⟩

theorem fwActivate_completes {s : State} {c : MbxCmd} (h : mbxReady s fwActivateSpec c) (hs : s.found.bed.standbyOk = true)
    (hp : (s.found.flash.bank s.found.bed.primary (fld c.a0 0 1)).present = true)
    (hv : (s.found.flash.bank s.found.bed.primary (fld c.a0 0 1)).verified = true) (hf : s.found.bed.fwPhase = 0) :
    Completes (.fwActivate c) s (fun t => waitsFor t c ∧ t.dev.bed.fwBank = fld c.a0 0 1
      ∧ (t.dev.bed.fwPhase = 1 ∨ t.dev.bed.fwPhase = 2 ∧ t.dev.bed.paused = true) ∧ t.dev.bed.activeBank = s.found.bed.activeBank) := by
  obtain ⟨a, b, hrow⟩ := mbxRow_waits h fun a => ⟨_, _, fwActivateSpec_accepts (d := s.found.cleared c.ring a) hs hp hv hf⟩
  obtain ⟨o, bed, hpause, hbank, hactive, hphase⟩ :=
    activatePause_begun (d := ((s.found.cleared c.ring a).beginActivate (fld c.a0 0 1)).hold_ fwActivateSpec c b) rfl
  refine completes_of_live (f := fun d => (mbxRow fwActivateSpec none c d).activatePause) h.1 rfl ?_
  rw [hrow, hpause]
  exact ⟨waitsFor_hold s ((s.found.cleared c.ring a).beginActivate _) _ _ _, hbank, hphase, hactive⟩

/-! ## CAL_RUN and the end of a pair (R495, R555, R564) -/

theorem calRunSpec_accepts_rail {d : Dev} {c : MbxCmd} (hk : fld c.a0 0 2 = 2) (hr : fld c.a0 8 5 < 8) :
    calRunSpec.run c d = .go (waitPlan [] [] (fun d => d.modHalfPow (fld c.a0 8 5) (fun p => { p with frozen := true }))) := by
  simp [calRunSpec, waitPlan, hk, Nat.not_le.2 hr]

theorem askPair_none {c : MbxCmd} (h : fld c.a0 0 2 = 0) (d : Dev) : d.askPair c = (({ d with mirror.regs := {} }).freshEngine, {}) := if_pos h

theorem mirrorPairSpec_accepts_none {d : Dev} {c : MbxCmd} (h : fld c.a0 0 2 = 0) :
    mirrorPairSpec.run c d = plan d.mirror.regs.bytes [] (fun d => ({ d with mirror.regs := {} }).freshEngine) 0 0 := by
  simp [mirrorPairSpec, plan, h, askPair_none h]

/-- Settles O37: each accepted command's plan is what its row does, and the plan's effect is read off. -/
theorem unitCommandResults : Obligations.UnitCommandResults := by
  intro s c d u bank leaves
  refine ⟨fun h hf hl hon h2 h4 => leaveUnit_completes h rfl hf hl hon h2 h4, fun h hf hl hon h2 h4 => leaveUnit_completes h rfl hf hl hon h2 h4,
    fun h hf hl hd => ?enable, fwStage_completes, fwActivate_completes, fun h hk hr => ?calibrate, fun h hk => ?unpair⟩
  case enable =>
    exact completes_of_wait h rfl (fun a => ⟨_, _, unitEnableSpec_accepts (d := d.cleared c.ring a) hf hl hd⟩)
      fun _ _ => ⟨waitsFor_hold _ _ _ _ _, rfl⟩
  case calibrate =>
    refine completes_of_wait h rfl (fun a => ⟨_, _, calRunSpec_accepts_rail (d := d.cleared c.ring a) hk hr⟩)
      fun a b => ⟨waitsFor_hold _ _ _ _ _, ?_⟩
    have hrail := modHalfPow_same (d.cleared c.ring a) (fld c.a0 8 5) (fun p => { p with frozen := true })
    exact ⟨congrArg HalfPower.frozen hrail, (congrArg HalfPower.trim hrail :)⟩
  case unpair =>
    exact completes_of_plan (old := d.mirror.regs.bytes) h rfl (fun a => mirrorPairSpec_accepts_none (d := d.cleared c.ring a) hk)
      fun _ _ _ _ => ⟨rfl, rfl, rfl⟩

end Sys2Proof.Machine

/-! PROOFS. What a channel that starts to retrain leaves of memory's record (R307), then O40 refuted. -/

namespace Sys2Proof.Machine

/-- A ready device as reset leaves its stacks. -/
def idleStacks : State := ⟨{ Dev.reset with boot.phase := .ready }, []⟩

/-- What the model makes of it as channel 0 of stack 0 starts to retrain: the stack's state is another, and it stands in memory's record. -/
theorem idleStacks_retrains :
    Gives (.hbmChannelRetrain 0 0) idleStacks (hbmChannelRetrain 0 0 idleStacks.found)
      ∧ (idleStacks.found.getStack 0).state = 0 ∧ ((hbmChannelRetrain 0 0 idleStacks.found).getStack 0).state = 1 :=
  ⟨gives_of_live rfl rfl rfl, by decide, by decide⟩

/-- Equal memories hold equal stacks. -/
theorem getStack_eq_of_mem {d e : Dev} (h : d.mem = e.mem) (k : Nat) : d.getStack k = e.getStack k := by
  simp only [Dev.getStack, h]

/-- Refutes O40: a stack's state stands in `Dev.mem`, so a channel that starts to retrain does not leave `Dev.mem` as it was. -/
theorem not_unitChangeResults : ¬ Obligations.UnitChangeResults := by
  intro h
  obtain ⟨hgives, hbefore, hafter⟩ := idleStacks_retrains
  obtain ⟨-, -, -, -, -, -, -, -, hretrain, -⟩ := h idleStacks rfl
  obtain ⟨t, hnext, -, -, -, -, hmem⟩ := hretrain 0 0 rfl (by rw [hbefore]; decide)
  obtain rfl := Host.Outcome.next.inj (hgives.symm.trans hnext)
  have hkept : ((hbmChannelRetrain 0 0 idleStacks.found).getStack 0).state = 0 :=
    (congrArg Stack.state (getStack_eq_of_mem hmem 0)).trans hbefore
  exact absurd (hafter.symm.trans hkept) (by decide)

end Sys2Proof.Machine

/-! PROOFS. The values of E8M0, MXINT8 and trit codes (R140, R142, R145); trit bytes and their five digits (R145, R146), then O54. -/

namespace Sys2Proof.Machine

/-! ## Element codes (R140, R142, R145) -/

theorem unsgn_of_nonneg {n : Nat} {v : Int} (h0 : 0 ≤ v) (hhi : v < (2 ^ n : Nat)) : unsgn n v = v.toNat :=
  congrArg Int.toNat (Int.emod_eq_of_lt h0 hhi)

theorem unsgn_of_neg {n : Nat} {v : Int} (hneg : v < 0) (hlo : -(2 ^ n : Nat) ≤ v) : unsgn n v = (v + (2 ^ n : Nat)).toNat := by
  rw [unsgn, ← Int.add_emod_right, Int.emod_eq_of_lt (by omega) (by omega)]

/-- Two's complement in n bits holds every integer from −2^(n−1) to 2^(n−1) − 1. -/
theorem sgn_unsgn {n : Nat} {v : Int} (hlo : -(2 ^ n : Nat) ≤ 2 * v) (hhi : 2 * v < (2 ^ n : Nat)) : sgn n (unsgn n v) = v := by
  rcases Int.lt_or_le v 0 with hneg | hnonneg
  · rw [unsgn_of_neg hneg (by omega), sgn, Nat.mod_eq_of_lt (by omega), if_neg (by omega)]
    omega
  · rw [unsgn_of_nonneg hnonneg (by omega), sgn, Nat.mod_eq_of_lt (by omega), if_pos (by omega)]
    omega

theorem decodeScale_eq {e : Nat} (he : e < 256) : decodeScale e = if e = 255 then .nan else .fin false 1 ((e : Int) - 127) := by
  simp [decodeScale, decodeElem, fmtLayout, Nat.mod_eq_of_lt he]

theorem decodeElem_mxint8 {i : Int} (hlo : -128 ≤ i) (hhi : i ≤ 127) : decodeElem 0x0A (unsgn 8 i) = (Val.ofInt i).scale (-6) := by
  have hread : sgn 8 (unsgn 8 i) = i := sgn_unsgn (by omega) (by omega)
  simp [decodeElem, fmtLayout, fmtBits, fmtUnit, hread]

theorem decodeElem_trit {d : Nat} (hd : d < 3) : decodeElem 0x0D d = Val.ofInt ((d : Int) - 1) := by
  have hmod : d % 4 = d := Nat.mod_eq_of_lt (by omega)
  simp [decodeElem, fmtLayout, hmod]

/-! ## One trit byte (R145) -/

theorem tritValid_iff (b : Nat) : tritValid b = true ↔ b ≤ 242 := decide_eq_true_iff

theorem tritByte_eq_sum {g : List Nat} (hlen : g.length = 5) :
    tritByte g = g.getD 0 0 + 3 * g.getD 1 0 + 9 * g.getD 2 0 + 27 * g.getD 3 0 + 81 * g.getD 4 0 := by
  match g, hlen with
  | [d0, d1, d2, d3, d4], _ =>
    change d0 + 3 * (d1 + 3 * (d2 + 3 * (d3 + 3 * (d4 + 3 * 0)))) = d0 + 3 * d1 + 9 * d2 + 27 * d3 + 81 * d4
    omega

/-- Five base-3 digits spell at most 2 + 6 + 18 + 54 + 162. -/
theorem tritByte_le {g : List Nat} (hlen : g.length = 5) (hg : ∀ d ∈ g, d < 3) : tritByte g ≤ 242 := by
  have hdigit : ∀ k, k < 5 → g.getD k 0 < 3 := fun k hk => by
    rw [List.getD_eq_getElem?_getD, List.getElem?_eq_getElem (hlen ▸ hk)]
    exact hg _ (List.getElem_mem _)
  have h0 := hdigit 0 (by decide)
  have h1 := hdigit 1 (by decide)
  have h2 := hdigit 2 (by decide)
  have h3 := hdigit 3 (by decide)
  have h4 := hdigit 4 (by decide)
  rw [tritByte_eq_sum hlen]
  omega

/-- A trit byte's digits are the five that it was made of. -/
theorem tritDigits_tritByte {g : List Nat} (hlen : g.length = 5) (hg : ∀ d ∈ g, d < 3) : tritDigits (tritByte g) = g := by
  match g, hlen with
  | [d0, d1, d2, d3, d4], hlen =>
    obtain ⟨h0, h1, h2, h3, h4⟩ : d0 < 3 ∧ d1 < 3 ∧ d2 < 3 ∧ d3 < 3 ∧ d4 < 3 := by simpa using hg
    rw [tritByte_eq_sum hlen]
    simp only [tritDigits, List.getD_cons_zero, List.getD_cons_succ, List.cons.injEq, and_true]
    omega

/-! ## The trit bytes of a run (R145, R146) -/

/-- The digits that byte j of a run holds: those of positions 5j to 5j + 4, and digit 1 past the run's end. -/
def tritGroup (ds : List Nat) (j : Nat) : List Nat := ((ds.drop (5 * j)).take 5).rightpad 5 1

theorem tritGroup_length (ds : List Nat) (j : Nat) : (tritGroup ds j).length = 5 := by
  simp only [tritGroup, List.rightpad, List.length_append, List.length_replicate, List.length_take, List.length_drop]
  omega

theorem tritGroup_lt {ds : List Nat} (hds : ∀ d ∈ ds, d < 3) (j : Nat) : ∀ d ∈ tritGroup ds j, d < 3 := by
  intro d hd
  rcases List.mem_append.1 hd with hrun | hpad
  · exact hds d (List.mem_of_mem_drop (List.mem_of_mem_take hrun))
  · rw [List.eq_of_mem_replicate hpad]
    decide

theorem tritGroup_getD {ds : List Nat} {j k : Nat} (hk : k < 5) (hin : 5 * j + k < ds.length) :
    (tritGroup ds j).getD k 0 = ds.getD (5 * j + k) 0 := by
  have hrun : k < ((ds.drop (5 * j)).take 5).length := by
    rw [List.length_take, List.length_drop]
    omega
  rw [tritGroup, List.rightpad, List.getD_eq_getElem?_getD, List.getD_eq_getElem?_getD, List.getElem?_append_left hrun,
    List.getElem?_take_of_lt hk, List.getElem?_drop]

theorem tritPack_getD {ds : List Nat} {j : Nat} (hj : 5 * j < ds.length) : (tritPack ds).getD j 0 = BitVec.ofNat 8 (tritByte (tritGroup ds j)) := by
  have hbyte : j < cdiv ds.length 5 := by unfold cdiv; omega
  simp [tritPack, upTo, tritGroup, List.rightpad, List.getD_eq_getElem?_getD, hbyte]

theorem tritPack_toNat {ds : List Nat} (hds : ∀ d ∈ ds, d < 3) {j : Nat} (hj : 5 * j < ds.length) :
    ((tritPack ds).getD j 0).toNat = tritByte (tritGroup ds j) := by
  have hle : tritByte (tritGroup ds j) ≤ 242 := tritByte_le (tritGroup_length ds j) (tritGroup_lt hds j)
  rw [tritPack_getD hj, BitVec.toNat_ofNat, Nat.mod_eq_of_lt (by omega)]

/-- Trit byte j is the base-3 value of the five digits of its positions. -/
theorem tritPack_eq_sum {ds : List Nat} (hds : ∀ d ∈ ds, d < 3) {j : Nat} (hj : 5 * j + 4 < ds.length) :
    ((tritPack ds).getD j 0).toNat = ds.getD (5 * j) 0 + 3 * ds.getD (5 * j + 1) 0 + 9 * ds.getD (5 * j + 2) 0
      + 27 * ds.getD (5 * j + 3) 0 + 81 * ds.getD (5 * j + 4) 0 := by
  rw [tritPack_toNat hds (by omega), tritByte_eq_sum (tritGroup_length ds j)]
  rw [tritGroup_getD, tritGroup_getD, tritGroup_getD, tritGroup_getD, tritGroup_getD, Nat.add_zero] <;> omega

/-- Digit i of a run comes back from its trit byte. -/
theorem tritDigits_tritPack {ds : List Nat} (hds : ∀ d ∈ ds, d < 3) {i : Nat} (hi : i < ds.length) :
    (tritDigits ((tritPack ds).getD (i / 5) 0).toNat).getD (i % 5) 0 = ds.getD i 0 := by
  have hpos : 5 * (i / 5) + i % 5 = i := Nat.div_add_mod i 5
  rw [tritPack_toNat hds (by omega), tritDigits_tritByte (tritGroup_length ds _) (tritGroup_lt hds _),
    tritGroup_getD (Nat.mod_lt i (by decide)) (by omega), hpos]

theorem tritPack_valid {ds : List Nat} (hds : ∀ d ∈ ds, d < 3) {j : Nat} (hj : 5 * j < ds.length) :
    tritValid ((tritPack ds).getD j 0).toNat = true := by
  rw [tritPack_toNat hds hj, tritValid_iff]
  exact tritByte_le (tritGroup_length ds j) (tritGroup_lt hds j)

/-- Settles O54: each code is decoded once, and a trit byte is read through the five digits of its group. -/
theorem elementCodeValues : Obligations.ElementCodeValues :=
  ⟨fun _ he => decodeScale_eq he, fun _ hlo hhi => decodeElem_mxint8 hlo hhi, fun _ hd => decodeElem_trit hd,
    fun _ hds _ hj => tritPack_eq_sum hds hj,
    fun _ hds i hi => ⟨tritDigits_tritPack hds hi, tritPack_valid hds (by omega)⟩,
    fun b _ => tritValid_iff b⟩

end Sys2Proof.Machine

/-! PROOFS. The completions of a slab's commands and descriptors, the starts of its DMA channels and its finished tasks (R196, R204, R224, R227), then
O12. -/

namespace Sys2Proof.Machine

/-! ## Commands in flight (R204) and the free Streak unit (R196) -/

section
variable {s : State} {k x cyc : Nat}

/-- The command of its kind that is due leaves the record of what is in flight, and its signal follows. -/
theorem complete_due {kind : Nat} {f : InFlight} (hr : slabRuns s k cyc = true)
    (hf : ((slabRun s k cyc).getSlab k).seq.inflight.find? (fun f => f.x == x && f.kind == kind && decide (f.done ≤ slabTime s k cyc)) = some f) :
    s.found.complete k x kind cyc = ((slabRun s k cyc).modSlab k (fun s' => { s' with seq.inflight := s'.seq.inflight.erase f })).cmdSignal
      (2 * k + x) f.at_ (slabTime s k cyc) := by
  rw [slabRun] at hf ⊢
  simp only [Dev.complete, slabAt_eq hr, hf]

theorem streakUnitFree_selects (hr : slabRuns s k cyc = true) :
    streakUnitFree k cyc s.found = (slabRun s k cyc).selectStreak k (slabTime s k cyc) := by
  simp only [streakUnitFree, slabAt_eq hr, slabRun]

/-! ## The DMA channels (R224, R227) -/

/-- A source that sends no READs begins with nothing received, and its start is the move from the queue alone. -/
theorem dmaDescStart_takes {ch : Nat} {j : DmaJob} (hr : slabRuns s k cyc = true) (hj : ((slabRun s k cyc).getSlab k).seq.nextDesc (ch == 1) = some j)
    (hm : ((slabRun s k cyc).getSlab k).seq.mayStart (ch == 1) (slabTime s k cyc) j = true) (hsrc : j.desc.src ≠ 2) :
    dmaDescStart k ch cyc s.found = (slabRun s k cyc).modSlab k (fun s' => { s' with seq := { s'.seq with
      dmaQ := s'.seq.dmaQ.erase j, dmaRun := s'.seq.dmaRun ++ [{ j with started := some (slabTime s k cyc), got := [] }]
      lastMem := if ch == 1 then s'.seq.lastMem else j.x, lastMesh := if ch == 1 then j.x else s'.seq.lastMesh } }) := by
  rw [slabRun] at hj hm ⊢
  simp only [dmaDescStart, slabAt_eq hr, hj, hm, gate_true, if_neg hsrc]

/-- A descriptor that is no COPY only fills its bank, and its signal has ridden on no WRITE. -/
theorem dmaDescComplete_finished {ch : Nat} {j : DmaJob} (hr : slabRuns s k cyc = true)
    (hj : ((slabRun s k cyc).getSlab k).seq.dmaRun.find? (fun j => j.finished (ch == 1) (slabTime s k cyc)) = some j) (hkind : j.desc.kind ≠ 3) :
    dmaDescComplete k ch cyc s.found = ((slabRun s k cyc).modSlab k (fun s' => { s' with
      mem := j.desc.fill j.got s'.mem, seq.dmaRun := s'.seq.dmaRun.erase j
      seq.meshFree := if ch == 1 then slabTime s k cyc else s'.seq.meshFree })).cmdSignal (2 * k + j.x) j.at_ (slabTime s k cyc) := by
  have hnot : (j.desc.kind == 3) = false := beq_false_of_ne hkind
  rw [slabRun] at hj ⊢
  simp only [dmaDescComplete, slabAt_eq hr, hj, hkind, hnot, Bool.false_and, Bool.false_eq_true, false_and, if_false]

/-! ## Finished tasks (R204) -/

/-- A bound context that has ended and has nothing open finishes its task, and with the last task its job ends. -/
theorem slabTaskFinish_done (hr : slabRuns s k cyc = true) (hb : (slabCtx s k x cyc).bound = true) (he : (slabCtx s k x cyc).ended = true)
    (hd : (slabCtx s k x cyc).endDone = false) (hs : (slabCtx s k x cyc).stopped = false) (ha : ((slabDev s k cyc).getSlab k).allDone x = true)
    (ho : (slabDev s k cyc).signalsOpen (tileOfSlab k) x (slabTime s k cyc) = false) :
    slabTaskFinish k x cyc s.found
      = ((slabDev s k cyc).modSCtx (2 * k + x) (fun c => { c with endDone := true })).endIfDone ((slabDev s k cyc).holderNo (halfOfUnit k)) := by
  rw [slabCtx] at hb he hd hs
  rw [slabDev, slabRun] at hb he hd hs ha ho ⊢
  simp only [slabTaskFinish, slabAt_eq hr, hb, he, hd, hs, ha, ho, Bool.not_false, Bool.and_self, gate_true]

end

/-- Settles O12: each command finds its slab run up to the cycle, its condition opens its gate, and the effect behind it is read off. -/
theorem slabCompletionResults : Obligations.SlabCompletionResults := by
  intro s k x cyc hr
  have hl : Live s := slabRuns_live hr
  exact ⟨fun _ hf => gives_of_live hl rfl (complete_due hr hf), fun _ hf => gives_of_live hl rfl (complete_due hr hf),
    fun _ hf => gives_of_live hl rfl (complete_due hr hf), gives_of_live hl rfl (streakUnitFree_selects hr),
    fun _ _ hj hm hsrc => gives_of_live hl rfl (dmaDescStart_takes hr hj hm hsrc),
    fun _ _ hj hkind => gives_of_live hl rfl (dmaDescComplete_finished hr hj hkind),
    fun hb he hd hs ha ho => gives_of_live hl rfl (slabTaskFinish_done hr hb he hd hs ha ho)⟩

end Sys2Proof.Machine

/-! PROOFS. The commands of slab contexts that need no engine (R203, R204, R216, R334), then O10. -/

namespace Sys2Proof.Machine

section
variable {s : State} {k x cyc : Nat} {h : SlabCmd}

/-! ## What the two shared forms of such commands do when they dispatch (R203, R204) -/

/-- A command with no effect of its own only moves the head on. -/
theorem idleCommand_dispatches (hd : dispatches s k x cyc h = true) {o : SlabOp} (ho : h.op = o) :
    s.found.idleCommand k x cyc o
      = ((slabDev s k cyc).dispatchSlab (2 * k + x) (slabTime s k cyc)).cmdSignal (2 * k + x) h.at_ (slabTime s k cyc) := by
  simp only [Dev.idleCommand, atHead_eq hd, ho, dispatches_can hd, beq_self_eq_true, Bool.and_self, gate_true]

/-- A command on the context acts on it once the next command is the head. -/
theorem plainCommand_dispatches (hd : dispatches s k x cyc h = true) {ok : SlabOp → Bool} (hok : ok h.op = true) (f : SlabOp → SCtx → SCtx) :
    s.found.plainCommand k x cyc ok f
      = (((slabDev s k cyc).dispatchSlab (2 * k + x) (slabTime s k cyc)).modSCtx (2 * k + x) (f h.op)).cmdSignal (2 * k + x) h.at_
          (slabTime s k cyc) := by
  simp only [Dev.plainCommand, atHead_eq hd, hok, dispatches_can hd, Bool.and_self, gate_true]

/-! ## BASE, LOOP, BARRIER and END (R204, R216, R217, R334) -/

theorem base_dispatches (hd : dispatches s k x cyc h = true) {r v st : Nat} (ho : h.op = .base r v st) :
    base k x cyc s.found = (((slabDev s k cyc).dispatchSlab (2 * k + x) (slabTime s k cyc)).modSCtx (2 * k + x) (fun c =>
      { c with baseVal := tabSet 0 r v c.baseVal, baseStride := tabSet 0 r st c.baseStride })).cmdSignal (2 * k + x) h.at_
        (slabTime s k cyc) := by
  rw [base, plainCommand_dispatches hd (by rw [ho]), ho]

theorem loop_dispatches (hd : dispatches s k x cyc h = true) {n body mask : Nat} (ho : h.op = .loop n body mask) :
    loop k x cyc s.found = (((slabDev s k cyc).dispatchSlab (2 * k + x) (slabTime s k cyc)).modSCtx (2 * k + x) (fun c =>
      { c with loops := ⟨c.pc, c.pc + body - 1, n, mask⟩ :: c.loops })).cmdSignal (2 * k + x) h.at_ (slabTime s k cyc) := by
  rw [loop, plainCommand_dispatches hd (by rw [ho]), ho]

/-- A BARRIER that has not arrived arrives, and stays the head until its round is released. -/
theorem barrier_arrives (hd : dispatches s k x cyc h = true) {ch : Nat} {rebase : Bool} (ho : h.op = .barrier ch rebase)
    (ha : (slabCtx s k x cyc).arrived = false) :
    barrier k x cyc s.found = ((slabDev s k cyc).modSCtx (2 * k + x) (fun c => { c with arrived := true })).arrive (tileOfSlab k) x ch rebase
      (slabTime s k cyc) := by
  simp only [barrier, atHead_eq hd, ho, dispatches_can hd, ha, Bool.not_false, Bool.and_self, gate_true]

theorem slabEnd_ends (hd : dispatches s k x cyc h = true) (ho : h.op = .finish) :
    slabEnd k x cyc s.found = ((slabDev s k cyc).modSCtx (2 * k + x) (fun c =>
      { c with ended := true, lastDispatch := some (slabTime s k cyc) })).cmdSignal (2 * k + x) h.at_ (slabTime s k cyc) := by
  simp only [slabEnd, atHead_eq hd, ho, dispatches_can hd, Bool.and_self, gate_true]

end

/-- Settles O10: the head that dispatches is the command, and what the command does with it is read off. -/
theorem slabPlainCommandResults : Obligations.SlabPlainCommandResults := by
  intro s k x cyc h hd
  have hl : Live s := slabRuns_live (dispatches_runs hd)
  exact ⟨fun ho => gives_of_live hl rfl (idleCommand_dispatches hd ho), fun ho => gives_of_live hl rfl (idleCommand_dispatches hd ho),
    fun _ _ _ ho => gives_of_live hl rfl (base_dispatches hd ho), fun _ _ _ ho => gives_of_live hl rfl (loop_dispatches hd ho),
    fun _ _ ho ha => gives_of_live hl rfl (barrier_arrives hd ho ha), fun ho => gives_of_live hl rfl (slabEnd_ends hd ho)⟩

end Sys2Proof.Machine

/-! PROOFS. The commands on partitions: PARTITION_CREATE with the fill of its regions, PARTITION_DESTROY and IMAGE_LOAD (R234, R296, R333, R451), then
O34. -/

namespace Sys2Proof.Machine

/-! ## The partitions and the regions beside a command's effect -/

/-- The partitions and the HBM regions: what freeing or binding a unit leaves alone. -/
def Dev.holdings (d : Dev) : List (Nat × Part) × List (Nat × Region) := (d.parts, d.mem.regions)

theorem ite_holdings {c : Prop} [Decidable c] {d e e' : Dev} (h : e.holdings = d.holdings) (h' : e'.holdings = d.holdings) :
    (if c then e else e').holdings = d.holdings := by
  split
  · exact h
  · exact h'

theorem parts_eq_of_holdings {d e : Dev} (h : d.holdings = e.holdings) : d.parts = e.parts := congrArg Prod.fst h

theorem regions_eq_of_holdings {d e : Dev} (h : d.holdings = e.holdings) : d.mem.regions = e.mem.regions := congrArg Prod.snd h

theorem getRegion_eq_of_regions {d e : Dev} (h : d.mem.regions = e.mem.regions) (k : Nat) : d.getRegion k = e.getRegion k :=
  congrArg (tabGet ({} : Region) k) h

theorem regionsOf_eq_of_regions {d e : Dev} (h : d.mem.regions = e.mem.regions) (n : Nat) : d.regionsOf n = e.regionsOf n := by
  simp only [Dev.regionsOf, getRegion_eq_of_regions h]

@[simp] theorem completed_getPart (d : Dev) (out : List Out) (rings : List (Nat × Ring)) (flash : Flash) (n : Nat) :
    (d.completed out rings flash).getPart n = d.getPart n := rfl

@[simp] theorem cleared_getPart (d : Dev) (ring : Nat) (a : Clearance) (n : Nat) : (d.cleared ring a).getPart n = d.getPart n := rfl

/-! ## PARTITION_CREATE (R296, R333, R451) -/

@[simp] theorem addRegion_parts (d : Dev) (n : Nat) (e : RegionEntry) : (d.addRegion n e).parts = d.parts := by
  unfold Dev.addRegion
  split <;> rfl

/-- The definition of a new partition. -/
def newPart (halves channels rings : Nat) (filling : Bool) : Part :=
  { live := true, halves := halves, channels := channels, rings := rings, filling := filling }

theorem createPart_parts (d : Dev) (n halves channels rings : Nat) (filling : Bool) :
    (d.createPart n halves channels rings filling).parts = (d.modPart n (fun _ => newPart halves channels rings filling)).parts := by
  unfold Dev.createPart
  refine (each_keeps (fun d => d.parts) _ (fun d q => ?_) _ _).trans (each_keeps (fun d => d.parts) _ (fun d h => modHalf_parts d h _) _ _)
  exact each_keeps (fun d => d.parts) _ (fun d k => modChan_parts d _ _) _ d

/-- The plan of a PARTITION_CREATE that passes its checks: it waits where it has regions to fill. -/
def createPlan (c : MbxCmd) : Plan where
  effect := fun d =>
    ((Dev.each ((upTo (fld c.a0 16 8)).map (regionEntry c.buffer)) (fun d e => d.addRegion (fld c.a0 0 3) e) d).createPart (fld c.a0 0 3)
      (fld c.a0 8 8) c.a1 c.a2 (decide (0 < fld c.a0 16 8)), { waits := decide (0 < fld c.a0 16 8) })

theorem partitionCreateSpec_accepts {d : Dev} {c : MbxCmd} (h : d.createFail c = none) :
    partitionCreateSpec.run c d = .go (createPlan c) := by
  simp only [partitionCreateSpec, h, createPlan]

theorem createPlan_parts (c : MbxCmd) (d : Dev) : ((createPlan c).effect d).1.parts
    = (d.modPart (fld c.a0 0 3) (fun _ => newPart (fld c.a0 8 8) c.a1 c.a2 (decide (0 < fld c.a0 16 8)))).parts := by
  have hregions := each_keeps (fun d => d.parts) _ (fun d e => addRegion_parts d (fld c.a0 0 3) e)
    ((upTo (fld c.a0 16 8)).map (regionEntry c.buffer)) d
  refine (createPart_parts _ _ _ _ _ _).trans ?_
  simp only [Dev.modPart, hregions]

theorem partitionCreate_completes {s : State} {c : MbxCmd} (h : mbxReady s partitionCreateSpec c) (hf : s.found.createFail c = none) :
    Completes (.partitionCreate c) s (fun t =>
      t.dev.getPart (fld c.a0 0 3) = newPart (fld c.a0 8 8) c.a1 c.a2 (decide (0 < fld c.a0 16 8)) ∧ (0 < fld c.a0 16 8 → waitsFor t c)
      ∧ ∀ k, k ≠ fld c.a0 0 3 → t.dev.getPart k = s.found.getPart k) := by
  obtain ⟨a, b, hrow⟩ := mbxRow_commits h fun a => partitionCreateSpec_accepts (d := s.found.cleared c.ring a) hf
  have hparts := getPart_eq_of_parts ((commit_parts (s.found.cleared c.ring a) partitionCreateSpec c b (createPlan c)).trans (createPlan_parts c _))
  refine completes_of_live h.1 rfl ?_
  simp only [hrow, settle_getPart, hparts, modPart_same, true_and]
  refine ⟨fun hcount => ?_, fun k hk => modPart_ne (s.found.cleared c.ring a) _ hk⟩
  rw [commit_waits partitionCreateSpec c b (p := createPlan c) (decide_eq_true hcount)]
  exact waitsFor_hold _ _ _ _ _

/-! ## The fill of new regions (R296) -/

/-- A table that drops keys reads the default under them, and as before under the others. -/
theorem tabGet_filter_key {α : Type} (dflt : α) (p : Nat → Bool) (k : Nat) (t : List (Nat × α)) :
    tabGet dflt k (t.filter (fun x => p x.1)) = if p k then tabGet dflt k t else dflt := by
  induction t with
  | nil => simp [tabGet]
  | cons x t ih =>
    obtain ⟨j, v⟩ := x
    by_cases hj : k = j
    · subst hj
      cases hp : p k <;> simp [hp, tabGet, ih]
    · cases hp : p j <;> simp [hp, tabGet, ih, hj]

theorem zero_byte (m : Mem) (a n c : Nat) : (m.zero a n).byte c = if a ≤ c ∧ c < a + n then 0 else m.byte c := by
  refine (tabGet_filter_key (0 : Byte) (fun c => !(decide (a ≤ c) && decide (c < a + n))) c m.cells).trans ?_
  rw [← Bool.decide_and]
  by_cases hin : a ≤ c ∧ c < a + n
  · simp [hin]
  · simp [hin, Mem.byte]

/-- The words of a region are zero (R296). -/
def Dev.zeroRegion (d : Dev) (k : Nat) : Dev :=
  { d with mem := d.mem.zero (k / 16 * 2 ^ 46 + (d.getRegion k).first) (d.getRegion k).bytes }

/-- An address lies in a region. -/
def Dev.inRegion (d : Dev) (k a : Nat) : Prop :=
  k / 16 * 2 ^ 46 + (d.getRegion k).first ≤ a ∧ a < k / 16 * 2 ^ 46 + (d.getRegion k).first + (d.getRegion k).bytes

theorem zeroRegion_holdings (d : Dev) (k : Nat) : (d.zeroRegion k).holdings = d.holdings := rfl

theorem zeroRegion_inRegion (d : Dev) (j k a : Nat) : (d.zeroRegion j).inRegion k a ↔ d.inRegion k a := Iff.rfl

theorem zeroRegion_byte {d : Dev} {k a : Nat} (h : d.mem.byte a = 0 ∨ d.inRegion k a) : (d.zeroRegion k).mem.byte a = 0 := by
  refine (zero_byte _ _ _ _).trans ?_
  split
  · rfl
  · exact h.resolve_right ‹_›

/-- What one of the listed regions holds, or was zero, is zero once they all have been filled. -/
theorem each_zeroRegion_byte {l : List Nat} {d : Dev} {a : Nat} (h : d.mem.byte a = 0 ∨ ∃ k ∈ l, d.inRegion k a) :
    (Dev.each l Dev.zeroRegion d).mem.byte a = 0 := by
  induction l generalizing d with
  | nil => exact h.resolve_right fun ⟨_, hk, _⟩ => nomatch hk
  | cons j l ih =>
    refine ih (d := d.zeroRegion j) ?_
    obtain hzero | ⟨k, hk, hin⟩ := h
    · exact .inl (zeroRegion_byte (.inl hzero))
    · obtain rfl | hk := List.mem_cons.1 hk
      · exact .inl (zeroRegion_byte (.inr hin))
      · exact .inr ⟨k, hk, (zeroRegion_inRegion d j k a).2 hin⟩

@[simp] theorem completeLate_mem (d : Dev) (w : Waiting) (r : Reply) : (d.completeLate w r).mem = d.mem := by
  unfold Dev.completeLate
  dsimp only
  obtain ⟨o, q, h⟩ := completeCmd_shape _ w.ring w.opcode w.tag w.headAfter w.irq w.audited false 0 r
  rw [h]
  dsimp only
  split <;> rfl

@[simp] theorem completeAll_mem (d : Dev) (pick : Waiting → Bool) (r : Waiting → Reply) : (d.completeAll pick r).mem = d.mem :=
  each_keeps (fun d => d.mem) _ (fun d w => completeLate_mem d w (r w)) _ d

theorem partitionFillDone_filling {d : Dev} {k : Nat} (h : (d.getPart k).filling = true) :
    partitionFillDone k d = ((Dev.each (d.regionsOf k) Dev.zeroRegion d).modPart k (fun p => { p with filling := false })).completeAll
      (fun w => w.opcode == 0x0010 && fld w.a0 0 3 == k) (fun _ => {}) := by
  simp only [partitionFillDone, h, gate_true]
  rfl

theorem partitionFillDone_completes {s : State} {k : Nat} (hl : Live s) (h : (s.found.getPart k).filling = true) :
    Completes (.partitionFillDone k) s (fun t => (t.dev.getPart k).filling = false ∧ t.dev.mem.regions = s.found.mem.regions
      ∧ ∀ r, r ∈ s.found.regionsOf k → ∀ a, s.found.inRegion r a → t.dev.mem.byte a = 0) := by
  refine completes_of_live hl rfl ?_
  rw [partitionFillDone_filling h]
  simp only [settle_getPart, settle_mem, completeAll_mem, modPart_mem, getPart_eq_of_parts (completeAll_parts _ _ _), modPart_same, true_and]
  refine ⟨?_, fun r hr a hin => each_zeroRegion_byte (.inr ⟨r, hr, hin⟩)⟩
  exact regions_eq_of_holdings (each_keeps Dev.holdings _ zeroRegion_holdings _ s.found)

/-! ## PARTITION_DESTROY (R451, R465) -/

@[simp] theorem unbindAll_holdings (d : Dev) (n : Nat) : (d.unbindAll n).holdings = d.holdings := by
  unfold Dev.unbindAll
  exact (each_keeps Dev.holdings _ (fun _ _ => by rfl) _ _).trans (each_keeps Dev.holdings _ (fun _ _ => by rfl) _ _)

@[simp] theorem dropMaps_holdings (d : Dev) (n : Nat) (bound : List Nat) : (d.dropMaps n bound).holdings = d.holdings :=
  each_keeps Dev.holdings _ (fun _ _ => by rfl) _ _

@[simp] theorem clearAllots_holdings (d : Dev) (n : Nat) : (d.clearAllots n).holdings = d.holdings :=
  each_keeps Dev.holdings _ (fun _ _ => by rfl) _ _

@[simp] theorem clearSlots_holdings (d : Dev) (halves : Nat) : (d.clearSlots halves).holdings = d.holdings := rfl

@[simp] theorem resetChannels_holdings (d : Dev) (n : Nat) : (d.resetChannels n).holdings = d.holdings :=
  each_keeps Dev.holdings _ (fun _ _ => by exact ite_holdings rfl rfl) _ _

theorem zeroHalf_regions (m : Mem) (half : Nat) : (m.zeroHalf half).regions = m.regions := by
  unfold Mem.zeroHalf
  exact List.foldlRecOn (motive := fun x : Mem => x.regions = m.regions) _ _ rfl fun _ h _ _ => h

@[simp] theorem clearSram_holdings (d : Dev) (half : Nat) : (d.clearSram half).holdings = d.holdings := by
  unfold Dev.clearSram
  refine (each_keeps Dev.holdings _ (fun d k => ?_) _ _).trans (congrArg (Prod.mk d.parts) (zeroHalf_regions d.mem half))
  exact each_keeps Dev.holdings _ (fun _ _ => by rfl) _ _

/-- A partition's contexts, allotments and slot entries are gone, its regions and halves still there. -/
def Dev.unloadPart (d : Dev) (n : Nat) : Dev :=
  ((((d.keepNotice n).unbindAll n).dropMaps n []).clearAllots n).clearSlots (d.getPart n).halves

/-- The listed regions are free. -/
def Dev.freeRegions (d : Dev) (l : List Nat) : Dev := Dev.each l (fun d k => d.modRegion k (fun _ => {})) d

/-- A barrier channel that a partition holds is free. -/
def Dev.freeChannel (d : Dev) (n k : Nat) : Dev :=
  if (d.getChan k).assigned ∧ (d.getChan k).partition = n then d.modChan k (fun b => { b with assigned := false, partition := 0 }) else d

/-- A half is free, its SRAM cleared. -/
def Dev.freeHalf (d : Dev) (h : Nat) : Dev := (d.clearSram h).modHalf h (fun x => { x with partition := none })

/-- A partition's barrier channels and the listed halves are free. -/
def Dev.freeUnits (d : Dev) (n : Nat) (halves : List Nat) : Dev :=
  Dev.each halves Dev.freeHalf (Dev.each (upTo 64) (fun d k => d.freeChannel n k) (d.resetChannels n))

theorem freeChannel_holdings (d : Dev) (n k : Nat) : (d.freeChannel n k).holdings = d.holdings := ite_holdings rfl rfl

theorem modHalf_holdings (d : Dev) (h : Nat) (f : Half → Half) : (d.modHalf h f).holdings = d.holdings := rfl

theorem freeHalf_holdings (d : Dev) (h : Nat) : (d.freeHalf h).holdings = d.holdings :=
  (modHalf_holdings _ _ _).trans (clearSram_holdings d h)

theorem freeUnits_holdings (d : Dev) (n : Nat) (halves : List Nat) : (d.freeUnits n halves).holdings = d.holdings :=
  (each_keeps Dev.holdings _ freeHalf_holdings _ _).trans
    ((each_keeps Dev.holdings _ (fun d k => freeChannel_holdings d n k) _ _).trans (resetChannels_holdings d n))

theorem freePart_eq (d : Dev) (n : Nat) :
    d.freePart n = (((d.unloadPart n).freeRegions ((d.unloadPart n).regionsOf n)).freeUnits n (d.getPart n).halfList).modPart n (fun _ => {}) :=
  rfl

theorem freeRegions_parts (d : Dev) (l : List Nat) : (d.freeRegions l).parts = d.parts :=
  each_keeps (fun d => d.parts) _ (fun d k => modRegion_parts d k _) l d

theorem freeRegions_getRegion (d : Dev) (l : List Nat) (k : Nat) : (d.freeRegions l).getRegion k = if k ∈ l then {} else d.getRegion k := by
  induction l generalizing d with
  | nil => rfl
  | cons j l ih =>
    refine (ih (d.modRegion j (fun _ => {}))).trans ?_
    by_cases hk : k = j
    · subst hk; simp
    · simp [hk, modRegion_ne d _ hk]

/-- Once its regions are free a partition has none. -/
theorem freeRegions_regionsOf (d : Dev) (n : Nat) : (d.freeRegions (d.regionsOf n)).regionsOf n = [] := by
  refine List.filter_eq_nil_iff.2 fun k hk hown => ?_
  rw [freeRegions_getRegion] at hown
  split at hown
  · exact absurd hown Bool.false_ne_true
  · exact ‹k ∉ d.regionsOf n› (List.mem_filter.2 ⟨hk, hown⟩)

theorem keepNotice_getPart_ne (d : Dev) {n k : Nat} (h : k ≠ n) : (d.keepNotice n).getPart k = d.getPart k := by
  unfold Dev.keepNotice
  dsimp only
  split
  · split
    · exact modPart_ne _ _ h
    · rfl
  · rfl

theorem unloadPart_getPart_ne (d : Dev) {n k : Nat} (h : k ≠ n) : (d.unloadPart n).getPart k = d.getPart k := by
  have hkept : (d.unloadPart n).holdings = (d.keepNotice n).holdings := by simp [Dev.unloadPart]
  exact (getPart_eq_of_parts (parts_eq_of_holdings hkept) k).trans (keepNotice_getPart_ne d h)

theorem freePart_frees (d : Dev) (n : Nat) :
    (d.freePart n).getPart n = {} ∧ (∀ k, k ≠ n → (d.freePart n).getPart k = d.getPart k) ∧ (d.freePart n).regionsOf n = [] := by
  have hunits := freeUnits_holdings ((d.unloadPart n).freeRegions ((d.unloadPart n).regionsOf n)) n (d.getPart n).halfList
  rw [freePart_eq]
  refine ⟨modPart_same _ _ _, fun k hk => ?_, ?_⟩
  · rw [modPart_ne _ _ hk, getPart_eq_of_parts (parts_eq_of_holdings hunits), getPart_eq_of_parts (freeRegions_parts _ _),
      unloadPart_getPart_ne d hk]
  · exact (regionsOf_eq_of_regions ((congrArg Mem.regions (modPart_mem _ _ _)).trans (regions_eq_of_holdings hunits)) n).trans
      (freeRegions_regionsOf _ n)

theorem partitionDestroySpec_accepts {d : Dev} {c : MbxCmd} (hl : (d.getPart (fld c.a0 0 3)).live = true)
    (hr : (d.getPart (fld c.a0 0 3)).running = false) (hd : (d.getPart (fld c.a0 0 3)).draining = false) :
    partitionDestroySpec.run c d = plan [] [] (fun d => d.freePart (fld c.a0 0 3)) 0 0 := by
  simp [partitionDestroySpec, hl, hr, hd]

/-! ## A command that its own checks reject (R448) -/

/-- Steps 3 and 4 of R448 and R449 let a ready command pass to its own checks, here ones that reject it: it completes with their status and has no
effect. -/
theorem mbxRow_rejects {s : State} {sp : MbxSpec} {c : MbxCmd} {r : Reply} (h : mbxReady s sp c)
    (hrun : ∀ a, sp.run c (s.found.cleared c.ring a) = .no r) :
    ∃ a, mbxRow sp none c s.found = (s.found.cleared c.ring a).finish c false r := by
  obtain ⟨a, hchecks⟩ := mbxRow_checks h
  obtain ⟨-, -, -, -, -, -, -, -, -, hreserved, hconflict, hread, -⟩ := h
  have hfree : (if sp.reads then none else (s.found.cleared c.ring a).conflictRing sp c) = none := by
    split
    · rfl
    · exact hconflict (by simpa using ‹¬sp.reads = true›)
  exact ⟨a, hchecks.trans (by simp [Dev.checkRest, hreserved, hfree, hread, hrun a])⟩

/-- A rejected command changes outputs and rings alone, beside what its checks have set. -/
theorem completes_of_rejected {i : Instr} {s : State} {sp : MbxSpec} {c : MbxCmd} {r : Reply} {E : State → Prop} (h : mbxReady s sp c)
    (hi : exec i s = s.live (mbxRow sp none c)) (hrun : ∀ a, sp.run c (s.found.cleared c.ring a) = .no r)
    (hE : ∀ a o q, E { s with dev := settle { s.found.cleared c.ring a with clock.out := o, host.rings := q } }) : Completes i s E := by
  obtain ⟨a, hrow⟩ := mbxRow_rejects h hrun
  obtain ⟨o, q, hfinish⟩ := completeCmd_shape (s.found.cleared c.ring a) c.ring c.opcode c.tag ((s.found.cleared c.ring a).getRing c.ring).head
    c.irq false c.cplFails c.bufAddr r
  refine completes_of_live h.1 hi ?_
  rw [hrow, Dev.finish, hfinish]
  exact hE a o q

/-! ## IMAGE_LOAD (R234, R451) -/

@[simp] theorem cleared_caps (d : Dev) (ring : Nat) (a : Clearance) : (d.cleared ring a).caps = d.caps := rfl

theorem cleared_ownsRange (d : Dev) (ring : Nat) (a : Clearance) (n fuel i len : Nat) :
    (d.cleared ring a).ownsRange n fuel i len = d.ownsRange n fuel i len := by
  have howned : (d.cleared ring a).ownedFrom n = d.ownedFrom n := rfl
  induction fuel generalizing i len with
  | zero => rfl
  | succ fuel ih => simp only [Dev.ownsRange, howned, ih]

/-- The checks of an image read nothing that the checks of its command have set. -/
theorem cleared_imageFail (d : Dev) (ring : Nat) (a : Clearance) (n : Nat) (img : List Byte) :
    (d.cleared ring a).imageFail n img = d.imageFail n img := by
  have hfirst : (d.cleared ring a).sectFirst = d.sectFirst := rfl
  have hsecond : (d.cleared ring a).sectSecond = d.sectSecond := rfl
  simp only [Dev.imageFail, hfirst, hsecond, cleared_ownsRange, cleared_getPart, cleared_caps]

/-- The reply to an image that fails a check. -/
def ImgFail.reply (f : ImgFail) : Reply := { status := f.status, detail := f.detail, r1 := f.result1 }

theorem imageLoadSpec_accepts {d : Dev} {c : MbxCmd} (hp : c.part < 8) (hl : (d.getPart c.part).live = true)
    (hr : (d.getPart c.part).running = false) (hd : (d.getPart c.part).draining = false) (hf : d.imageFail c.part c.buffer = none) :
    imageLoadSpec.run c d = plan [] [] (fun d => d.loadImage c.part c.buffer) 0 0 := by
  simp [imageLoadSpec, Dev.ofPart, hp, hl, hr, hd, hf]

theorem imageLoadSpec_rejects {d : Dev} {c : MbxCmd} {f : ImgFail} (hp : c.part < 8) (hl : (d.getPart c.part).live = true)
    (hr : (d.getPart c.part).running = false) (hd : (d.getPart c.part).draining = false) (hf : d.imageFail c.part c.buffer = some f) :
    imageLoadSpec.run c d = .no f.reply := by
  simp [imageLoadSpec, ImgFail.reply, Dev.ofPart, hp, hl, hr, hd, hf]

theorem loadImage_part (d : Dev) (n : Nat) (img : List Byte) :
    ((d.loadImage n img).getPart n).job.state = 1 ∧ ((d.loadImage n img).getPart n).image = some (imageOf img (sections img)) := by
  simp [Dev.loadImage]

/-- Settles O34: the plan of each accepted command is what its row does, its effect is read off, and an image that fails leaves the units alone. -/
theorem partitionCommandResults : Obligations.PartitionCommandResults := by
  intro s c d n
  refine ⟨fun h hf => ?create, fun h hl hr hd => ?destroy, fun h hp hl hr hd => ?load, fun k hl h => ?fill⟩
  case create =>
    obtain ⟨t, hnext, hpart, hwaits, hothers⟩ := partitionCreate_completes h hf
    exact ⟨t, hnext, congrArg Part.live hpart, congrArg Part.halves hpart, congrArg Part.channels hpart, congrArg Part.rings hpart,
      congrArg Part.image hpart, congrArg Part.filling hpart, hwaits, hothers⟩
  case destroy =>
    exact completes_of_plan h rfl (fun a => partitionDestroySpec_accepts (d := d.cleared c.ring a) hl hr hd)
      fun a _ _ _ => freePart_frees (d.cleared c.ring a) n
  case load =>
    cases hf : d.imageFail c.part c.buffer with
    | none =>
      refine completes_of_plan h rfl (fun a => imageLoadSpec_accepts hp hl hr hd ((cleared_imageFail d c.ring a _ _).trans hf))
        fun _ _ _ _ => ?_
      simp only [settle_getPart, completed_getPart]
      exact ⟨fun _ => loadImage_part _ _ _, fun hfails => absurd rfl hfails⟩
    | some f =>
      exact completes_of_rejected h rfl (fun a => imageLoadSpec_rejects hp hl hr hd ((cleared_imageFail d c.ring a _ _).trans hf))
        fun _ _ _ => ⟨fun hpasses => (nomatch hpasses), fun _ => ⟨rfl, rfl, rfl, rfl, rfl, rfl⟩⟩
  case fill =>
    obtain ⟨t, hnext, hfilling, hregions, hzero⟩ := partitionFillDone_completes hl h
    exact ⟨t, hnext, hfilling, hregions, fun r hr a hlo hhi => hzero r hr a ⟨hlo, hhi⟩⟩

end Sys2Proof.Machine

/-! PROOFS. Pebble words and stream descriptors: what is packed reads back (R244 to R246, R270), then O56. -/

namespace Sys2Proof.Machine

/-- The lowest field of a packed word, as a decoder reads it before it knows the layout. -/
theorem packFields_mod_first {w v : Nat} {ws vs : List Nat} (h : fieldsFit (w :: ws) (v :: vs)) : packFields (w :: ws) (v :: vs) % 2 ^ w = v :=
  (List.cons.inj (unpackFields_packFields h)).1

@[simp] theorem b2n_beq_one (b : Bool) : (b2n b == 1) = b := by cases b <;> rfl

/-- An instruction word that fits comes back from its encoding: its low four bits are its class, which picks the layout (R244). -/
theorem decodeP_encodeP {w : PWord} (h : w.fits) : decodeP (encodeP w) = some w := by
  cases w with
  | sca s =>
    obtain ⟨hlo, hhi, hf⟩ := h
    have hcls : encodeP (.sca s) % 16 = s.cls := packFields_mod_first hf
    have hfields : unpackFields scaWidths (encodeP (.sca s)) = _ := unpackFields_packFields hf
    simp [decodeP, hcls, hfields, hlo, hhi]
  | vec v =>
    obtain ⟨hlo, hf⟩ := h
    have hcls : encodeP (.vec v) % 16 = v.cls := packFields_mod_first hf
    have hfields : unpackFields vecWidths (encodeP (.vec v)) = _ := unpackFields_packFields hf
    have hnot : ¬v.cls ≤ 5 := by omega
    simp [decodeP, hcls, hfields, hlo, hnot]

theorem encodeP_lt (w : PWord) : encodeP w < 2 ^ 64 := by
  cases w with
  | sca s => exact packFields_lt_word rfl _
  | vec v => exact packFields_lt_word rfl _

/-- A stream descriptor that fits comes back from its four words. `2 ^ 48` and `2 ^ 32` stay powers, as `packFields_mod` spells them. -/
theorem decodeSDesc_encodeSDesc {e : SDesc} (h : e.fits) : ∃ q0 q1 q2 q3, encodeSDesc e = [q0, q1, q2, q3] ∧ q0 < 2 ^ 64 ∧ q1 < 2 ^ 64
    ∧ q2 < 2 ^ 64 ∧ q3 < 2 ^ 64 ∧ decodeSDesc q0 q1 q2 q3 = some e := by
  obtain ⟨hrows, h0, h1, h2, h3⟩ := h
  refine ⟨_, _, _, _, rfl, packFields_lt_word rfl _, packFields_lt_word rfl _, packFields_lt_word rfl _, packFields_lt_word rfl _, ?_⟩
  simp [-Nat.reducePow, decodeSDesc, unpackFields_packFields h0, unpackFields_packFields h1, q2Widths, q3Widths, packFields_mod h2,
    packFields_mod h3, Nat.sub_add_cancel hrows]

/-- Settles O56: the class in the low bits picks the layout, and packed fields that fit read back. -/
theorem pebbleWordsRoundTrip : Obligations.PebbleWordsRoundTrip :=
  ⟨fun w hw => ⟨decodeP_encodeP hw, encodeP_lt w⟩, fun _ he => decodeSDesc_encodeSDesc he⟩

end Sys2Proof.Machine

/-! PROOFS. From the issue of a pebble instruction to its completion (R239, R240), then O1 to O6: what S.ALU, S.BR and the vector classes
write. -/

namespace Sys2Proof.Machine

/-! ## From the issue to the completion -/

/-- A scalar instruction that issues answers the device that its effect gives after the slot is taken. -/
theorem exec_of_issueS {i : Instr} {s : State} {p x cyc cls op : Nat} {w : SWord} {f : Nat → PCtx → SWord → Dev → Dev}
    (h : issues s p x cyc (.sca w) = true) (hc : w.cls = cls) (ho : w.op = op) (hi : exec i s = s.live (Dev.issueS · p x cyc cls op f)) :
    exec i s = .next { s with dev := settle (f (pebTime s p cyc) (pebCtx s p x cyc) w
      ((pebDev s p cyc).takeSlot p x (pebTime s p cyc) (.sca w))) } := by
  rw [hi, live_eq (pebRuns_live (issues_runs h)), issueS_eq h hc ho]

/-- A vector instruction that issues answers the device that its effect gives after the slot is taken. -/
theorem exec_of_issueV {i : Instr} {s : State} {p x cyc cls op : Nat} {w : VWord} {f : Nat → PCtx → VWord → Nat → Dev → Dev}
    (h : issues s p x cyc (.vec w) = true) (hc : w.cls = cls) (ho : w.op = op) (hi : exec i s = s.live (Dev.issueV · p x cyc cls op f)) :
    exec i s = .next { s with dev := settle (f (pebTime s p cyc) (pebCtx s p x cyc) w (pebExt s p x cyc)
      ((pebDev s p cyc).takeSlot p x (pebTime s p cyc) (.vec w))) } := by
  rw [hi, live_eq (pebRuns_live (issues_runs h)), issueV_eq h hc ho]

/-- An instruction whose effect changes its own context only completes within the frame, with that change of the context behind the word. -/
theorem completes_of_ctx {i : Instr} {s : State} {p x cyc : Nat} {w : PWord} {g : PCtx → PCtx} (E : PCtx → Prop)
    (hnext : exec i s = .next { s with dev := settle (((pebDev s p cyc).takeSlot p x (pebTime s p cyc) w).modPCtx (4 * p + x) g) })
    (hE : E (g ((pebCtx s p x cyc).past w))) : Completes i s (fun t => PebFrame s t p x cyc ∧ E (t.dev.getPCtx (4 * p + x))) :=
  ⟨_, hnext, pebFrame_of_ctx s p x cyc w g, (congrArg E (ctx_after s p x cyc w g)).mpr hE⟩

theorem settle_takeSlot (d : Dev) (p x t : Nat) (w : PWord) :
    settle (d.takeSlot p x t w) = settle { d with peb := (settle (d.takeSlot p x t w)).peb } := rfl

theorem settle_takeSlot_clusters (d : Dev) (p x t : Nat) (w : PWord) : (settle (d.takeSlot p x t w)).peb.clusters = d.peb.clusters := rfl

/-- The slot alone stays within the frame too. -/
theorem pebFrame_of_slot (s : State) (p x cyc : Nat) (w : PWord) :
    PebFrame s { s with dev := settle ((pebDev s p cyc).takeSlot p x (pebTime s p cyc) w) } p x cyc := by
  refine ⟨rfl, settle_takeSlot _ _ _ _ _, settle_takeSlot_clusters _ _ _ _ _, fun k hk => ?_, fun k hk => ?_⟩
  · simp [takeSlot_ctx_ne _ _ _ _ _ hk]
  · simp [takeSlot_pebble_ne _ _ _ _ _ hk]

theorem ctx_after_slot (s : State) (p x cyc : Nat) (w : PWord) :
    (settle ((pebDev s p cyc).takeSlot p x (pebTime s p cyc) w)).getPCtx (4 * p + x) = (pebCtx s p x cyc).past w := by
  simp [pebCtx]

/-- An instruction without an effect of its own completes behind the word. -/
theorem completes_of_slot {i : Instr} {s : State} {p x cyc : Nat} {w : PWord} (E : PCtx → Prop)
    (hnext : exec i s = .next { s with dev := settle ((pebDev s p cyc).takeSlot p x (pebTime s p cyc) w) })
    (hE : E ((pebCtx s p x cyc).past w)) : Completes i s (fun t => PebFrame s t p x cyc ∧ E (t.dev.getPCtx (4 * p + x))) :=
  ⟨_, hnext, pebFrame_of_slot s p x cyc w, (congrArg E (ctx_after_slot s p x cyc w)).mpr hE⟩

/-! ## S.ALU (R265, R266) -/

/-- An S.ALU operation on s[SA] and s[SB] + IMM32 writes its value to s[SD]. -/
theorem sAlu_writes {i : Instr} {s : State} {p x cyc op : Nat} {w : SWord} (f : Word64 → Word64 → Word64)
    (h : issues s p x cyc (.sca w) = true) (hc : w.cls = 1) (ho : w.op = op) (hi : exec i s = s.live (sAlu op p x cyc f)) :
    let c := pebCtx s p x cyc
    Completes i s (fun t => PebFrame s t p x cyc ∧ ScalarWritten c (.sca w) w.sd
      ⟨f (c.sreg w.sa).bits ((c.sreg w.sb).bits + BitVec.ofInt 64 (sgn 32 w.imm32)), (c.sreg w.sa).poison || (c.sreg w.sb).poison⟩
      (t.dev.getPCtx (4 * p + x))) := by
  intro c
  have hnext := exec_of_issueS h hc ho hi
  exact completes_of_ctx (ScalarWritten c (.sca w) w.sd _) hnext (setS_written c _ _ _ _)

/-- LUI replaces the high word of s[SD]. -/
theorem sLui_writes {s : State} {p x cyc : Nat} {w : SWord} (h : issues s p x cyc (.sca w) = true) (hc : w.cls = 1) (ho : w.op = 11) :
    let c := pebCtx s p x cyc
    Completes (.sLui p x cyc) s (fun t => PebFrame s t p x cyc ∧ ScalarWritten c (.sca w) w.sd
      ⟨BitVec.ofNat 64 ((c.sreg w.sd).bits.toNat % 2 ^ 32 + w.imm32 * 2 ^ 32), (c.sreg w.sd).poison⟩ (t.dev.getPCtx (4 * p + x))) := by
  intro c
  have hnext := exec_of_issueS (i := .sLui p x cyc) h hc ho rfl
  exact completes_of_ctx (ScalarWritten c (.sca w) w.sd _) hnext (setS_written c _ _ _ _)

/-- Settles O1: each operation is one function of the two operands, and LUI one of s[SD] and IMM32. -/
theorem scalarAluResults : Obligations.ScalarAluResults := by
  intro s p x cyc w h hc c a b writes
  exact ⟨fun ho => sAlu_writes (· + ·) h hc ho rfl, fun ho => sAlu_writes (· - ·) h hc ho rfl, fun ho => sAlu_writes (· &&& ·) h hc ho rfl,
    fun ho => sAlu_writes (· ||| ·) h hc ho rfl, fun ho => sAlu_writes (· ^^^ ·) h hc ho rfl,
    fun ho => sAlu_writes (fun a b => if 64 ≤ b.toNat then 0 else a <<< b.toNat) h hc ho rfl,
    fun ho => sAlu_writes (fun a b => if 64 ≤ b.toNat then 0 else a >>> b.toNat) h hc ho rfl,
    fun ho => sAlu_writes (fun a b => a.sshiftRight (min 63 b.toNat)) h hc ho rfl, fun ho => sAlu_writes (· * ·) h hc ho rfl,
    fun ho => sAlu_writes sMin64 h hc ho rfl, fun ho => sAlu_writes sMax64 h hc ho rfl, sLui_writes h hc⟩

/-! ## S.BR (R265, R266) -/

theorem branchTo_past (c : PCtx) (w : SWord) (t : Nat) :
    (c.past (.sca w)).branchTo c.pc t w = { c with pc := ((c.pc : Int) + sgn 32 w.imm32).toNat, wake := t + 3 } := rfl

theorem past_sca (c : PCtx) (w : SWord) : c.past (.sca w) = { c with pc := c.pc + 1 } := rfl

/-- A compare branch with sound operands goes to its target where its condition holds, and else behind itself. -/
theorem sBranch_goes {i : Instr} {s : State} {p x cyc op : Nat} {w : SWord} (f : Word64 → Word64 → Bool)
    (h : issues s p x cyc (.sca w) = true) (hc : w.cls = 2) (ha : ((pebCtx s p x cyc).sreg w.sa).poison = false)
    (hb : ((pebCtx s p x cyc).sreg w.sb).poison = false) (ho : w.op = op) (hi : exec i s = s.live (sBranch op p x cyc f)) :
    let c := pebCtx s p x cyc
    Completes i s (fun t => PebFrame s t p x cyc ∧ t.dev.getPCtx (4 * p + x)
      = (if f (c.sreg w.sa).bits (c.sreg w.sb).bits then { c with pc := ((c.pc : Int) + sgn 32 w.imm32).toNat, wake := pebTime s p cyc + 3 }
          else { c with pc := c.pc + 1 })) := by
  intro c
  have hnext := exec_of_issueS h hc ho hi
  dsimp only at hnext
  rw [if_neg (by simp [ha, hb])] at hnext
  by_cases hf : f (c.sreg w.sa).bits (c.sreg w.sb).bits = true
  · rw [if_pos hf] at hnext ⊢
    exact completes_of_ctx (· = { c with pc := ((c.pc : Int) + sgn 32 w.imm32).toNat, wake := pebTime s p cyc + 3 }) hnext (branchTo_past _ _ _)
  · rw [if_neg hf] at hnext ⊢
    exact completes_of_slot (· = { c with pc := c.pc + 1 }) hnext (past_sca _ _)

/-- J reads no operand, so its target is taken whatever they hold. -/
theorem sJ_goes {s : State} {p x cyc : Nat} {w : SWord} (h : issues s p x cyc (.sca w) = true) (hc : w.cls = 2) (ho : w.op = 8) :
    let c := pebCtx s p x cyc
    Completes (.sJ p x cyc) s (fun t => PebFrame s t p x cyc ∧ t.dev.getPCtx (4 * p + x)
      = { c with pc := ((c.pc : Int) + sgn 32 w.imm32).toNat, wake := pebTime s p cyc + 3 }) := by
  intro c
  have hnext := exec_of_issueS (i := .sJ p x cyc) h hc ho rfl
  exact completes_of_ctx (· = { c with pc := ((c.pc : Int) + sgn 32 w.imm32).toNat, wake := pebTime s p cyc + 3 }) hnext (branchTo_past _ _ _)

/-- Settles O2: J has no condition, and each other branch one comparison of two sound operands. -/
theorem scalarBranchResults : Obligations.ScalarBranchResults := by
  intro s p x cyc w h hc c a b goes
  refine ⟨sJ_goes h hc, fun ha hb => ?_⟩
  have heq : (a == b) = decide (a = b) := Bool.eq_iff_iff.2 (beq_iff_eq.trans decide_eq_true_iff.symm)
  have hne : (a != b) = decide (a ≠ b) := Bool.eq_iff_iff.2 (bne_iff_ne.trans decide_eq_true_iff.symm)
  exact ⟨fun ho => heq ▸ sBranch_goes (fun a b => a == b) h hc ha hb ho rfl,
    fun ho => hne ▸ sBranch_goes (fun a b => a != b) h hc ha hb ho rfl,
    fun ho => sBranch_goes (fun a b => decide (a.toInt < b.toInt)) h hc ha hb ho rfl,
    fun ho => sBranch_goes (fun a b => decide (b.toInt ≤ a.toInt)) h hc ha hb ho rfl,
    fun ho => sBranch_goes (fun a b => decide (a.toNat < b.toNat)) h hc ha hb ho rfl,
    fun ho => sBranch_goes (fun a b => decide (b.toNat ≤ a.toNat)) h hc ha hb ho rfl,
    fun ho => sBranch_goes fp32Less h hc ha hb ho rfl, fun ho => sBranch_goes fp32NotLess h hc ha hb ho rfl⟩

/-! ## V.ARITH and V.CMP (R252 to R254) -/

/-- A V.ARITH operation writes `vArith` of its word and operands. -/
theorem vArithOp_writes {i : Instr} {s : State} {p x cyc op : Nat} {w : VWord} (h : issues s p x cyc (.vec w) = true) (hc : w.cls = 8)
    (ho : w.op = op) (hi : exec i s = s.live (vArithOp op p x cyc)) :
    let c := pebCtx s p x cyc
    let r := vArith w (vOperands c w (pebExt s p x cyc)) c.lfsr
    Completes i s (fun t => PebFrame s t p x cyc ∧ VectorWritten c (.vec w) w.vd r.reg r.lfsr r.cnt (t.dev.getPCtx (4 * p + x))) :=
  have hnext := exec_of_issueV h hc ho hi
  completes_of_ctx (VectorWritten _ _ _ _ _ _) hnext (setV_written _ _ _ _ _ _ _)

/-- Settles O3: the sixteen operations share one meaning, which reads OP from the word. -/
theorem vectorArithResults : Obligations.VectorArithResults := by
  intro s p x cyc w h hc c r writes
  have arith {i : Instr} {op : Nat} (hi : exec i s = s.live (vArithOp op p x cyc)) (ho : w.op = op) : writes i := vArithOp_writes h hc ho hi
  exact ⟨arith rfl, arith rfl, arith rfl, arith rfl, arith rfl, arith rfl, arith rfl, arith rfl, arith rfl, arith rfl, arith rfl, arith rfl,
    arith rfl, arith rfl, arith rfl, arith rfl⟩

/-- Settles O4: the comparisons share one meaning and the operations on masks another; both write m[VD]. -/
theorem maskResults : Obligations.MaskResults := by
  intro s p x cyc w h hc c writes cmp logic
  have compares {i : Instr} {op : Nat} (hi : exec i s = s.live (vCompareOp op p x cyc)) (ho : w.op = op) : writes i cmp :=
    have hnext := exec_of_issueV h hc ho hi
    completes_of_ctx (MaskWritten _ _ _ _) hnext (setM_written _ _ _ _ _)
  have combines {i : Instr} {op : Nat} (hi : exec i s = s.live (vMaskOp op p x cyc)) (ho : w.op = op) : writes i logic :=
    have hnext := exec_of_issueV h hc ho hi
    completes_of_ctx (MaskWritten _ _ _ _) hnext (setM_written _ _ _ _ _)
  exact ⟨compares rfl, compares rfl, compares rfl, compares rfl, compares rfl, compares rfl, compares rfl, combines rfl, combines rfl,
    combines rfl, combines rfl⟩

/-! ## V.SF, V.RED, V.PERM and V.SUM (R255, R256, R262 to R264) -/

theorem setV_only (c : PCtx) (w : PWord) (i ready : Nat) (v : VReg) : VectorOnly c w i v ((c.past w).setV i ready v) := by
  refine ⟨rfl, by simp [PCtx.vreg, PCtx.setV], fun j hj => ?_⟩
  simp [PCtx.vreg, PCtx.setV, PCtx.past, tabGet_tabSet_ne _ _ hj]

/-- A class that draws no random bits leaves the LFSR (R260). -/
theorem setV_counted (c : PCtx) (w : PWord) (i ready : Nat) (v : VReg) (n : FpAdd) :
    VectorWritten c w i v c.lfsr n (((c.past w).setV i ready v).count n) := setV_written c w i ready v c.lfsr n

theorem vSpecialOp_writes {i : Instr} {s : State} {p x cyc op : Nat} {w : VWord} (h : issues s p x cyc (.vec w) = true) (hc : w.cls = 10)
    (ho : w.op = op) (hi : exec i s = s.live (vSpecialOp op p x cyc)) :
    let c := pebCtx s p x cyc
    let r := vSpecial w (vOperands c w (pebExt s p x cyc))
    Completes i s (fun t => PebFrame s t p x cyc ∧ VectorWritten c (.vec w) w.vd r.1 c.lfsr r.2 (t.dev.getPCtx (4 * p + x))) :=
  have hnext := exec_of_issueV h hc ho hi
  completes_of_ctx (VectorWritten _ _ _ _ _ _) hnext (setV_counted _ _ _ _ _ _)

theorem vReduceOp_writes {i : Instr} {s : State} {p x cyc op : Nat} {w : VWord} (h : issues s p x cyc (.vec w) = true) (hc : w.cls = 12)
    (ho : w.op = op) (hi : exec i s = s.live (vReduceOp op p x cyc)) :
    let c := pebCtx s p x cyc
    let r := vReduce w (vOperands c { w with imm := false } (pebExt s p x cyc))
    Completes i s (fun t => PebFrame s t p x cyc ∧ VectorWritten c (.vec w) w.vd r.1 c.lfsr r.2 (t.dev.getPCtx (4 * p + x))) :=
  have hnext := exec_of_issueV h hc ho hi
  completes_of_ctx (VectorWritten _ _ _ _ _ _) hnext (setV_counted _ _ _ _ _ _)

/-- SPLAT, SHUP, SHDN, SEL and SWAP2 write `vPerm` of their word and operands. -/
theorem vPermOp_writes {i : Instr} {s : State} {p x cyc op : Nat} {w : VWord} (h : issues s p x cyc (.vec w) = true) (hc : w.cls = 13)
    (ho : w.op = op) (hi : exec i s = s.live (vPermOp op p x cyc)) :
    let c := pebCtx s p x cyc
    let e := pebExt s p x cyc
    Completes i s (fun t => PebFrame s t p x cyc
      ∧ VectorOnly c (.vec w) w.vd (vPerm w e (vOperands c { w with imm := false } e)) (t.dev.getPCtx (4 * p + x))) :=
  have hnext := exec_of_issueV h hc ho hi
  completes_of_ctx (VectorOnly _ _ _ _) hnext (setV_only _ _ _ _ _)

theorem vPack5_writes {s : State} {p x cyc : Nat} {w : VWord} (h : issues s p x cyc (.vec w) = true) (hc : w.cls = 13) (ho : w.op = 5) :
    let c := pebCtx s p x cyc
    Completes (.vPack5 p x cyc) s (fun t => PebFrame s t p x cyc
      ∧ VectorOnly c (.vec w) w.vd (vPack5 (c.vreg w.va)) (t.dev.getPCtx (4 * p + x))) :=
  have hnext := exec_of_issueV (i := .vPack5 p x cyc) h hc ho rfl
  completes_of_ctx (VectorOnly _ _ _ _) hnext (setV_only _ _ _ _ _)

theorem vUnpack5_writes {s : State} {p x cyc : Nat} {w : VWord} (h : issues s p x cyc (.vec w) = true) (hc : w.cls = 13) (ho : w.op = 6) :
    let c := pebCtx s p x cyc
    let r := vUnpack5 w (vOperands c { w with imm := false } (pebExt s p x cyc))
    Completes (.vUnpack5 p x cyc) s (fun t => PebFrame s t p x cyc
      ∧ VectorWritten c (.vec w) w.vd r.1 c.lfsr ⟨0, 0, r.2⟩ (t.dev.getPCtx (4 * p + x))) :=
  have hnext := exec_of_issueV (i := .vUnpack5 p x cyc) h hc ho rfl
  completes_of_ctx (VectorWritten _ _ _ _ _ _) hnext (setV_counted _ _ _ _ _ _)

/-- ANY, ALL, COUNT and FIRST write `vSumMask` of their two masks. -/
theorem vSumOp_sets {i : Instr} {s : State} {p x cyc op : Nat} {w : VWord} (h : issues s p x cyc (.vec w) = true) (hc : w.cls = 15)
    (ho : w.op = op) (hi : exec i s = s.live (vSumOp op p x cyc)) :
    let c := pebCtx s p x cyc
    Completes i s (fun t => PebFrame s t p x cyc ∧ ScalarWritten c (.vec w) w.sd
      ⟨BitVec.ofNat 64 (vSumMask op w.type (c.mreg (w.va % 8)) (c.mreg w.mask)), false⟩ (t.dev.getPCtx (4 * p + x))) :=
  have hnext := exec_of_issueV h hc ho hi
  completes_of_ctx (ScalarWritten _ _ _ _) hnext (setS_written _ _ _ _ _)

theorem vSumMax_sets {s : State} {p x cyc : Nat} {w : VWord} (h : issues s p x cyc (.vec w) = true) (hc : w.cls = 15) (ho : w.op = 4) :
    let c := pebCtx s p x cyc
    Completes (.vSumMax p x cyc) s (fun t => PebFrame s t p x cyc ∧ ScalarWritten c (.vec w) w.sd
      ⟨BitVec.ofNat 64 (vSumMax w.type (c.vreg w.va) (c.mreg w.mask)), enabledPoison w.type (c.vreg w.va) (c.mreg w.mask)⟩
      (t.dev.getPCtx (4 * p + x))) :=
  have hnext := exec_of_issueV (i := .vSumMax p x cyc) h hc ho rfl
  completes_of_ctx (ScalarWritten _ _ _ _) hnext (setS_written _ _ _ _ _)

/-- Settles O5: one meaning for each class but V.PERM, whose PACK5 and UNPACK5 have their own, and V.SUM, whose MAX reads v[VA]. -/
theorem vectorOtherResults : Obligations.VectorOtherResults := by
  intro s p x cyc w h
  refine ⟨fun hc => ?special, fun hc => ?reduce, fun hc => ?permute, fun hc => ?sum⟩
  case special =>
    have special {i : Instr} {op : Nat} (hi : exec i s = s.live (vSpecialOp op p x cyc)) (ho : w.op = op) := vSpecialOp_writes h hc ho hi
    exact ⟨special rfl, special rfl, special rfl, special rfl⟩
  case reduce =>
    have reduce {i : Instr} {op : Nat} (hi : exec i s = s.live (vReduceOp op p x cyc)) (ho : w.op = op) := vReduceOp_writes h hc ho hi
    exact ⟨reduce rfl, reduce rfl, reduce rfl⟩
  case permute =>
    have permute {i : Instr} {op : Nat} (hi : exec i s = s.live (vPermOp op p x cyc)) (ho : w.op = op) := vPermOp_writes h hc ho hi
    exact ⟨permute rfl, permute rfl, permute rfl, permute rfl, permute rfl, vPack5_writes h hc, vUnpack5_writes h hc⟩
  case sum =>
    have sum {i : Instr} {op : Nat} (hi : exec i s = s.live (vSumOp op p x cyc)) (ho : w.op = op) := vSumOp_sets h hc ho hi
    exact ⟨sum rfl, sum rfl, sum rfl, sum rfl, vSumMax_sets h hc⟩

/-! ## V.CVT (R257 to R261) -/

@[simp] theorem setS_vreg (c : PCtx) (i ready j : Nat) (v : SReg) : (c.setS i ready v).vreg j = c.vreg j := by
  unfold PCtx.setS; split <;> rfl

theorem setS_sreg_same (c : PCtx) {i : Nat} (h : i ≠ 0) (ready : Nat) (v : SReg) : (c.setS i ready v).sreg i = v := by
  simp [PCtx.setS, PCtx.sreg, h]

theorem setS_sreg_ne (c : PCtx) {i j : Nat} (h : j ≠ i) (ready : Nat) (v : SReg) : (c.setS i ready v).sreg j = c.sreg j := by
  unfold PCtx.setS; split
  · rfl
  · simp [PCtx.sreg, tabGet_tabSet_ne _ _ h]

/-- The context after a vector result: v[VD], the LFSR and the counters. -/
def PCtx.resulted (c : PCtx) (w : VWord) (ready : Nat) (r : VRes) : PCtx := ({ c.setV w.vd ready r.reg with lfsr := r.lfsr } : PCtx).count r.cnt

/-- The context after the result of a V.CVT, which also writes s[SD] where it has target scales. -/
def PCtx.converted (c : PCtx) (w : VWord) (ready : Nat) (r : VRes × Option Nat) (poison : Bool) : PCtx :=
  match r.2 with
  | some b => (c.resulted w ready r.1).setS w.sd ready ⟨BitVec.ofNat 64 b, poison⟩
  | none => c.resulted w ready r.1

/-- A V.CVT that issues changes its context by its result; `poison` is that of the scales it writes. -/
theorem vCvt_next {s : State} {p x cyc : Nat} {w : VWord} (h : issues s p x cyc (.vec w) = true) (hc : w.cls = 11) (ho : w.op = 0) :
    let c := pebCtx s p x cyc
    let r := vConvert w ⟨cvtSrc c w, {}, {}, c.vreg w.vd, c.mreg w.mask⟩ (if w.imm then pebExt s p x cyc else (c.sreg w.sd).bits.toNat)
      (if w.imm then some (pebExt s p x cyc) else none) c.lfsr
    ∃ poison, exec (.vCvt p x cyc) s = .next { s with dev := settle (((pebDev s p cyc).takeSlot p x (pebTime s p cyc) (.vec w)).modPCtx (4 * p + x)
      (fun c => c.converted w (w.ready (pebTime s p cyc)) r poison)) } :=
  have hnext := exec_of_issueV (i := .vCvt p x cyc) h hc ho rfl
  ⟨_, hnext⟩

/-- What a V.CVT leaves of its context: the vector write as in the other classes, then the write of the scales. -/
theorem converted_written (c : PCtx) (w : VWord) (ready : Nat) (r : VRes × Option Nat) (poison : Bool) :
    let c' := (c.past (.vec w)).converted w ready r poison
    c' = { c.past (.vec w) with
        v := c'.v, vReady := c'.vReady, s := c'.s, sReady := c'.sReady, lfsr := r.1.lfsr, satCount := satAdd 24 c.satCount r.1.cnt.sat
        nanCount := satAdd 24 c.nanCount r.1.cnt.nan, tritInvalid := satAdd 16 c.tritInvalid r.1.cnt.trit }
    ∧ (c'.vreg w.vd).bits = r.1.reg.bits ∧ (∀ j, j ≠ w.vd → c'.vreg j = c.vreg j)
    ∧ (∀ b, r.2 = some b → w.sd ≠ 0 → (c'.sreg w.sd).bits = BitVec.ofNat 64 b) ∧ (∀ j, j ≠ w.sd ∨ r.2 = none → c'.sreg j = c.sreg j) := by
  obtain ⟨-, hvd, hv⟩ := setV_written c (.vec w) w.vd ready r.1.reg r.1.lfsr r.1.cnt
  obtain ⟨res, scales⟩ := r
  cases scales with
  | none => exact ⟨rfl, congrArg VReg.bits hvd, hv, fun _ hb => (nomatch (show none = some _ from hb)), fun _ _ => rfl⟩
  | some b =>
    refine ⟨?_, ?_, fun j hj => ?_, fun b' hb hsd => ?_, fun j hj => ?_⟩
    · simp only [PCtx.converted, PCtx.setS]; split <;> rfl
    · exact congrArg VReg.bits ((setS_vreg _ _ _ _ _).trans hvd)
    · exact (setS_vreg _ _ _ _ _).trans (hv j hj)
    · obtain rfl : b = b' := Option.some.inj hb
      exact congrArg SReg.bits (setS_sreg_same _ hsd _ _)
    · exact setS_sreg_ne _ (hj.resolve_right (by simp)) _ _

/-- Settles O6: a V.CVT is one result, written to v[VD] and, where it has target scales, to s[SD]. -/
theorem convertResult : Obligations.ConvertResult := by
  intro s p x cyc w h hc ho c r
  obtain ⟨poison, hnext⟩ := vCvt_next h hc ho
  exact ⟨_, hnext, pebFrame_of_ctx _ _ _ _ _ _, by simpa only [ctx_after] using converted_written _ _ _ _ _⟩

end Sys2Proof.Machine

/-! PROOFS. The memory instructions of a pebble (R267 to R269), then O7. -/

namespace Sys2Proof.Machine

/-! ## Accesses to cluster memory (R267 to R269) -/

theorem settle_access {d e : Dev} (h : settle e = settle { d with peb := e.peb }) (p : Nat) (a : MemAcc) :
    settle (e.access p a) = settle { d with peb := (e.access p a).peb } :=
  congrArg (fun e' : Dev => { e' with peb := (e.access p a).peb }) h

theorem mem_eq_of_settle {d e : Dev} (h : settle e = settle { d with peb := e.peb }) : e.mem = d.mem := by
  simpa using congrArg Dev.mem h

theorem getCluster_eq_of_clusters {d e : Dev} (h : e.peb.clusters = d.peb.clusters) (k : Nat) : e.getCluster k = d.getCluster k := by
  simp [Dev.getCluster, h]

/-- From one context to another no more has changed than the cycles from which results are usable. -/
def OnlyAwaits (c c' : PCtx) : Prop := c' = { c with sReady := c'.sReady, vReady := c'.vReady }

theorem onlyAwaits_refl (c : PCtx) : OnlyAwaits c c := rfl

theorem onlyAwaits_vector (c : PCtx) (r : List (Nat × Nat)) : OnlyAwaits c { c with vReady := r } := rfl

/-- s0 awaits nothing (R237). -/
theorem onlyAwaits_scalar (c : PCtx) (i : Nat) (r : List (Nat × Nat)) : OnlyAwaits c (if i = 0 then c else { c with sReady := r }) := by
  split <;> rfl

/-- A memory instruction has issued: `a` is among the claims of the pebble's cluster, and of registers and memory nothing has changed. -/
def MemoryClaims (i : Instr) (s : State) (p x cyc : Nat) (w : PWord) (a : MemAcc) : Prop :=
  let c := pebCtx s p x cyc
  let d := pebDev s p cyc
  Completes i s (fun t =>
    t.pending = s.pending ∧ t.dev = settle { d with peb := t.dev.peb }
    ∧ t.dev.getCluster (p / 8) = { d.getCluster (p / 8) with pend := insertAcc a (d.getCluster (p / 8)).pend }
    ∧ (∀ k, k ≠ p / 8 → t.dev.getCluster k = d.getCluster k) ∧ (∀ k, k ≠ 4 * p + x → t.dev.getPCtx k = d.getPCtx k)
    ∧ (∀ k, k ≠ p → t.dev.getPebble k = d.getPebble k)
    ∧ OnlyAwaits (c.past w) (t.dev.getPCtx (4 * p + x))
    ∧ ∀ a, t.dev.mem.byte a = d.mem.byte a)

/-- An access on a device within the frame joins the claims of the pebble's cluster; of its context only cycles of results may have changed. -/
theorem claims_of_access {i : Instr} {s : State} {p x cyc : Nat} {w : PWord} {e : Dev} {a : MemAcc} {c' : PCtx}
    (hnext : exec i s = .next { s with dev := settle (e.access p a) }) (he : PebFrame s { s with dev := settle e } p x cyc)
    (hctx : (settle e).getPCtx (4 * p + x) = c') (hc : OnlyAwaits ((pebCtx s p x cyc).past w) c') : MemoryClaims i s p x cyc w a := by
  obtain ⟨-, hdev, hclusters, hctxs, hpebbles⟩ := he
  have hcluster (k : Nat) : e.getCluster k = (pebDev s p cyc).getCluster k := getCluster_eq_of_clusters hclusters k
  refine ⟨_, hnext, rfl, settle_access hdev p a, ?_, fun k hk => ?_, fun k hk => ?_, fun k hk => ?_, ?_, fun b => ?_⟩
  · simp [hcluster]
  · simpa [access_getCluster_ne _ _ _ hk] using hcluster k
  · simpa using hctxs k hk
  · simpa using hpebbles k hk
  · rw [← hctx] at hc
    simpa using hc
  · simp [mem_eq_of_settle hdev]

/-- S.LD: s0 awaits nothing, any other s[SD] the grant. -/
theorem sLd_claims {s : State} {p x cyc : Nat} {w : SWord} (h : issues s p x cyc (.sca w) = true) (hc : w.cls = 3) (ho : w.op = 0) :
    let c := pebCtx s p x cyc
    let a := ((c.sreg w.sa).bits + BitVec.ofInt 64 (sgn 32 w.imm32)).toNat % 8388608
    MemoryClaims (.sLd p x cyc) s p x cyc (.sca w) ⟨4 * p + x, true, false, w.sd, a - a % 8, pebTime s p cyc, 0, false, 64, []⟩ := by
  have hnext := exec_of_issueS (i := .sLd p x cyc) h hc ho rfl
  exact claims_of_access hnext (pebFrame_of_ctx _ _ _ _ _ _) (ctx_after _ _ _ _ _ _) (onlyAwaits_scalar _ _ _)

theorem vLd_claims {s : State} {p x cyc : Nat} {w : VWord} (h : issues s p x cyc (.vec w) = true) (hc : w.cls = 14) (ho : w.op = 0) :
    let c := pebCtx s p x cyc
    let a := ((c.sreg w.sd).bits.toNat + unsgn 64 (sgn 32 (pebExt s p x cyc % 2 ^ 32))) % 8388608
    MemoryClaims (.vLd p x cyc) s p x cyc (.vec w)
      ⟨4 * p + x, true, true, w.vd, a - a % 64, pebTime s p cyc, c.mreg w.mask, w.mz, laneW w.type, []⟩ := by
  have hnext := exec_of_issueV (i := .vLd p x cyc) h hc ho rfl
  exact claims_of_access hnext (pebFrame_of_ctx _ _ _ _ _ _) (ctx_after _ _ _ _ _ _) (onlyAwaits_vector _ _)

theorem sSt_claims {s : State} {p x cyc : Nat} {w : SWord} (h : issues s p x cyc (.sca w) = true) (hc : w.cls = 3) (ho : w.op = 1) :
    let c := pebCtx s p x cyc
    let a := ((c.sreg w.sa).bits + BitVec.ofInt 64 (sgn 32 w.imm32)).toNat % 8388608
    let v := c.sreg w.sd
    MemoryClaims (.sSt p x cyc) s p x cyc (.sca w) ⟨4 * p + x, false, false, 0, a - a % 8, pebTime s p cyc, 0, false, 64,
      (natLe 8 v.bits.toNat).map (fun b => some ⟨b, v.poison⟩)⟩ := by
  have hnext := exec_of_issueS (i := .sSt p x cyc) h hc ho rfl
  exact claims_of_access hnext (pebFrame_of_slot _ _ _ _ _) (ctx_after_slot _ _ _ _ _) (onlyAwaits_refl _)

theorem vSt_claims {s : State} {p x cyc : Nat} {w : VWord} (h : issues s p x cyc (.vec w) = true) (hc : w.cls = 14) (ho : w.op = 1) :
    let c := pebCtx s p x cyc
    let a := ((c.sreg w.sd).bits.toNat + unsgn 64 (sgn 32 (pebExt s p x cyc % 2 ^ 32))) % 8388608
    MemoryClaims (.vSt p x cyc) s p x cyc (.vec w) ⟨4 * p + x, false, true, 0, a - a % 64, pebTime s p cyc, 0, false, 8, storeBytes c w⟩ := by
  have hnext := exec_of_issueV (i := .vSt p x cyc) h hc ho rfl
  exact claims_of_access hnext (pebFrame_of_slot _ _ _ _ _) (ctx_after_slot _ _ _ _ _) (onlyAwaits_refl _)

/-- Settles O7: each of the four puts its access on a device that has taken the slot, a load after its register awaits the grant. -/
theorem memoryAccessIssue : Obligations.MemoryAccessIssue := by
  intro s p x cyc w h
  refine ⟨fun i hw hc => ?_, fun i hw hc => ?_⟩
  · subst hw
    exact ⟨sLd_claims h hc, sSt_claims h hc⟩
  · subst hw
    exact ⟨vLd_claims h hc, vSt_claims h hc⟩

end Sys2Proof.Machine

/-! PROOFS. The instructions of S.SYNC (R241, R266, R322, R327, R334), then O8. -/

namespace Sys2Proof.Machine

/-! ## S.SYNC (R241, R266, R322, R327, R334) -/

@[simp] theorem registerWait_getPCtx (d : Dev) (tile id v n t k : Nat) (observe : Bool) :
    (d.registerWait tile id v n observe t).getPCtx k = d.getPCtx k := rfl

/-- The slot changes the pebbles only. -/
theorem takeSlot_shape (d : Dev) (p x t : Nat) (w : PWord) : ∃ q, d.takeSlot p x t w = { d with peb := q } := ⟨_, rfl⟩

/-- A wait that registers behind the slot changes the pebbles and the waiters. -/
theorem settle_registerWait (d : Dev) (p x t k tile id v n u : Nat) (w : PWord) (g : PCtx → PCtx) (observe : Bool) :
    let e := settle (((d.takeSlot p x t w).modPCtx k g).registerWait tile id v n observe u)
    e = settle { d with peb := e.peb, cairn.waiters := insertWaiter ⟨tile, id, mapIndex (d.mapEntry tile id v), v, n, observe,
      d.ctxLimit tile id, 0, some u⟩ d.cairn.waiters } := by
  obtain ⟨q, hq⟩ := takeSlot_shape d p x t w
  rw [hq]
  rfl

/-- WAITC and WAITO register their wait and park the context (R241, R322). -/
theorem sWait_waits {i : Instr} {s : State} {p x cyc op : Nat} {w : SWord} (h : issues s p x cyc (.sca w) = true) (hc : w.cls = 4)
    (ho : w.op = op) (hi : exec i s = s.live (sWait op p x cyc)) :
    let d := pebDev s p cyc
    let tile := tileOfCluster (p / 8)
    let id := 4 * (p % 8) + x
    Completes i s (fun t => t.pending = s.pending
      ∧ t.dev = settle { d with peb := t.dev.peb, cairn.waiters := insertWaiter ⟨tile, id, mapIndex (d.mapEntry tile id (fld w.imm32 0 10)),
          fld w.imm32 0 10, fld w.imm32 10 16, op == 1, d.ctxLimit tile id, 0, some (pebTime s p cyc)⟩ d.cairn.waiters }
      ∧ t.dev.getPCtx (4 * p + x) = { (pebCtx s p x cyc).past (.sca w) with state := 2, park := 1 }) := by
  have hnext := exec_of_issueS h hc ho hi
  exact ⟨_, hnext, rfl, settle_registerWait _ _ _ _ _ _ _ _ _ _ _ _ _, by simp [pebCtx]⟩

/-- A signal to a cairn of the own tile enters port 1 (R327). -/
theorem raiseSignal_own {d : Dev} {tile id v : Nat} (hr : mapRemote (d.mapEntry tile id v) = false)
    (ht : 16 * mapDie (d.mapEntry tile id v) + mapTile (d.mapEntry tile id v) = tile) (inc t : Nat) :
    d.raiseSignal tile id v inc t = { d with cairn.ops := d.cairn.ops ++
      [⟨t, tile, mapIndex (d.mapEntry tile id v), 1, id, 0, inc, endpointOf d.fab.selfDevice (dieOfTile tile) (unitOfTile tile)⟩] } := by
  have hown : (!mapRemote (d.mapEntry tile id v) && 16 * mapDie (d.mapEntry tile id v) + mapTile (d.mapEntry tile id v) == tile) = true := by
    simp [hr, ht]
  simp only [Dev.raiseSignal]
  exact if_pos hown

/-- The slot before a signal leaves maps and cairns. -/
theorem takeSlot_raiseSignal_own {d : Dev} {tile id v : Nat} (hr : mapRemote (d.mapEntry tile id v) = false)
    (ht : 16 * mapDie (d.mapEntry tile id v) + mapTile (d.mapEntry tile id v) = tile) (p x t inc u : Nat) (w : PWord) :
    (d.takeSlot p x t w).raiseSignal tile id v inc u = { d.takeSlot p x t w with cairn.ops := d.cairn.ops ++
      [⟨u, tile, mapIndex (d.mapEntry tile id v), 1, id, 0, inc, endpointOf d.fab.selfDevice (dieOfTile tile) (unitOfTile tile)⟩] } :=
  raiseSignal_own (d := d.takeSlot p x t w) hr ht inc u

theorem sSignal_gives {s : State} {p x cyc : Nat} {w : SWord} (h : issues s p x cyc (.sca w) = true) (hc : w.cls = 4) (ho : w.op = 2) :
    Gives (.sSignal p x cyc) s (((pebDev s p cyc).takeSlot p x (pebTime s p cyc) (.sca w)).raiseSignal (tileOfCluster (p / 8)) (4 * (p % 8) + x)
      (fld w.imm32 0 10) (fld w.imm32 10 8) (pebTime s p cyc + 2)) :=
  have hnext := exec_of_issueS (i := .sSignal p x cyc) h hc ho rfl
  hnext

theorem sSignal_gives_own {s : State} {p x cyc : Nat} {w : SWord} (h : issues s p x cyc (.sca w) = true) (hc : w.cls = 4) (ho : w.op = 2) :
    let d := pebDev s p cyc
    let u := pebTime s p cyc
    let tile := tileOfCluster (p / 8)
    let id := 4 * (p % 8) + x
    mapRemote (d.mapEntry tile id (fld w.imm32 0 10)) = false →
    16 * mapDie (d.mapEntry tile id (fld w.imm32 0 10)) + mapTile (d.mapEntry tile id (fld w.imm32 0 10)) = tile →
    Gives (.sSignal p x cyc) s { d.takeSlot p x u (.sca w) with cairn.ops := d.cairn.ops ++
      [⟨u + 2, tile, mapIndex (d.mapEntry tile id (fld w.imm32 0 10)), 1, id, 0, fld w.imm32 10 8,
        endpointOf d.fab.selfDevice (dieOfTile tile) (unitOfTile tile)⟩] } := by
  intro d u tile id hr ht
  have hgives := sSignal_gives h hc ho
  rwa [takeSlot_raiseSignal_own hr ht] at hgives

theorem sBarrier_gives {s : State} {p x cyc : Nat} {w : SWord} (h : issues s p x cyc (.sca w) = true) (hc : w.cls = 4) (ho : w.op = 3) :
    Gives (.sBarrier p x cyc) s ((((pebDev s p cyc).takeSlot p x (pebTime s p cyc) (.sca w)).modPCtx (4 * p + x)
      (fun c => { c with state := 2, park := 2 })).arrive (tileOfCluster (p / 8)) (4 * (p % 8) + x) (fld w.imm32 0 4) (w.imm32.testBit 4)
      (pebTime s p cyc)) :=
  have hnext := exec_of_issueS (i := .sBarrier p x cyc) h hc ho rfl
  hnext

@[simp] theorem takeSlot_pebQuiet (d : Dev) (p x t u : Nat) (w : PWord) : (d.takeSlot p x t w).pebQuiet p x u = d.pebQuiet p x u := by
  simp [Dev.pebQuiet, PCtx.past]

/-- FENCE parks unless the context is quiet (R266). -/
theorem fence_parks {s : State} {p x cyc : Nat} {w : SWord} (h : issues s p x cyc (.sca w) = true) (hc : w.cls = 4) (ho : w.op = 4) :
    let c := pebCtx s p x cyc
    Completes (.fence p x cyc) s (fun t => PebFrame s t p x cyc ∧ t.dev.getPCtx (4 * p + x)
      = (if (pebDev s p cyc).pebQuiet p x (pebTime s p cyc) then c.past (.sca w) else { c.past (.sca w) with state := 2, park := 3 })) := by
  intro c
  have hnext := exec_of_issueS (i := .fence p x cyc) h hc ho rfl
  simp only [takeSlot_pebQuiet] at hnext
  split
  · rw [if_pos ‹_›] at hnext
    exact completes_of_slot (· = c.past (.sca w)) hnext rfl
  · rw [if_neg ‹_›] at hnext
    exact completes_of_ctx (· = { c.past (.sca w) with state := 2, park := 3 }) hnext rfl

theorem sEnd_marks {s : State} {p x cyc : Nat} {w : SWord} (h : issues s p x cyc (.sca w) = true) (hc : w.cls = 4) (ho : w.op = 5) :
    Completes (.sEnd p x cyc) s (fun t => PebFrame s t p x cyc
      ∧ t.dev.getPCtx (4 * p + x) = { (pebCtx s p x cyc).past (.sca w) with endIssued := true }) := by
  have hnext := exec_of_issueS (i := .sEnd p x cyc) h hc ho rfl
  exact completes_of_ctx (· = _) hnext rfl

theorem sNop_passes {s : State} {p x cyc : Nat} {w : SWord} (h : issues s p x cyc (.sca w) = true) (hc : w.cls = 4) (ho : w.op = 6) :
    Completes (.sNop p x cyc) s (fun t => PebFrame s t p x cyc ∧ t.dev.getPCtx (4 * p + x) = (pebCtx s p x cyc).past (.sca w)) := by
  have hnext := exec_of_issueS (i := .sNop p x cyc) h hc ho rfl
  exact completes_of_slot (· = _) hnext rfl

/-- Settles O8: each instruction's effect is read off behind its slot, which leaves cairn maps, stores and streams as they were. -/
theorem pebbleSyncResults : Obligations.PebbleSyncResults := by
  intro s p x cyc w h hc
  exact ⟨fun ho => sWait_waits (op := 0) h hc ho rfl, fun ho => sWait_waits (op := 1) h hc ho rfl, sSignal_gives h hc,
    sSignal_gives_own h hc, sBarrier_gives h hc, fence_parks h hc, sEnd_marks h hc, sNop_passes h hc⟩

end Sys2Proof.Machine

/-! PROOFS. STREAM, the channels of a cluster and the end of a pebble's task (R241, R243, R270, R271), then O9. -/

namespace Sys2Proof.Machine

/-! ## STREAM (R266, R270) -/

/-- A change of a cluster and of the issuing context behind the slot: what it leaves, and the two as changed. -/
theorem settle_slot_cluster_ctx (d : Dev) (p x t k : Nat) (w : PWord) (f : Cluster → Cluster) (g : PCtx → PCtx) :
    let e := settle (((d.takeSlot p x t w).modCluster k f).modPCtx (4 * p + x) g)
    e = settle { d with peb := e.peb } ∧ e.getCluster k = f (d.getCluster k) ∧ e.getPCtx (4 * p + x) = g ((d.getPCtx (4 * p + x)).past w) := by
  refine ⟨?_, by simp, by simp⟩
  obtain ⟨q, hq⟩ := takeSlot_shape d p x t w
  rw [hq]
  rfl

/-- STREAM with a sound descriptor queues it in its channel with its effective addresses. -/
theorem stream_queues {s : State} {p x cyc : Nat} {w : SWord} {e : SDesc} (h : issues s p x cyc (.sca w) = true) (hc : w.cls = 5)
    (ho : w.op = 0) (hd : ((pebDev s p cyc).getCluster (p / 8)).desc (w.imm32 % 256) = some e)
    (herr : ((pebDev s p cyc).getCluster (p / 8)).descErr.contains (w.imm32 % 256) = false) :
    let c := pebCtx s p x cyc
    let d := pebDev s p cyc
    let ch := (d.getCluster (p / 8)).chan e.channel
    let j : StreamJob := ⟨4 * p + x, e, (e.cmemAddr + (c.sreg w.sa).bits.toNat) % 8388608, (e.dpa + (c.sreg w.sb).bits.toNat) % 2 ^ 64,
      pebTime s p cyc, none, 0, none, []⟩
    Completes (.stream p x cyc) s (fun t => t.pending = s.pending ∧ t.dev = settle { d with peb := t.dev.peb }
      ∧ t.dev.getCluster (p / 8) = (d.getCluster (p / 8)).setChan e.channel { ch with queue := ch.queue ++ [j] }
      ∧ t.dev.getPCtx (4 * p + x) = { c.past (.sca w) with streams := c.streams + 1 }) := by
  have hnext := exec_of_issueS (i := .stream p x cyc) h hc ho rfl
  simp only [takeSlot_getCluster, herr, hd, Bool.false_eq_true, if_false] at hnext
  exact ⟨_, hnext, rfl, settle_slot_cluster_ctx _ _ _ _ _ _ _ _⟩

/-! ## A pebble's own work and a cluster's channel work -/

theorem pebAt_eq {s : State} {p cyc : Nat} (h : pebRuns s p cyc = true) (f : Nat → Dev → Dev) :
    s.dev.fresh.pebAt p cyc f = f (pebTime s p cyc) (pebDev s p cyc) := by
  simp only [pebRuns, Bool.and_eq_true, decide_eq_true_eq] at h
  obtain ⟨⟨-, hw⟩, hc⟩ := h
  unfold Dev.pebAt
  exact if_pos ⟨hw, hc⟩

theorem clusterAt_eq {s : State} {k cyc : Nat} (hw : s.dev.working (halfOfUnit k) cyc = true)
    (hc : (s.dev.getCluster k).cur ≤ s.dev.now (halfOfUnit k) cyc) (f : Nat → Dev → Dev) :
    s.dev.fresh.clusterAt k cyc f = f (s.dev.now (halfOfUnit k) cyc) (s.dev.fresh.clusterRun k (s.dev.now (halfOfUnit k) cyc)) := by
  unfold Dev.clusterAt
  exact if_pos ⟨hw, hc⟩

/-- R241: a FENCE whose condition is met. -/
theorem fenceSatisfied_quiet {s : State} {p x cyc : Nat} (h : pebRuns s p cyc = true) (hs : (pebCtx s p x cyc).state = 2)
    (hp : (pebCtx s p x cyc).park = 3) (hq : (pebDev s p cyc).pebQuiet p x (pebTime s p cyc) = true) :
    fenceSatisfied p x cyc s.found = (pebDev s p cyc).modPCtx (4 * p + x) (fun c => { c with state := 1, park := 0, wake := pebTime s p cyc + 2 }) := by
  have hgate : ((pebCtx s p x cyc).state == 2 && (pebCtx s p x cyc).park == 3 && (pebDev s p cyc).pebQuiet p x (pebTime s p cyc)) = true := by
    simp [hs, hp, hq]
  unfold fenceSatisfied
  rw [pebAt_eq h]
  exact if_pos hgate

/-- R243: a context that has issued END, with everything of it resolved, ends its task. -/
theorem pebbleTaskFinish_done {s : State} {p x cyc : Nat} (h : pebRuns s p cyc = true) (hb : (pebCtx s p x cyc).bound = true)
    (hs : (pebCtx s p x cyc).state = 1) (hi : (pebCtx s p x cyc).endIssued = true) (he : (pebCtx s p x cyc).ended = false)
    (hr : (pebCtx s p x cyc).settled (pebTime s p cyc) = true) (hq : (pebDev s p cyc).pebQuiet p x (pebTime s p cyc) = true)
    (ho : (pebDev s p cyc).signalsOpen (tileOfCluster (p / 8)) (4 * (p % 8) + x) (pebTime s p cyc) = false) :
    pebbleTaskFinish p x cyc s.found = ((pebDev s p cyc).modPCtx (4 * p + x) (fun c => { c with state := 0, ended := true })).endIfDone
      ((pebDev s p cyc).holderNo (halfOfUnit (p / 8))) := by
  have hgate : ((pebCtx s p x cyc).bound && (pebCtx s p x cyc).state == 1 && (pebCtx s p x cyc).endIssued && !(pebCtx s p x cyc).ended
      && (pebCtx s p x cyc).settled (pebTime s p cyc) && (pebDev s p cyc).pebQuiet p x (pebTime s p cyc)
      && !(pebDev s p cyc).signalsOpen (tileOfCluster (p / 8)) (pebId p x) (pebTime s p cyc)) = true := by
    simp [hs, hb, hi, he, hr, hq, pebId, ho]
  unfold pebbleTaskFinish
  rw [pebAt_eq h]
  exact if_pos hgate

/-! ## The channels of a cluster (R271) -/

/-- A channel that is free takes the descriptor at the front of its queue from the cycle after its dispatch; a routed one sends its requests. -/
theorem streamDescStart_takes {d₀ d : Dev} {u k ch cyc : Nat} {j : StreamJob} {rest : List StreamJob} (hat : ∀ f, d₀.clusterAt k cyc f = f u d)
    (hrun : ((d.getCluster k).chan ch).run = none) (hqueue : ((d.getCluster k).chan ch).queue = j :: rest) (hlate : j.at_ < u)
    (hfree : ((d.getCluster k).chan ch).free ≤ u) :
    let e := d.modCluster k (fun c => c.setChan ch { (d.getCluster k).chan ch with run := some { j with started := some u }, queue := rest })
    streamDescStart k ch cyc d₀ = if ch = 2 then e.streamSend k cyc { j with started := some u } else e := by
  unfold streamDescStart
  rw [hat]
  simp only [hrun, hqueue, decide_eq_true hlate, decide_eq_true hfree, Bool.and_self, gate_true]

/-- A descriptor whose bytes have moved leaves its channel; its signal is raised where it did not ride on a WRITE (R327, R329). -/
theorem streamDescComplete_completes {d₀ d : Dev} {u k ch cyc : Nat} {j : StreamJob} (hat : ∀ f, d₀.clusterAt k cyc f = f u d)
    (hrun : ((d.getCluster k).chan ch).run = some j) (hmoved : if ch = 2 then j.tags = [] else ∃ v, j.done = some v ∧ v ≤ u) :
    let e := (d.modCluster k (fun c => c.setChan ch { (d.getCluster k).chan ch with run := none, free := u })).modPCtx j.ctx
      (fun c => { c with streams := c.streams - 1 })
    streamDescComplete k ch cyc d₀ = if j.desc.sigEn ∧ ¬(d.streamRides k j).isSome then
      e.raiseSignal (tileOfCluster k) (j.ctx % 32) j.desc.sigCairn j.desc.sigInc (u + 1) else e := by
  unfold streamDescComplete
  rw [hat]
  simp only [hrun]
  by_cases hch : ch = 2
  · rw [if_pos hch] at hmoved
    simp only [if_pos hch, hmoved, List.isEmpty_nil, gate_true]
  · rw [if_neg hch] at hmoved
    obtain ⟨v, hdone, hv⟩ := hmoved
    simp only [if_neg hch, hdone, decide_eq_true hv, gate_true]

/-- Settles O9: STREAM behind its slot; the other commands where their conditions open their gates. -/
theorem pebbleStreamAndTaskResults : Obligations.PebbleStreamAndTaskResults := by
  refine ⟨fun _ _ _ _ _ _ => stream_queues, fun s p x cyc h => ?own, fun s k ch cyc j hl hw hc => ?channel⟩
  case own =>
    have hl := pebRuns_live h
    exact ⟨fun hs hp hq => gives_of_live hl rfl (fenceSatisfied_quiet h hs hp hq),
      fun hb hs hi he hr hq ho => gives_of_live hl rfl (pebbleTaskFinish_done h hb hs hi he hr hq ho)⟩
  case channel =>
    have hat := clusterAt_eq hw hc
    refine ⟨fun rest hch hrun hqueue hlate hfree => gives_of_live hl rfl ?_, fun hch rest hrun hqueue hlate hfree => gives_of_live hl rfl ?_,
      fun hrun hmoved hsig => gives_of_live hl rfl ?_, fun hrun hmoved hsig hride => gives_of_live hl rfl ?_⟩
    · exact (streamDescStart_takes hat hrun hqueue hlate hfree).trans (if_neg (Nat.ne_of_lt hch))
    · subst hch
      exact (streamDescStart_takes hat hrun hqueue hlate hfree).trans (if_pos rfl)
    · exact (streamDescComplete_completes hat hrun hmoved).trans (if_neg fun hs => by simp [hsig] at hs)
    · exact (streamDescComplete_completes hat hrun hmoved).trans (if_pos ⟨hsig, by simp [hride]⟩)

end Sys2Proof.Machine

/-! PROOFS. Where a packet is delivered (R307, R331, R366, R369, R373), then O24. -/

namespace Sys2Proof.Machine

section
variable {d : Dev} {router cyc : Nat} {p : Packet}

/-- A packet whose kind, router and layout are as its delivery asks. -/
theorem deliverable_of {kind : Nat} (hk : p.kind = kind) (hr : routerOf p.dest = router) (hf : formatOk p = true) :
    deliverable kind router p = true := by
  simp [deliverable, hk, hr, hf]

/-- R307, R329, R369: a WRITE that its channel serves. -/
theorem write_delivered (h : deliverable 0 router p = true) (hw : d.hbmWaits (pAddr p) = false) (hp : d.fwdPacket p = false) :
    write router cyc p d =
      let w := (d.takeLocal router cyc p).writeMem (pAddr p) (pData p) .other
      (((if pSig p then w.signalAt p (d.now (halfOfRouter router) cyc + 1) else w).spread router cyc p).answerOk router cyc p 0 []).pumpLinks := by
  simp only [write, h, hw, hp, Bool.not_false, Bool.and_self, gate_true]

/-- R307, R366: a READ that its channel serves. -/
theorem read_delivered (h : deliverable 1 router p = true) (hw : d.hbmWaits (pAddr p) = false) :
    read router cyc p d =
      let r := (d.takeLocal router cyc p).readMem (pAddr p) (pBytes p)
      (r.2.answerOk router cyc p 0 r.1).pumpLinks := by
  simp only [read, h, hw, Bool.not_false, Bool.and_self, gate_true]

/-- R366: DATA that a request waits for. -/
theorem data_answers {r : Req} (h : deliverable 2 router p = true) (hr : (d.takeLocal router cyc p).requestOf p = some r) :
    data router cyc p d = ((d.takeLocal router cyc p).answered r (pData p) false).pumpLinks := by
  simp only [data, h, gate_true, hr]

/-- R367: DATA that no request waits for is counted as late. -/
theorem data_late (h : deliverable 2 router p = true) (hr : (d.takeLocal router cyc p).requestOf p = none) :
    data router cyc p d = ((d.takeLocal router cyc p).modDrop router (fun c => { c with late := satAdd 16 c.late 1 })).pumpLinks := by
  simp only [data, h, gate_true, hr]

/-- R366: an ACK that a request waits for. -/
theorem ack_answers {r : Req} (h : deliverable 3 router p = true) (hr : (d.takeLocal router cyc p).requestOf p = some r) :
    ack router cyc p d = (((d.takeLocal router cyc p).answered r [] false).forwardWrites cyc).pumpLinks := by
  simp only [ack, h, gate_true, hr]

/-- R328, R331: a SIGNAL at a tile with cairns. -/
theorem signal_delivered {c : Nat} (h : deliverable 4 router p = true) (hc : cairnOfUnit (epUnit p.dest) = some c) :
    signal router cyc p d =
      ((((d.takeLocal router cyc p).routedSignal (16 * epDie p.dest + c) (pSigIndex p) (pInc p) p.src (d.now (halfOfRouter router) cyc)).spread
        router cyc p).answerOk router cyc p (if (d.cairnOwner (16 * epDie p.dest + c) (pSigIndex p)).isSome then 0 else 2) []).pumpLinks := by
  simp only [signal, Dev.signalAt, h, gate_true, hc]

/-- R372, R373: a REDUCE that no node of its router holds is written at its DEST. -/
theorem reduce_delivered (h : deliverable 6 router p = true) (hn : d.nodeSlot router p = none) (hw : d.hbmWaits (pAddr p) = false) :
    reduce router cyc p d
      = (((d.takeLocal router cyc p).writeMem (pAddr p) (pData p) .other).answerOk router cyc p 0 []).pumpLinks := by
  simp only [reduce, hn, h, hw, Bool.not_false, Bool.and_self, gate_true]

end

/-- Settles O24: a packet of each kind opens its delivery's gate, and the effect behind it is read off. -/
theorem deliveryResults : Obligations.DeliveryResults := by
  intro s router cyc p hl hr hf
  have hdel : ∀ {kind}, p.kind = kind → deliverable kind router p = true := fun hk => deliverable_of hk hr hf
  exact ⟨fun hk hw hp => gives_of_live hl rfl (write_delivered (hdel hk) hw hp),
    fun hk hw => gives_of_live hl rfl (read_delivered (hdel hk) hw),
    fun _ hk hreq => gives_of_live hl rfl (data_answers (hdel hk) hreq),
    fun _ hk hreq => gives_of_live hl rfl (ack_answers (hdel hk) hreq),
    fun hk hreq => gives_of_live hl rfl (data_late (hdel hk) hreq),
    fun _ hk hc => gives_of_live hl rfl (signal_delivered (hdel hk) hc),
    fun hk hn hw => gives_of_live hl rfl (reduce_delivered (hdel hk) hn hw)⟩

end Sys2Proof.Machine

/-! PROOFS. HbmPcRetired in the register map of a die, and the map of retired pseudo-channels (R311), then O55. -/

namespace Sys2Proof.Machine

/-! ## A 64-bit register as two 32-bit words, and as the top of a wider one -/

theorem wordOf_halves (v k : Nat) : wordOf v (8 * k) + 2 ^ 32 * wordOf v (8 * k + 4) = v % 2 ^ 64 := by
  have hlow : 8 * k / 4 % 2 = 0 := by omega
  have hhigh : (8 * k + 4) / 4 % 2 = 1 := by omega
  simp only [wordOf, fld, hlow, hhigh, Nat.mul_zero, Nat.mul_one, Nat.shiftRight_eq_div_pow]
  omega

/-- The topmost field of a register stands above the others. -/
theorem bf_concat (l : List (Nat × Nat × Nat)) (lo w v : Nat) : bf (l ++ [(lo, w, v)]) = bf l + v % 2 ^ w * 2 ^ lo := by
  simp only [bf, List.foldl_append, List.foldl_cons, List.foldl_nil]

/-- CapHbmMap is the stack's map above 64 bits of other fields (R433). -/
theorem capHbmMap_eq (d : Dev) (k : Nat) : ∃ low < 2 ^ 64, d.capHbmMap k = low + (d.getStack k).pcRetired % 2 ^ 64 * 2 ^ 64 := by
  refine ⟨bf [(0, 1, b2n (d.caps.stackOn k)), (1, 1, b2n Config.stacksAre64), (2, 7, countLanes (d.getStack k).pcRetired 64)], ?_, by rw [← bf_concat]; rfl⟩
  simp only [bf, List.foldl]
  omega

/-- The retired pseudo-channels are bits 127 to 64 of CapHbmMap. -/
theorem capHbmMap_testBit (d : Dev) (k : Nat) {n : Nat} (hn : n < 64) :
    (d.capHbmMap k).testBit (64 + n) = (d.getStack k).pcRetired.testBit n := by
  obtain ⟨low, hlow, heq⟩ := capHbmMap_eq d k
  have htop : d.capHbmMap k / 2 ^ 64 = (d.getStack k).pcRetired % 2 ^ 64 := by
    rw [heq, Nat.add_mul_div_right _ _ (Nat.two_pow_pos 64), Nat.div_eq_of_lt hlow, Nat.zero_add]
  rw [Nat.add_comm, ← Nat.testBit_div_two_pow, htop, Nat.testBit_mod_two_pow, decide_eq_true hn, Bool.true_and]

/-! ## HbmPcRetired in the map (R311) -/

section
variable (d : Dev) (p : Nat) {o m : Nat}

theorem mmioWord_pcRetired (ho : o < 0x28) : d.mmioWord p (0x500200 + o) = wordOf (d.getStack (5 * p + o / 8)).pcRetired (0x200 + o) := by
  have hblk : (0x500200 + o) / 0x100000 = 5 := by omega
  have hoff : (0x500200 + o) % 0x100000 = 0x200 + o := by omega
  have hlo : ∀ b, b ≤ 0x200 → ¬ 0x200 + o < b := by omega
  have hhi : 0x200 + o < 0x228 := by omega
  simp [Dev.mmioWord, Dev.memoryWord, hblk, hoff, hlo, hhi]

theorem mmioRead_pcRetired (hm : m < 5) : d.mmioRead p (0x500200 + 8 * m) 8 = (d.getStack (5 * p + m)).pcRetired % 2 ^ 64 := by
  have hstack : 8 * m / 8 = m ∧ (8 * m + 4) / 8 = m := by omega
  have hwords := wordOf_halves (d.getStack (5 * p + m)).pcRetired (0x40 + m)
  rw [Dev.mmioRead, if_pos rfl, Nat.add_assoc, mmioWord_pcRetired d p (by omega), mmioWord_pcRetired d p (by omega), hstack.1, hstack.2, ← hwords,
    Nat.mul_add, Nat.add_assoc]

/-- No write changes a word of HbmPcRetired (R9, R311). -/
theorem mmioWrite32_pcRetired (ho : o < 0x28) (v : Nat) (w : Party) : d.mmioWrite32 p (0x500200 + o) v w = d := by
  have hblk : (0x500200 + o) / 0x100000 = 5 := by omega
  have hoff : ¬ (0x100 ≤ (0x500200 + o) % 0x100000 ∧ (0x500200 + o) % 0x100000 < 0x114) := by omega
  simp only [Dev.mmioWrite32, hblk, if_neg hoff, Nat.reduceEqDiff, if_false, if_true]

theorem mmioWrite_pcRetired (hm : m < 5) (size v : Nat) (w : Party) : d.mmioWrite p (0x500200 + 8 * m) size v w = d := by
  rw [Dev.mmioWrite, mmioWrite32_pcRetired d p (by omega), Nat.add_assoc, mmioWrite32_pcRetired d p (by omega), ite_self]

end

/-- Settles O55: the register's two words are the stack's map, which is the top half of CapHbmMap, and no write reaches them. -/
theorem retiredChannelsRegister : Obligations.RetiredChannelsRegister := by
  intro d p m n hm hn read
  have hread : read = (d.getStack (5 * p + m)).pcRetired % 2 ^ 64 := mmioRead_pcRetired d p hm
  have hbit : read.testBit n = (d.getStack (5 * p + m)).pcRetired.testBit n := by
    rw [hread, Nat.testBit_mod_two_pow, decide_eq_true hn, Bool.true_and]
  exact ⟨hbit, (capHbmMap_testBit d _ hn).trans hbit.symm, hread ▸ Nat.mod_lt _ (by decide), mmioRead_pcRetired Dev.reset p hm,
    mmioWrite_pcRetired d p hm⟩

end Sys2Proof.Machine

/-! PROOFS. What packets that leave a router change (R355, R359, R376, R393), and nothing else: the fields of the plane's queues, counters and links. -/

namespace Sys2Proof.Machine

/-- A device after packets have gone on: their queues, the counters of R376, the outputs' turns (R361), the links and the outputs have changed. -/
def SendsOn (d e : Dev) : Prop :=
  ∃ queue counts lastVc links out, e = { d with
    fab := { d.fab with queue := queue, counts := counts, lastVc := lastVc }
    links := links
    clock.out := out }

theorem SendsOn.refl (d : Dev) : SendsOn d d := ⟨d.fab.queue, d.fab.counts, d.fab.lastVc, d.links, d.clock.out, rfl⟩

theorem SendsOn.trans {d e f : Dev} (h : SendsOn d e) (h' : SendsOn e f) : SendsOn d f := by
  obtain ⟨_, _, _, _, _, rfl⟩ := h
  obtain ⟨queue, counts, lastVc, links, out, rfl⟩ := h'
  exact ⟨queue, counts, lastVc, links, out, rfl⟩

theorem SendsOn.wall {d e : Dev} (h : SendsOn d e) : e.clock.wall = d.clock.wall := by
  obtain ⟨_, _, _, _, _, rfl⟩ := h; rfl

/-- The routing tables (R356, R357, R372) and the change under way (R375) stay. -/
def SameRoutes (d e : Dev) : Prop :=
  e.fab.change = d.fab.change ∧ e.fab.device = d.fab.device ∧ e.fab.locals = d.fab.locals ∧ e.fab.reduce = d.fab.reduce

theorem SendsOn.sameRoutes {d e : Dev} (h : SendsOn d e) : SameRoutes d e := by
  obtain ⟨_, _, _, _, _, rfl⟩ := h; exact ⟨rfl, rfl, rfl, rfl⟩

theorem modLink_sendsOn (d : Dev) (e : Nat) (f : Link → Link) : SendsOn d (d.modLink e f) :=
  ⟨d.fab.queue, d.fab.counts, d.fab.lastVc, _, d.clock.out, rfl⟩

theorem freeBuffer_sendsOn (d : Dev) (router inPort vc n : Nat) : SendsOn d (d.freeBuffer router inPort vc n) := by
  unfold Dev.freeBuffer
  split
  · split
    · exact modLink_sendsOn _ _ _
    · exact .refl d
  · exact .refl d

theorem queue_sendsOn (d : Dev) (queue : List QPkt) : SendsOn d { d with fab.queue := queue } :=
  ⟨queue, d.fab.counts, d.fab.lastVc, d.links, d.clock.out, rfl⟩

theorem leave_sendsOn (d : Dev) (q : QPkt) (flits cyc : Nat) : SendsOn d (d.leave q flits cyc) := by
  have hfreed := (queue_sendsOn d (d.fab.queue.erase q)).trans (freeBuffer_sendsOn _ q.router q.inPort q.pkt.vc (q.pkt.len + 1))
  unfold Dev.leave
  dsimp only
  split
  · exact hfreed.trans ⟨_, _, _, _, _, rfl⟩
  · exact hfreed

theorem takeLocal_sendsOn (d : Dev) (r cyc : Nat) (p : Packet) : SendsOn d (d.takeLocal r cyc p) := by
  unfold Dev.takeLocal
  split
  · exact leave_sendsOn _ _ _ _
  · exact .refl d

theorem putFlit_sendsOn (d : Dev) (e slot : Nat) (vc : Option Nat) (head : Bool) (header : Nat) (payload : List Byte) :
    SendsOn d (d.putFlit e slot vc head header payload) :=
  ⟨d.fab.queue, d.fab.counts, d.fab.lastVc, _, _, rfl⟩

theorem sendPart_sendsOn (d : Dev) (e slot : Nat) (q : QPkt) : SendsOn d (d.sendPart e slot q) := by
  unfold Dev.sendPart
  dsimp only
  have hflit : ∀ vc head header payload f, SendsOn d ((d.putFlit e slot vc head header payload).modLink e f) :=
    fun _ _ _ _ _ => (putFlit_sendsOn _ _ _ _ _ _ _).trans (modLink_sendsOn _ _ _)
  split
  · exact (hflit _ _ _ _ _).trans (leave_sendsOn _ _ _ _)
  · exact (hflit _ _ _ _ _).trans (queue_sendsOn _ _)

/-- Whatever a slot takes by R394: a control flit, a flit sent again, the next flit of a packet, or an idle flit with credits. -/
theorem fillSlot_sendsOn {d e : Dev} {port slot : Nat} (h : d.fillSlot port slot = some e) : SendsOn d e := by
  unfold Dev.fillSlot at h
  dsimp only at h
  split at h
  case h_1 =>
    obtain rfl := Option.some.inj h
    exact (modLink_sendsOn _ _ _).trans (putFlit_sendsOn _ _ _ _ _ _ _)
  case h_2 =>
    obtain rfl := Option.some.inj h
    exact ⟨_, _, _, _, _, rfl⟩
  case h_3 =>
    split at h
    · obtain rfl := Option.some.inj h
      exact sendPart_sendsOn _ _ _ _
    · split at h
      · obtain rfl := Option.some.inj h
        exact putFlit_sendsOn _ _ _ _ _ _ _
      · cases h

theorem pumpEnd_sendsOn (d : Dev) (e fuel : Nat) : SendsOn d (d.pumpEnd e fuel) := by
  induction fuel generalizing d with
  | zero => exact .refl d
  | succ fuel ih =>
    unfold Dev.pumpEnd
    split
    · exact .refl d
    · split
      · exact .refl d
      · next hfill => exact (fillSlot_sendsOn hfill).trans (ih _)

theorem each_sendsOn {α : Type} {f : Dev → α → Dev} (h : ∀ d a, SendsOn d (f d a)) (l : List α) (d : Dev) : SendsOn d (Dev.each l f d) := by
  induction l generalizing d with
  | nil => exact .refl d
  | cons a l ih => exact (h d a).trans (ih _)

theorem pumpLinks_sendsOn (d : Dev) : SendsOn d d.pumpLinks := by
  refine each_sendsOn (fun d e => ?_) _ d
  split
  · exact pumpEnd_sendsOn _ _ _
  · exact .refl d

end Sys2Proof.Machine

/-! PROOFS. A REDUCE at a node (R372, R373), then O25. -/

namespace Sys2Proof.Machine

/-- The node of a TAG at an entry of a hub with a REDUCE in its slot (R373): the one that waits there, or a new one. -/
def Dev.nodeWith (d : Dev) (hub i k : Nat) (p : Packet) : RedNode :=
  let old := ((d.fab.nodes.filter (fun n => n.hub == hub && n.entry == i)).find? (fun n => n.tag == pTag p)).getD
    ⟨hub, i, pGroup p, pTag p, p.part, d.clock.wall, []⟩
  { old with slots := tabInsert k p old.slots }

/-- A REDUCE that its node takes (R372, R373): its TAG has not timed out, and at most one other TAG has filled its slot. -/
structure NodeTakes (d : Dev) (router : Nat) (p : Packet) (i k : Nat) : Prop where
  atSlot : d.nodeSlot router p = some (i, k)
  format : formatOk p = true
  tagOpen : d.fab.closedTags.contains (hubKey router, pGroup p, pTag p) = false
  slotFree : ((d.fab.nodes.filter (fun n => n.hub == hubKey router && n.entry == i)).filter
    (fun n => n.tag != pTag p && n.slots.any (fun s => s.1 == k))).length < 2

section
variable {d : Dev} {router cyc i k : Nat} {p : Packet}

/-- The REDUCE leaves its queue and fills its slot; then its node waits for another, or sends the sum. -/
theorem reduce_fills (h : NodeTakes d router p i k) :
    reduce router cyc p d =
      let a := d.takeLocal router cyc p
      let node := d.nodeWith (hubKey router) i k p
      let slots := node.slots.map (fun x => x.2)
      let others := a.fab.nodes.filter (fun n => !(n.hub == hubKey router && n.entry == i && n.tag == pTag p))
      if node.slots.length < a.reduceSlots (hubKey router) i then ({ a with fab.nodes := others ++ [node] } : Dev).pumpLinks
      else
        let e : Dev := { a with fab.nodes := others }
        ((if redMismatch slots then e.raise (evTilePoison (rDie router) (rUnit router) 7) else e).nodeSend router cyc node (redSum slots)).pumpLinks := by
  obtain ⟨hslot, hformat, hopen, hfree⟩ := h
  simp only [reduce, hslot, hopen, hformat, decide_eq_true hfree, Bool.and_self, gate_true, Bool.false_eq_true, if_false, Dev.nodeWith,
    (takeLocal_sendsOn d router cyc p).wall]
  rfl

theorem reduce_waits (h : NodeTakes d router p i k)
    (hw : (d.nodeWith (hubKey router) i k p).slots.length < (d.takeLocal router cyc p).reduceSlots (hubKey router) i) :
    reduce router cyc p d =
      let a := d.takeLocal router cyc p
      let others := a.fab.nodes.filter (fun n => !(n.hub == hubKey router && n.entry == i && n.tag == pTag p))
      ({ a with fab.nodes := others ++ [d.nodeWith (hubKey router) i k p] } : Dev).pumpLinks :=
  (reduce_fills h).trans (if_pos hw)

theorem reduce_sends (h : NodeTakes d router p i k)
    (hw : (d.takeLocal router cyc p).reduceSlots (hubKey router) i ≤ (d.nodeWith (hubKey router) i k p).slots.length)
    (hm : redMismatch ((d.nodeWith (hubKey router) i k p).slots.map (fun x => x.2)) = false) :
    reduce router cyc p d =
      let a := d.takeLocal router cyc p
      let node := d.nodeWith (hubKey router) i k p
      let others := a.fab.nodes.filter (fun n => !(n.hub == hubKey router && n.entry == i && n.tag == pTag p))
      (({ a with fab.nodes := others } : Dev).nodeSend router cyc node (redSum (node.slots.map (fun x => x.2)))).pumpLinks := by
  rw [reduce_fills h]
  simp only [if_neg (Nat.not_lt.2 hw), hm, Bool.false_eq_true, if_false]

end

/-- Settles O25: the node takes the REDUCE, and the count of its filled slots decides. -/
theorem reductionNodeResults : Obligations.ReductionNodeResults := by
  intro s router cyc p i k hl hslot hformat d hub a mine old node slots others hopen hfree
  have htakes : NodeTakes d router p i k := ⟨hslot, hformat, hopen, hfree⟩
  exact ⟨fun hw => gives_of_live hl rfl (reduce_waits htakes hw), fun hw hm => gives_of_live hl rfl (reduce_sends htakes hw hm)⟩

end Sys2Proof.Machine

/-! PROOFS. Packets at a router, and what times out there (R355, R360, R361, R367, R374), then O26. -/

namespace Sys2Proof.Machine

section
variable {d : Dev} {router port cyc : Nat} {p : Packet} {q : QPkt}

/-- R355: a packet at the router's own input is looked up. -/
theorem routedPacketArrive_input (hu : d.upstream router port p = some q) (ho : q.outPort = atInput) :
    routedPacketArrive router port cyc p d = (({ d with fab.queue := d.fab.queue.erase q } : Dev).arrivePkt router port cyc p).pumpLinks := by
  simp only [routedPacketArrive, hu, if_pos ho]

/-- R359, R361: a packet of the router before, granted by its output, leaves it. -/
theorem routedPacketArrive_granted (hu : d.upstream router port p = some q) (ho : q.outPort ≠ atInput)
    (hn : d.nextOf q.router q.outPort (fun v => decide (d.bufferUse router port v < 8)) = some q)
    (hs : d.seamOpen q.router q.outPort = true) :
    routedPacketArrive router port cyc p d = ((d.leave q (p.len + 1) cyc).arrivePkt router port cyc p).pumpLinks := by
  simp only [routedPacketArrive, hu, if_neg ho, hn, hs, beq_self_eq_true, Bool.and_self, gate_true]

/-- R360: a request of VC0 whose escape route ends at this router moves whole to VC3 with ESC. -/
theorem escapeTimer_toLocal
    (hq : d.fab.queue.find? (fun q => q.router == router && q.inPort == port && q.pkt.vc == 0 && decide (q.outPort < 128)) = some q)
    (hr : d.route router port { q.pkt with vc := 3, esc := true } = .out 0) (hs : q.sent = 0) (ha : 256 ≤ d.stampAge router q.since cyc) :
    escapeTimer router port 0 cyc d =
      let e := ({ d with fab.queue := d.fab.queue.erase q } : Dev).modPortCnt (countKey router q.outPort 0)
        (fun c => { c with depth := c.depth - (q.pkt.len + 1) })
      (((e.freeBuffer router port 0 (q.pkt.len + 1)).freeBuffer router port 3 (63 - q.pkt.len)).enqueue
        { q with outPort := 0, pkt := { q.pkt with vc := 3, esc := true } }).pumpLinks := by
  simp [escapeTimer, hq, hr, hs, ha]

/-- R367: a request whose answer is late: the event is raised, and the request is answered with poison. -/
theorem routedTimeout_due {tag : Nat} {r : Req}
    (hr : d.fab.requests.find? (fun r => r.tag == tag && d.due r.since (1000 * (d.getPartFab r.part).timeoutUs)
      && !d.fab.queue.any (fun q => q.outPort == atSource && q.pkt.src == r.src && pTag q.pkt == r.tag)) = some r) :
    routedTimeout tag d = ((d.raise { evTilePoison (epDie r.src) (epUnit r.src) 6 with
      endpoint := r.dest, addr := r.addr, partition := r.part }).answered r (poisonBytes (if r.kind = 1 then r.bytes else 0)) true).pumpLinks := by
  simp only [routedTimeout, hr]

/-- R374: a TAG with empty slots: its node sends poison, and the TAG is closed. -/
theorem reduceTagTimeout_due {hub group tag k : Nat} {n : RedNode} {rest : List (Nat × Packet)}
    (hn : d.fab.nodes.find? (fun n => n.hub == hub && n.group == group && n.tag == tag) = some n) (hs : n.slots = (k, p) :: rest)
    (hd : d.due n.since (1000 * (d.getPartFab n.part).timeoutUs) = true) :
    reduceTagTimeout hub group tag d =
      let r := 256 * (hub / 8) + unitHub (hub % 8)
      let e : Dev := { d with fab.nodes := d.fab.nodes.erase n, fab.closedTags := d.fab.closedTags ++ [(hub, group, tag)] }
      ((e.nodeSend r 0 n (poisonBytes (pBytes p))).raise (evTilePoison (rDie r) (rUnit r) 8)).pumpLinks := by
  simp only [reduceTagTimeout, hn, hs, hd, gate_true]

end

/-- Settles O26: each command finds its packet, request or node, and the effect behind its gate is read off. -/
theorem routedPlaneResults : Obligations.RoutedPlaneResults := by
  intro s hl
  exact ⟨fun _ _ _ _ _ hu ho => gives_of_live hl rfl (routedPacketArrive_input hu ho),
    fun _ _ _ _ _ hu ho hn hs => gives_of_live hl rfl (routedPacketArrive_granted hu ho hn hs),
    fun _ _ _ _ hq hr hs ha => gives_of_live hl rfl (escapeTimer_toLocal hq hr hs ha),
    fun _ _ hr => gives_of_live hl rfl (routedTimeout_due hr),
    fun _ _ _ _ _ _ _ hn hs hd => gives_of_live hl rfl (reduceTagTimeout_due hn hs hd)⟩

end Sys2Proof.Machine

/-! PROOFS. The end of a routing change (R375), then O31. -/

namespace Sys2Proof.Machine

/-! ## What the end of a change leaves of the plane -/

@[simp] theorem audit_fab (d : Dev) (role session opcode ring target : Nat) (old new : List Byte) :
    (d.audit role session opcode ring target old new).fab = d.fab := raise_fab _ _

/-- Everything that the completion of a command that waited changes: the outputs, the host port and the configuration store. -/
theorem completeLate_shape (d : Dev) (w : Waiting) (r : Reply) :
    ∃ o h f, d.completeLate w r = { d with clock.out := o, host := h, flash := f } := by
  unfold Dev.completeLate
  dsimp only
  obtain ⟨o, q, h⟩ := completeCmd_shape _ w.ring w.opcode w.tag w.headAfter w.irq w.audited false 0 r
  rw [h]
  split
  · exact ⟨_, _, _, rfl⟩
  · exact ⟨_, _, d.flash, rfl⟩

@[simp] theorem completeLate_fab (d : Dev) (w : Waiting) (r : Reply) : (d.completeLate w r).fab = d.fab := by
  obtain ⟨o, h, f, heq⟩ := completeLate_shape d w r
  rw [heq]

@[simp] theorem completeAll_fab (d : Dev) (pick : Waiting → Bool) (r : Waiting → Reply) : (d.completeAll pick r).fab = d.fab :=
  each_keeps (fun d => d.fab) _ (fun d w => completeLate_fab d w (r w)) _ d

/-! ## The entries of the device table (R356) -/

/-- The entries of a change, written one after another. -/
def Dev.setEntries (d : Dev) (x : RouteChange) : Dev :=
  Dev.each (upTo x.values.length) (fun d i => d.setEntry x.table x.sel (x.first + i) (x.values.getD i 0)) d

theorem setEntry_change (d : Dev) (t sel n v : Nat) : (d.setEntry t sel n v).fab.change = d.fab.change := by
  unfold Dev.setEntry
  split
  · rfl
  · split <;> rfl

theorem setEntries_change (d : Dev) (x : RouteChange) : (d.setEntries x).fab.change = d.fab.change :=
  each_keeps (fun d => d.fab.change) _ (fun _ _ => by exact setEntry_change _ _ _ _ _) _ d

theorem setEntry_routeDevice (d : Dev) (sel n v m : Nat) : (d.setEntry 0 sel n v).routeDevice m = if m = n then v else d.routeDevice m :=
  tabGet_tabSet 0 v n m d.fab.device

theorem each_setEntry_routeDevice (v : Nat → Nat) (d : Dev) (sel first count m : Nat) :
    (Dev.each (upTo count) (fun d i => d.setEntry 0 sel (first + i) (v i)) d).routeDevice m
      = if first ≤ m ∧ m < first + count then v (m - first) else d.routeDevice m := by
  induction count with
  | zero =>
    have hnone : ¬(first ≤ m ∧ m < first + 0) := by omega
    rw [if_neg hnone]; rfl
  | succ count ih =>
    have hlast : Dev.each (upTo (count + 1)) (fun d i => d.setEntry 0 sel (first + i) (v i)) d
        = (Dev.each (upTo count) (fun d i => d.setEntry 0 sel (first + i) (v i)) d).setEntry 0 sel (first + count) (v count) := by
      simp only [Dev.each, upTo, List.range_succ, List.foldl_append, List.foldl_cons, List.foldl_nil]
    rw [hlast, setEntry_routeDevice, ih]
    by_cases hm : m = first + count
    · have hin : first ≤ m ∧ m < first + (count + 1) := by omega
      have hsub : m - first = count := by omega
      rw [if_pos hm, if_pos hin, hsub]
    · have hsame : (first ≤ m ∧ m < first + (count + 1)) ↔ (first ≤ m ∧ m < first + count) := by omega
      simp only [if_neg hm, hsame]

/-- Every entry of a change of the device table reads its value, and the others are as they were. -/
theorem setEntries_routeDevice (d : Dev) {x : RouteChange} (ht : x.table = 0) (m : Nat) :
    (d.setEntries x).routeDevice m
      = if x.first ≤ m ∧ m < x.first + x.values.length then x.values.getD (m - x.first) 0 else d.routeDevice m := by
  rw [Dev.setEntries, ht]
  exact each_setEntry_routeDevice (fun i => x.values.getD i 0) d x.sel x.first x.values.length m

/-! ## ROUTE_TABLE_SET after its drain and after its timeout (R375) -/

section
variable {d : Dev} {x : RouteChange}

/-- With no packet held, what follows the tables of a change leaves them alone: the links go on, and the commands that waited complete. -/
theorem endChange_sameRoutes (d : Dev) (pick : Waiting → Bool) (r : Waiting → Reply) :
    SameRoutes d ((d.releaseHeld []).completeAll pick r) := by
  have hfab : ((d.releaseHeld []).completeAll pick r).fab = d.pumpLinks.fab := completeAll_fab _ _ _
  rw [SameRoutes, hfab]
  exact (pumpLinks_sendsOn d).sameRoutes

/-- The audit records of the commands that waited for a change, with the entries before and after it (R375, R455). -/
def Dev.auditChange (d : Dev) (x : RouteChange) : Dev :=
  let bytes := fun (vs : List Nat) => vs.flatMap (natLe (entryBytes x.table))
  let old := bytes (((upTo x.values.length).map (x.first + ·)).map (d.tableEntry x.table x.sel))
  Dev.each (d.host.waiting.filter (fun w => w.opcode == 0x0033)) (fun d w =>
    d.audit 1 w.session w.opcode w.ring (w.a0 % 2 ^ 32) old (bytes x.values)) d

theorem auditChange_fab (d : Dev) (x : RouteChange) : (d.auditChange x).fab = d.fab :=
  each_keeps (fun d => d.fab) _ (fun _ _ => by exact audit_fab _ _ _ _ _ _ _ _) _ d

/-- With no affected traffic left the change is audited and over, and its entries take force. -/
theorem routeDrainDone_drained (hc : d.fab.change = some x) (hleft : d.affectedLeft x = false) :
    routeDrainDone d = ((({ d.auditChange x with fab.change := none } : Dev).setEntries x).releaseHeld x.held).completeAll
      (fun w => w.opcode == 0x0033) (fun _ => {}) := by
  simp only [routeDrainDone, hc, hleft, Bool.not_false, gate_true]
  rfl

theorem routeDrainTimeout_due (hc : d.fab.change = some x) (hd : d.due x.since (1000 * x.drainUs) = true) :
    routeDrainTimeout d = (({ d with
      fab.change := none
      host.waiting := d.host.waiting.map (fun (w : Waiting) => if w.opcode = 0x0033 then { w with audited := false } else w) } : Dev).releaseHeld
        x.held).completeAll (fun w => w.opcode == 0x0033) (fun _ => { status := stTimeout }) := by
  simp only [routeDrainTimeout, hc, hd, gate_true]

theorem routeDrainDone_routes (hc : d.fab.change = some x) (hleft : d.affectedLeft x = false) (ht : x.table = 0) (hheld : x.held = []) :
    (routeDrainDone d).fab.change = none ∧ ∀ n, (routeDrainDone d).routeDevice n
      = if x.first ≤ n ∧ n < x.first + x.values.length then x.values.getD (n - x.first) 0 else d.routeDevice n := by
  rw [routeDrainDone_drained hc hleft, hheld]
  obtain ⟨hchange, hdevice, -, -⟩ := endChange_sameRoutes (({ d.auditChange x with fab.change := none } : Dev).setEntries x)
    (fun w => w.opcode == 0x0033) (fun _ => {})
  refine ⟨by rw [hchange, setEntries_change], fun n => ?_⟩
  have hbefore : ({ d.auditChange x with fab.change := none } : Dev).routeDevice n = d.routeDevice n := by
    simp only [Dev.routeDevice, auditChange_fab]
  rw [Dev.routeDevice, hdevice, ← Dev.routeDevice, setEntries_routeDevice _ ht, hbefore]

theorem routeDrainTimeout_routes (hc : d.fab.change = some x) (hd : d.due x.since (1000 * x.drainUs) = true) (hheld : x.held = []) :
    (routeDrainTimeout d).fab.change = none ∧ (routeDrainTimeout d).fab.device = d.fab.device
      ∧ (routeDrainTimeout d).fab.locals = d.fab.locals ∧ (routeDrainTimeout d).fab.reduce = d.fab.reduce := by
  rw [routeDrainTimeout_due hc hd, hheld]
  exact endChange_sameRoutes _ _ _

end

/-- Settles O31: the tables are in force, or as they were, before held packets and completions, which leave them alone. -/
theorem routeDrainResults : Obligations.RouteDrainResults := by
  intro s x hl hc
  refine ⟨fun hleft ht hheld => completes_of_live hl rfl ?_,
    fun hd hheld => completes_of_live hl rfl (routeDrainTimeout_routes (d := s.found) hc hd hheld)⟩
  obtain ⟨hchange, hread⟩ := routeDrainDone_routes (d := s.found) hc hleft ht hheld
  refine ⟨hchange, fun i hi => (hread _).trans ?_, fun n hn => (hread n).trans (if_neg (by omega))⟩
  rw [if_pos (by omega), Nat.add_sub_cancel_left]

end Sys2Proof.Machine

/-! PROOFS. The control ring (R363, R379, R549), then O52. -/

namespace Sys2Proof.Machine

/-! ## A message at a stop (R363, R549) -/

/-- The messages of one sender, stop and number in a die. -/
def ringMine (die src dest id : Nat) (m : RingMsg) : Bool := m.die == die && m.src == src && m.dest == dest && m.id == id

/-- The other messages on the rings. -/
def Dev.otherRingMsgs (d : Dev) (die src dest id : Nat) : List RingMsg := d.fab.ringMsgs.filter (fun m => !ringMine die src dest id m)

/-- How often a message has failed (R549). -/
def Dev.ringFails (d : Dev) (die src dest id : Nat) : Nat :=
  ((d.fab.ringMsgs.find? (ringMine die src dest id)).map (fun m => m.fails)).getD 0

theorem mem_otherRingMsgs {d : Dev} {die src dest id : Nat} {m : RingMsg} (hm : m ∈ d.fab.ringMsgs) (h : ringMine die src dest id m = false) :
    m ∈ d.otherRingMsgs die src dest id :=
  List.mem_filter.2 ⟨hm, by rw [h]; rfl⟩

theorem ringFails_of_find {d : Dev} {die src dest id n : Nat}
    (h : d.fab.ringMsgs.find? (ringMine die src dest id) = some ⟨die, src, dest, id, n⟩) : d.ringFails die src dest id = n := by
  rw [Dev.ringFails, h]; rfl

/-- R549: a message with an uncorrectable word is sent again, or the device resets. -/
theorem controlRingMessage_damaged (d : Dev) (die src dest id : Nat) :
    controlRingMessage die src dest id true d =
      if 2 ≤ d.ringFails die src dest id then d.selfReset 3 1
      else { d with fab.ringMsgs := d.otherRingMsgs die src dest id ++ [⟨die, src, dest, id, d.ringFails die src dest id + 1⟩] } := rfl

/-- R363: a sound message enters the queue of its stop, or circles and its lap is counted. -/
theorem controlRingMessage_sound (d : Dev) (die src dest id : Nat) :
    controlRingMessage die src dest id false d =
      let stop := 64 * die + dest
      if tabGet 0 stop d.fab.ringQueues < 8 then
        ({ d with
          fab.ringMsgs := d.otherRingMsgs die src dest id
          fab.ringQueues := tabSet 0 stop (tabGet 0 stop d.fab.ringQueues + 1) d.fab.ringQueues } : Dev).emit (.ringMsg die dest id)
      else { d with fab.laps := tabSet 0 die (satAdd 32 (tabGet 0 die d.fab.laps) 1) d.fab.laps } := rfl

/-- R553: a reset from the last rung of the ladder, whatever the attempt. -/
theorem selfReset_ladder (d : Dev) (attempt : Nat) :
    (d.selfReset 3 attempt).boot.phase = .selfReset ∧ (d.selfReset 3 attempt).boot.record.cause = 3 := by
  obtain ⟨c, hc⟩ := selfReset_eq d attempt
  rw [hc]
  exact ⟨rfl, rfl⟩

/-! ## ControlRingLaps (R363, R379) -/

section
variable (d : Dev) (p : Nat)

theorem mmioWord_ringLaps {off : Nat} (ho : off = 0x420 ∨ off = 0x424) :
    d.mmioWord p off = wordOf (min (tabGet 0 p d.fab.laps) 0xFFFFFFFF) off := by
  obtain rfl | rfl := ho
  · rfl
  · rfl

/-- The register reads the count of its die, at most 2³² − 1. -/
theorem mmioRead_ringLaps : d.mmioRead p 0x420 8 = min (tabGet 0 p d.fab.laps) 0xFFFFFFFF := by
  have hsmall : min (tabGet 0 p d.fab.laps) 0xFFFFFFFF < 2 ^ 64 := by omega
  rw [Dev.mmioRead, if_pos rfl, mmioWord_ringLaps d p (.inl rfl), mmioWord_ringLaps d p (off := 0x420 + 4) (.inr rfl)]
  exact (wordOf_halves _ 0x84).trans (Nat.mod_eq_of_lt hsmall)

theorem mmioWrite32_ringLaps {off : Nat} (ho : off = 0x420 ∨ off = 0x424) (v : Nat) (w : Party) : d.mmioWrite32 p off v w = d := by
  obtain rfl | rfl := ho
  · rfl
  · rfl

theorem mmioWrite_ringLaps (size v : Nat) (w : Party) : d.mmioWrite p 0x420 size v w = d := by
  rw [Dev.mmioWrite, mmioWrite32_ringLaps d p (.inl rfl), mmioWrite32_ringLaps d p (.inr rfl), ite_self]

end

theorem mmioRead_ringLaps_eq_of_laps {d e : Dev} {p : Nat} (h : tabGet 0 p e.fab.laps = tabGet 0 p d.fab.laps) :
    e.mmioRead p 0x420 8 = d.mmioRead p 0x420 8 := by
  rw [mmioRead_ringLaps, mmioRead_ringLaps, h]

/-- Settles O52: the message's four ways, and the register as the count of laps. -/
theorem controlRingMessages : Obligations.ControlRingMessages := by
  intro s die src dest id d queue mine laps hl
  refine ⟨fun n hm hn => completes_of_live hl rfl ?again, fun n hm hn => completes_of_live hl rfl ?reset,
    fun hq => completes_of_live hl rfl ?delivered, fun hq => completes_of_live hl rfl ?circles, fun p size v w => ?register⟩
  case again =>
    rw [controlRingMessage_damaged, ringFails_of_find hm, if_neg (Nat.not_le.2 hn)]
    exact ⟨List.mem_append_right _ List.mem_cons_self, fun m hin hother => List.mem_append_left _ (mem_otherRingMsgs hin hother), rfl, rfl⟩
  case reset =>
    rw [controlRingMessage_damaged, ringFails_of_find hm, if_pos hn]
    exact selfReset_ladder _ 1
  case delivered =>
    rw [controlRingMessage_sound, if_pos hq]
    exact ⟨rfl, tabGet_tabSet_same 0 (queue + 1) _ d.fab.ringQueues, fun m hin hother => mem_otherRingMsgs hin hother,
      fun p => mmioRead_ringLaps_eq_of_laps rfl⟩
  case circles =>
    rw [controlRingMessage_sound, if_neg (Nat.not_lt.2 hq)]
    refine ⟨rfl, ?_, fun p hp => mmioRead_ringLaps_eq_of_laps (tabGet_tabSet_ne _ _ hp _)⟩
    simp only [laps, d, mmioRead_ringLaps, settle_fab, tabGet_tabSet_same, satAdd]
    omega
  case register =>
    refine ⟨?_, mmioRead_ringLaps Dev.reset p, mmioWrite_ringLaps d p size v w⟩
    simp only [laps, mmioRead_ringLaps]
    omega

end Sys2Proof.Machine

/-! PROOFS. A step and the front of the queue, then O58; the 32 bytes of a completion entry (R446), then O53. -/

namespace Sys2Proof.Machine

/-! ## The front of the queue -/

/-- Settles O58: the laws of a step, and a word that no row of the table spells. -/
theorem stepRunsFront : Obligations.StepRunsFront := by
  refine ⟨fun s c rest h => step_front s c rest h, step_empty, fun _ _ _ => rfl, fun s c => ?_⟩
  obtain ⟨d, hd⟩ := exec_next c s
  exact ⟨_, (step_front _ c s.pending rfl).trans hd⟩

/-! ## Completion entries (R441, R446) -/

theorem length_natLe (n v : Nat) : (natLe n v).length = n := by
  induction n generalizing v with
  | zero => rfl
  | succ n ih => simp [natLe, ih]

/-- The n bytes of a number keep it modulo 2 ^ (8 n). -/
theorem leAt_natLe_append_mod (n v : Nat) (bs : List Byte) : leAt (natLe n v ++ bs) 0 n = v % 2 ^ (8 * n) := by
  induction n generalizing v with
  | zero => exact (Nat.mod_one v).symm
  | succ n ih =>
    have hrest : leNat ((natLe n (v / 256) ++ bs).take n) = v / 256 % 2 ^ (8 * n) := ih _
    calc leAt (natLe (n + 1) v ++ bs) 0 (n + 1)
        = v % 256 + 256 * leNat ((natLe n (v / 256) ++ bs).take n) := by simp [leAt, natLe, leNat]
      _ = v % 2 ^ (8 * (n + 1)) := by rw [hrest, Nat.mul_succ, Nat.pow_add, Nat.mul_comm (2 ^ _), Nat.mod_mul]

/-- What R446 says of the 32 bytes of an entry. -/
structure EntryFields (bs : List Byte) (op st flags tag head beat : Nat) (r : Reply) : Prop where
  length : bs.length = 32
  opcode : leAt bs 0 2 = op % 2 ^ 16
  status : leAt bs 2 1 = st % 2 ^ 8
  flags : leAt bs 3 1 = flags % 2 ^ 8
  tag : leAt bs 4 2 = tag % 2 ^ 16
  head : leAt bs 6 2 = head % 2 ^ 16
  r0 : leAt bs 8 8 = r.r0 % 2 ^ 64
  r1 : leAt bs 16 8 = r.r1 % 2 ^ 64
  detail : leAt bs 24 4 = r.detail % 2 ^ 32
  beat : leAt bs 28 4 = beat % 2 ^ 32

theorem cplEntry_fields (op st flags tag head beat : Nat) (r : Reply) :
    EntryFields (cplEntry op st flags tag head beat r) op st flags tag head beat r := by
  have last (v : Nat) : leAt (natLe 4 v) 0 4 = v % 2 ^ 32 := by simpa using leAt_natLe_append_mod 4 v []
  constructor <;> simp [cplEntry, length_natLe, leAt_natLe_append_ge, leAt_natLe_append_mod, last]

/-- An entry is written at CPL_TAIL of its ring, with the ring's phase. -/
theorem postEntry_writes (d : Dev) (ring opcode flags tag head : Nat) (irq : Bool) (r : Reply) :
    Out.hostWrite ((d.getRing ring).cplBase + 32 * (d.getRing ring).cplTail)
        (cplEntry opcode r.status (flags + b2n (d.getRing ring).phase) tag head d.beat.number r)
      ∈ (d.postEntry ring opcode flags tag head irq r).clock.out := by
  unfold Dev.postEntry
  dsimp only
  split <;> simp

/-- A ring that takes the completion of a command gets its entry (R441, R443). -/
theorem completeCmd_writes {d : Dev} {ring : Nat} (ht : (d.getRing ring).takes = true) (hd : (d.getRing ring).discard = false)
    (opcode tag head : Nat) (irq audited : Bool) (bufAddr : Nat) (r : Reply) :
    Out.hostWrite ((d.getRing ring).cplBase + 32 * (d.getRing ring).cplTail)
        (cplEntry opcode r.status (4 * b2n audited + b2n (d.getRing ring).phase) tag head d.beat.number r)
      ∈ (d.completeCmd ring opcode tag head irq audited false bufAddr r).clock.out := by
  unfold Dev.completeCmd Dev.ringDone
  dsimp only
  rw [if_neg (by simp [ht, hd]), if_neg Bool.false_ne_true, modRing_clock]
  split
  · exact postEntry_writes d ring opcode _ tag head irq r
  · exact postEntry_writes (d.emit (.hostWrite bufAddr r.out)) ring opcode _ tag head irq r

theorem finish_writes {d : Dev} {c : MbxCmd} (ht : (d.getRing c.ring).takes = true) (hd : (d.getRing c.ring).discard = false)
    (hc : c.cplFails = false) (audited : Bool) (r : Reply) :
    Out.hostWrite ((d.getRing c.ring).cplBase + 32 * (d.getRing c.ring).cplTail)
        (cplEntry c.opcode r.status (4 * b2n audited + b2n (d.getRing c.ring).phase) c.tag (d.getRing c.ring).head d.beat.number r)
      ∈ (d.finish c audited r).clock.out := by
  rw [Dev.finish, hc]
  exact completeCmd_writes ht hd ..

theorem completeLate_writes {d : Dev} {w : Waiting} (ht : (d.getRing w.ring).takes = true) (hd : (d.getRing w.ring).discard = false) (r : Reply) :
    Out.hostWrite ((d.getRing w.ring).cplBase + 32 * (d.getRing w.ring).cplTail)
        (cplEntry w.opcode r.status (4 * b2n w.audited + b2n (d.getRing w.ring).phase) w.tag w.headAfter d.beat.number r)
      ∈ (d.completeLate w r).clock.out := by
  have entry (e : Dev) (hr : e.host.rings = d.host.rings) (hb : e.beat = d.beat) :
      Out.hostWrite ((d.getRing w.ring).cplBase + 32 * (d.getRing w.ring).cplTail)
          (cplEntry w.opcode r.status (4 * b2n w.audited + b2n (d.getRing w.ring).phase) w.tag w.headAfter d.beat.number r)
        ∈ (e.completeCmd w.ring w.opcode w.tag w.headAfter w.irq w.audited false 0 r).clock.out := by
    have hq : e.getRing w.ring = d.getRing w.ring := congrArg (tabGet ({} : Ring) w.ring) hr
    rw [← hq] at ht hd ⊢
    rw [← hb]
    exact completeCmd_writes ht hd ..
  unfold Dev.completeLate
  dsimp only
  split
  · exact entry _ rfl rfl
  · exact entry _ rfl rfl

theorem b2n_add_flags (audited phase : Bool) : (4 * b2n audited + b2n phase) % 2 ^ 8 = b2n phase + 2 * b2n false + 4 * b2n audited := by
  cases audited <;> cases phase <;> rfl

/-- Settles O53: where each entry is written, and what its bytes read. -/
theorem completionEntryLayout : Obligations.CompletionEntryLayout := by
  unfold Obligations.CompletionEntryLayout
  intro entry d place
  have written (at_ op head : Nat) (aud : Bool) (ph : Bool) (tag : Nat) (r : Reply) :
      entry (.hostWrite at_ (cplEntry op r.status (4 * b2n aud + b2n ph) tag head d.beat.number r)) at_ op r.status tag head r.r0 r.r1 r.detail
        d.beat.number ph false aud := by
    obtain ⟨hlen, hop, hst, hflags, htag, hhead, h0, h1, hdet, hbeat⟩ :=
      cplEntry_fields op r.status (4 * b2n aud + b2n ph) tag head d.beat.number r
    exact ⟨_, rfl, hlen, hop, hst, hflags.trans (b2n_add_flags aud ph), htag, hhead, h0, h1, hdet, hbeat⟩
  refine ⟨fun c aud r ht hd hc => ⟨_, finish_writes ht hd hc aud r, written ..⟩,
    fun sp c aud => ⟨_, List.mem_append_right _ List.mem_cons_self, rfl, rfl, rfl, rfl, rfl⟩,
    fun w r ht hd => ⟨_, completeLate_writes ht hd r, written ..⟩, fun ring n a b => ⟨_, postEntry_writes .., ?_⟩⟩
  obtain ⟨hlen, hop, hst, hflags, htag, hhead, h0, h1, hdet, hbeat⟩ :=
    cplEntry_fields 0xFFFF 0 (2 + b2n (d.getRing ring).phase) 0 (d.getRing ring).head d.beat.number ({ r0 := a, r1 := b } : Reply)
  refine ⟨_, rfl, hlen, hop, hst, hflags.trans ?_, htag, hhead, h0, h1, hdet, hbeat⟩
  cases (d.getRing ring).phase <;> rfl

end Sys2Proof.Machine

/-! PROOFS. What sending leaves of a link, and what events leave beside the log; flits of a slot (R392, R395, R410, R414, R415), then O27. -/

namespace Sys2Proof.Machine

/-! ## Events that are limited to once per beat (R568) -/

/-- Everything that an event limited to once per beat can change. -/
theorem raiseOnce_shape (d : Dev) (ev : Ev) : ∃ c p h e m, d.raiseOnce ev =
    { d with clock.out := c, pins.alertN := p, host.evt := h, evt := e, mirror.err := m } := by
  unfold Dev.raiseOnce
  split
  · obtain ⟨m, hm⟩ := noteError_shape d ev
    rw [hm]
    exact ⟨d.clock.out, d.pins.alertN, d.host.evt, _, m, rfl⟩
  · exact raise_shape d ev

@[simp] theorem raiseOnce_links (d : Dev) (ev : Ev) : (d.raiseOnce ev).links = d.links := by
  obtain ⟨c, p, h, e, m, q⟩ := raiseOnce_shape d ev; rw [q]

@[simp] theorem raiseOnce_getLink (d : Dev) (ev : Ev) (n : Nat) : (d.raiseOnce ev).getLink n = d.getLink n :=
  congrArg (tabGet ({} : Link) n) (raiseOnce_links d ev)

@[simp] theorem linkPoison_getLink (d : Dev) (e cause n : Nat) : (d.linkPoison e cause).getLink n = d.getLink n := raiseOnce_getLink ..

/-! ## What sending leaves of a link (R393, R394, R395) -/

/-- What a link keeps of what it has received and agreed, whatever its routed slots send. -/
def Link.lasting (l : Link) : LinkRegs × Train × LinkSched × List OpenNak × List HeldFlit :=
  (l.regs, l.train, l.sched, l.routed.naks, l.routed.held)

theorem freeBuffer_lasting (d : Dev) (router inPort vc k n : Nat) :
    ((d.freeBuffer router inPort vc k).getLink n).lasting = (d.getLink n).lasting := by
  unfold Dev.freeBuffer
  split
  · split
    · exact modLink_keeps Link.lasting (fun _ => by rfl) d _ n
    · rfl
  · rfl

theorem leave_lasting (d : Dev) (q : QPkt) (flits cyc n : Nat) : ((d.leave q flits cyc).getLink n).lasting = (d.getLink n).lasting := by
  have hfreed := freeBuffer_lasting { d with fab.queue := d.fab.queue.erase q } q.router q.inPort q.pkt.vc (q.pkt.len + 1) n
  unfold Dev.leave
  dsimp only
  split
  · exact hfreed
  · exact hfreed

theorem putFlit_lasting (d : Dev) (e slot : Nat) (vc : Option Nat) (head : Bool) (header : Nat) (payload : List Byte) (n : Nat) :
    ((d.putFlit e slot vc head header payload).getLink n).lasting = (d.getLink n).lasting := by
  unfold Dev.putFlit
  rw [emit_getLink]
  exact modLink_keeps Link.lasting (fun _ => by rfl) d e n

theorem sendPart_lasting (d : Dev) (e slot : Nat) (q : QPkt) (n : Nat) : ((d.sendPart e slot q).getLink n).lasting = (d.getLink n).lasting := by
  have hflit (vc : Option Nat) (head : Bool) (header : Nat) (payload : List Byte) (c : Link → List (Nat × Nat)) :
      (((d.putFlit e slot vc head header payload).modLink e (fun l => { l with routed.credits := c l })).getLink n).lasting
        = (d.getLink n).lasting :=
    (modLink_keeps Link.lasting (fun _ => by rfl) _ e n).trans (putFlit_lasting ..)
  unfold Dev.sendPart
  dsimp only
  split
  · exact (leave_lasting ..).trans (hflit ..)
  · exact hflit (some q.pkt.vc) _ _ _ (fun l => tabSet 0 q.pkt.vc (tabGet 0 q.pkt.vc l.routed.credits + 1) l.routed.credits)

theorem fillSlot_lasting {d e : Dev} {port slot : Nat} (h : d.fillSlot port slot = some e) (n : Nat) :
    (e.getLink n).lasting = (d.getLink n).lasting := by
  unfold Dev.fillSlot at h
  dsimp only at h
  split at h
  case h_1 =>
    obtain rfl := Option.some.inj h
    exact (putFlit_lasting ..).trans (modLink_keeps Link.lasting (fun _ => by rfl) d port n)
  case h_2 =>
    obtain rfl := Option.some.inj h
    rw [emit_getLink]
    exact modLink_keeps Link.lasting (fun _ => by rfl) d port n
  case h_3 =>
    split at h
    · obtain rfl := Option.some.inj h
      exact sendPart_lasting ..
    · split at h
      · obtain rfl := Option.some.inj h
        exact putFlit_lasting ..
      · cases h

theorem pumpEnd_lasting (d : Dev) (e fuel n : Nat) : ((d.pumpEnd e fuel).getLink n).lasting = (d.getLink n).lasting := by
  induction fuel generalizing d with
  | zero => rfl
  | succ fuel ih =>
    unfold Dev.pumpEnd
    split
    · rfl
    · split
      · rfl
      · next hfill => exact (ih _).trans (fillSlot_lasting hfill n)

/-- However far the routed slots go, they leave what was received and agreed. -/
theorem pumpLinks_lasting (d : Dev) (n : Nat) : (d.pumpLinks.getLink n).lasting = (d.getLink n).lasting := by
  refine each_keeps (fun d => (d.getLink n).lasting) _ (fun d e => ?_) _ d
  split
  · exact pumpEnd_lasting ..
  · rfl

theorem Link.lasting_inj {l m : Link} (h : l.lasting = m.lasting) :
    l.regs = m.regs ∧ l.train = m.train ∧ l.sched = m.sched ∧ l.routed.naks = m.routed.naks ∧ l.routed.held = m.routed.held := by
  simpa [Link.lasting] using h

theorem pumpLinks_regs (d : Dev) (n : Nat) : (d.pumpLinks.getLink n).regs = (d.getLink n).regs :=
  (Link.lasting_inj (pumpLinks_lasting d n)).1

theorem pumpLinks_train (d : Dev) (n : Nat) : (d.pumpLinks.getLink n).train = (d.getLink n).train :=
  (Link.lasting_inj (pumpLinks_lasting d n)).2.1

theorem pumpLinks_sched (d : Dev) (n : Nat) : (d.pumpLinks.getLink n).sched = (d.getLink n).sched :=
  (Link.lasting_inj (pumpLinks_lasting d n)).2.2.1

theorem pumpLinks_naks (d : Dev) (n : Nat) : (d.pumpLinks.getLink n).routed.naks = (d.getLink n).routed.naks :=
  (Link.lasting_inj (pumpLinks_lasting d n)).2.2.2.1

theorem pumpLinks_held (d : Dev) (n : Nat) : (d.pumpLinks.getLink n).routed.held = (d.getLink n).routed.held :=
  (Link.lasting_inj (pumpLinks_lasting d n)).2.2.2.2

theorem sendCtrl_lasting (d : Dev) (e : Nat) (payload : List Byte) (n : Nat) : ((d.sendCtrl e payload).getLink n).lasting = (d.getLink n).lasting :=
  modLink_keeps Link.lasting (fun _ => by rfl) d e n

/-! ## What retraining leaves of a link (R409) -/

theorem retrain_keeps {β : Type} (g : Link → β) (hmate : ∀ l v, g { l with regs.mateOk := v } = g l)
    (hcause : ∀ l v, g { l with regs.lastCause := v } = g l)
    (hbegin : ∀ (l : Link) t a, g { l with regs.state := 2, regs.width := 0, regs.attempt := a, train := t } = g l)
    (d : Dev) (m cause n : Nat) : g ((d.retrain m cause).getLink n) = g (d.getLink n) := by
  unfold Dev.retrain
  split
  · exact (mateCheck_keeps g hmate _ n).trans
      ((modLink_keeps g (fun l => hbegin l _ _) _ m n).trans (modLink_keeps g (fun l => hcause l cause) d m n))
  · rfl

theorem mateCheck_sendsOn (d : Dev) : SendsOn d d.mateCheck := by
  refine each_sendsOn (fun d n => ?_) _ d
  dsimp only
  split
  · exact .refl d
  · exact modLink_sendsOn ..

theorem retrain_sendsOn (d : Dev) (m cause : Nat) : SendsOn d (d.retrain m cause) := by
  unfold Dev.retrain
  split
  · exact ((modLink_sendsOn ..).trans (modLink_sendsOn ..)).trans (mateCheck_sendsOn _)
  · exact .refl d

/-! ## Before a slot handles its flit (R337, R387, R393, R409) -/

/-- What decides whether a link end's slot is a scheduled one (R411, R412) stays: its allotment, the partitions and the beat. -/
structure SameSlots (d e : Dev) (port : Nat) : Prop where
  sched : (e.getLink port).sched = (d.getLink port).sched
  parts : e.parts = d.parts
  beat : e.beat = d.beat
  wall : e.clock.wall = d.clock.wall

variable {d e : Dev} {port : Nat}

theorem SameSlots.refl (d : Dev) (port : Nat) : SameSlots d d port := ⟨rfl, rfl, rfl, rfl⟩

theorem SameSlots.trans {f : Dev} (h : SameSlots d e port) (h' : SameSlots e f port) : SameSlots d f port :=
  ⟨h'.sched.trans h.sched, h'.parts.trans h.parts, h'.beat.trans h.beat, h'.wall.trans h.wall⟩

theorem SameSlots.schedSlot (h : SameSlots d e port) (dir slot : Nat) : e.schedSlot port dir slot = d.schedSlot port dir slot := by
  unfold Dev.schedSlot Dev.heldNow
  rw [h.sched, h.beat]
  simp only [getPart_eq_of_parts h.parts]

theorem SameSlots.allotBeat (h : SameSlots d e port) : e.allotBeat port = d.allotBeat port := by
  unfold Dev.allotBeat
  rw [h.sched, getPart_eq_of_parts h.parts]

theorem modLink_sameSlots (d : Dev) (k : Nat) {f : Link → Link} (h : ∀ l, (f l).sched = l.sched) (port : Nat) :
    SameSlots d (d.modLink k f) port :=
  ⟨modLink_keeps Link.sched h d k port, rfl, rfl, rfl⟩

theorem badBeat_sameSlots (d : Dev) (m port : Nat) : SameSlots d (d.badBeat m) port := by
  have hbeats (f : Link → List Nat) := modLink_sameSlots d m (f := fun l => { l with routed.badBeats := f l }) (fun _ => rfl) port
  unfold Dev.badBeat
  dsimp only
  split
  · refine (hbeats _).trans ⟨?_, ?_, ?_, (retrain_sendsOn _ _ _).wall⟩
    · exact retrain_keeps Link.sched (fun _ _ => rfl) (fun _ _ => rfl) (fun _ _ _ => rfl) _ _ _ _
    all_goals obtain ⟨_, _, _, _, _, h⟩ := retrain_sendsOn (d.modLink m _) (linkReg m) 2; rw [h]
  · exact hbeats _

/-- A bad beat leaves CRC_FAIL and the open NAKs as they were. -/
theorem badBeat_keeps {β : Type} (g : Link → β) (hmate : ∀ l v, g { l with regs.mateOk := v } = g l)
    (hcause : ∀ l v, g { l with regs.lastCause := v } = g l)
    (hbegin : ∀ (l : Link) t a, g { l with regs.state := 2, regs.width := 0, regs.attempt := a, train := t } = g l)
    (hbeats : ∀ l v, g { l with routed.badBeats := v } = g l) (d : Dev) (m n : Nat) : g ((d.badBeat m).getLink n) = g (d.getLink n) := by
  unfold Dev.badBeat
  dsimp only
  split
  · exact (retrain_keeps g hmate hcause hbegin _ _ _ n).trans (modLink_keeps g (fun l => hbeats l _) d m n)
  · exact modLink_keeps g (fun l => hbeats l _) d m n

theorem each_sameSlots {α : Type} {f : Dev → α → Dev} (h : ∀ d a, SameSlots d (f d a) port) (l : List α) (d : Dev) :
    SameSlots d (Dev.each l f d) port := by
  induction l generalizing d with
  | nil => exact .refl d port
  | cons a l ih => exact (h d a).trans (ih _)

theorem recvSync_sameSlots (d : Dev) (m v port : Nat) : SameSlots d (d.recvSync m v) port := by
  refine each_sameSlots (fun d ch => ?_) _ d
  dsimp only
  split
  · exact ⟨rfl, rfl, rfl, rfl⟩
  · exact .refl d port

theorem takeCredits_sameSlots (d : Dev) (m h port : Nat) : SameSlots d (d.takeCredits m h) port :=
  each_sameSlots (fun d _ => modLink_sameSlots d m (fun _ => by rfl) port) _ d

/-! ## The flit of a slot (R392) -/

/-- FEC_CORRECTED counts a flit that its code has mended. -/
def Dev.countFixed (d : Dev) (port : Nat) (fixed : Bool) : Dev :=
  if fixed then d.modLink (linkReg port) (fun l => { l with regs.fecCorrected := satAdd 32 l.regs.fecCorrected 1 }) else d

/-- What a good flit's header brings before its slot takes it: the sync field of a vein port, and credits. -/
def Dev.readHeader (d : Dev) (port : Nat) (f : List Byte) : Dev :=
  let e := if port < 16 then d.recvSync port (hSync (flitHeader f)) else d
  if hKind (flitHeader f) = 7 then e.takeCredits port (flitHeader f) else e

theorem countFixed_keeps {β : Type} (g : Link → β) (h : ∀ l v, g { l with regs.fecCorrected := v } = g l) (d : Dev) (port : Nat) (fixed : Bool)
    (n : Nat) : g ((d.countFixed port fixed).getLink n) = g (d.getLink n) := by
  unfold Dev.countFixed
  split
  · exact modLink_keeps g (fun l => h l _) d _ n
  · rfl

theorem countFixed_sameSlots (d : Dev) (m : Nat) (fixed : Bool) (port : Nat) : SameSlots d (d.countFixed m fixed) port := by
  unfold Dev.countFixed
  split
  · exact modLink_sameSlots d _ (fun _ => by rfl) port
  · exact .refl d port

theorem readHeader_sameSlots (d : Dev) (m : Nat) (f : List Byte) (port : Nat) : SameSlots d (d.readHeader m f) port := by
  have hsync : SameSlots d (if m < 16 then d.recvSync m (hSync (flitHeader f)) else d) port := by
    split
    · exact recvSync_sameSlots ..
    · exact .refl d port
  unfold Dev.readHeader
  dsimp only
  split
  · exact hsync.trans (takeCredits_sameSlots ..)
  · exact hsync

variable {slot : Nat} {bytes : List Byte} {fixed : Bool}

theorem flitReceive_bad (hup : d.linkUp port = true) (hlen : bytes.length = 272) (hr : readFlit bytes = (none, fixed)) (hs : 8 ≤ slot)
    (hslot : d.schedSlot port (rxDir port) slot = false) :
    flitReceive port slot bytes d = (((d.countFixed port fixed).badBeat port).badRouted port slot).pumpLinks := by
  have hrouted : ((d.countFixed port fixed).badBeat port).schedSlot port (rxDir port) slot = false :=
    (((countFixed_sameSlots d port fixed port).trans (badBeat_sameSlots _ port port)).schedSlot _ _).trans hslot
  unfold flitReceive
  simp only [hup, hlen, hr, decide_true, Bool.and_self, gate_true, Option.isNone_none, if_true, if_neg (Nat.not_lt.2 hs)]
  exact if_neg (Bool.eq_false_iff.1 hrouted)

theorem flitReceive_scheduled {f : List Byte} (hup : d.linkUp port = true) (hlen : bytes.length = 272) (hr : readFlit bytes = (some f, fixed))
    (hs : 8 ≤ slot) (hslot : d.schedSlot port (rxDir port) slot = true) :
    flitReceive port slot bytes d = (((d.countFixed port fixed).readHeader port f).schedFlit port slot (some f)).pumpLinks := by
  have hsched : ((d.countFixed port fixed).readHeader port f).schedSlot port (rxDir port) slot = true :=
    (((countFixed_sameSlots d port fixed port).trans (readHeader_sameSlots _ port f port)).schedSlot _ _).trans hslot
  unfold flitReceive
  simp only [hup, hlen, hr, decide_true, Bool.and_self, gate_true, Option.isNone_some, Bool.false_eq_true, if_false, if_neg (Nat.not_lt.2 hs)]
  exact if_pos hsched

/-- A bad routed flit is counted and named in a NAK (R395). -/
theorem badRouted_counts (e : Dev) (port slot : Nat) :
    ((e.badRouted port slot).getLink (linkReg port)).regs.crcFail = satAdd 16 (e.getLink (linkReg port)).regs.crcFail 1
      ∧ (⟨e.beat.number, slot, e.clock.wall, 1⟩ : OpenNak) ∈ ((e.badRouted port slot).getLink port).routed.naks := by
  unfold Dev.badRouted Dev.sendCtrl
  refine ⟨?_, ?_⟩
  · rw [modLink_keeps (fun l => l.regs.crcFail) (fun _ => by rfl), modLink_keeps (fun l => l.regs.crcFail) (fun _ => by rfl), modLink_same]
  · rw [modLink_keeps (fun l => l.routed.naks) (fun _ => by rfl), modLink_same]
    exact List.mem_append_right _ List.mem_cons_self

/-- A good scheduled flit waits for its release with its payload's poison (R392, R415). -/
theorem schedFlit_waits (e : Dev) (port slot : Nat) {f : List Byte} (hk : hKind (flitHeader f) = 7) (hsub : hSub (flitHeader f) = subSched) :
    ((e.schedFlit port slot (some f)).getLink port).sched.rx = (e.getLink port).sched.rx ++ [⟨e.allotBeat port, slot,
      (upTo flitPayload).map (fun i => ⟨((f.drop 16).take flitPayload).getD i 0, (hPoison (flitHeader f)).testBit (i / 8)⟩)⟩] := by
  unfold Dev.schedFlit
  dsimp only
  rw [if_pos ⟨hk, hsub⟩, modLink_same]

/-! ## Scheduled slots that send, and releases (R410, R414, R415) -/

@[simp] theorem assayLink_getLink (d : Dev) (e source : Nat) (pay : List PByte) (n : Nat) : (d.assayLink e source pay).getLink n = d.getLink n := by
  unfold Dev.assayLink
  split
  · rfl
  · refine each_keeps (fun d => d.getLink n) _ (fun d u => ?_) _ d
    dsimp only
    split
    · exact modAssay_getLink ..
    · rfl

/-- A TX slot after its bytes have left the FIFO (R414); missing ones are reported while the link is up. -/
def Dev.takeTxBytes (d : Dev) (port : Nat) : Dev :=
  let q := (d.getLink port).sched.outFifo
  let e := d.modLink port (fun l => { l with sched.outFifo := q.drop flitPayload })
  if (q.take flitPayload).length < flitPayload ∧ e.linkUp port then e.linkPoison port 1 else e

theorem takeTxBytes_getLink (d : Dev) (port n : Nat) : (d.takeTxBytes port).getLink n
    = (d.modLink port (fun l => { l with sched.outFifo := (d.getLink port).sched.outFifo.drop flitPayload })).getLink n := by
  unfold Dev.takeTxBytes
  dsimp only
  split
  · exact linkPoison_getLink ..
  · rfl

theorem takeTxBytes_regs (d : Dev) (port n : Nat) : ((d.takeTxBytes port).getLink n).regs = (d.getLink n).regs := by
  rw [takeTxBytes_getLink]
  exact modLink_keeps Link.regs (fun _ => by rfl) d port n

/-- What a TX slot sends (R410). -/
def Dev.sendTxBytes (d : Dev) (port slot : Nat) (bs : List PByte) : Dev :=
  if d.linkUp port ∧ slot < 40 * (d.getLink (linkReg port)).regs.width then
    let words := (upTo 30).filter (fun w => decide (bs.length < 8 * (w + 1)) || ((bs.drop (8 * w)).take 8).any (·.poison))
    let mask := words.foldl (fun v w => v ||| 2 ^ w) 0
    (d.assayLink port 2 (bs ++ poisonBytes (flitPayload - bs.length))).emit (.flit port slot (mkFlit
      (otherHeader (d.syncOf port) mask subSched 0 false (d.creditList port)) (padTo flitPayload (bs.map PByte.val))))
  else d

theorem linkTxSlot_claimed (h : d.schedSlot port (txDir port) slot = true) :
    linkTxSlot port slot d = (d.takeTxBytes port).sendTxBytes port slot ((d.getLink port).sched.outFifo.take flitPayload) := by
  unfold linkTxSlot
  rw [h]
  rfl

theorem sendTxBytes_getLink (d : Dev) (port slot : Nat) (bs : List PByte) (n : Nat) : (d.sendTxBytes port slot bs).getLink n = d.getLink n := by
  unfold Dev.sendTxBytes
  split
  · exact assayLink_getLink ..
  · rfl

theorem sendTxBytes_sends (hup : d.linkUp port = true) (hs : slot < 40 * (d.getLink (linkReg port)).regs.width) (bs : List PByte) :
    ∃ b, Out.flit port slot b ∈ (d.sendTxBytes port slot bs).clock.out := by
  unfold Dev.sendTxBytes
  rw [if_pos ⟨hup, hs⟩]
  exact ⟨_, List.mem_append_right _ List.mem_cons_self⟩

/-- A slot of this job beat whose flit has come releases its bytes into the inbound FIFO, and its flit is no longer kept (R415). -/
theorem schedFlitRelease_due {a : Allot} {r : SchedRx} (ha : (d.getLink port).sched.allot = some a)
    (hrun : (d.getPart (d.getLink port).sched.owner).running = true) (ht : tRel a port slot < 65280)
    (hc : a.claims (rxDir port) slot (d.allotBeat port) = true)
    (hr : (d.getLink port).sched.rx.find? (fun r => r.slot == slot && r.beat == d.allotBeat port) = some r) :
    ((schedFlitRelease port slot d).getLink port).sched.inFifo = (fifoPut (d.getLink port).sched.inFifo r.bytes).1
      ∧ ((schedFlitRelease port slot d).getLink port).sched.rx
        = (d.getLink port).sched.rx.filter (fun r => !(r.slot == slot && r.beat == d.allotBeat port)) := by
  have hback : tRel a port slot / (680 * 96) = 0 := Nat.div_eq_of_lt ht
  unfold schedFlitRelease
  simp only [ha, hback, hrun, Nat.sub_zero, hc, hr, Nat.zero_le, decide_true, Bool.and_self, gate_true, Option.map_some, Option.getD_some]
  split <;> simp [Dev.fifoFull]

end Sys2Proof.Machine

namespace Sys2Proof.Machine

/-- Settles O27: the flit's slot says what takes it; what is counted, kept or sent then is read off before the links send. -/
theorem linkFlitResults : Obligations.LinkFlitResults := by
  intro s port slot hl d link
  refine ⟨fun bytes fixed hup hlen hr hs hslot => completes_of_live hl rfl ?bad,
    fun bytes fixed f hup hlen hr hs hslot hk hsub => completes_of_live hl rfl ?scheduled,
    fun hslot => completes_of_live hl rfl ?tx, fun a r ha hrun ht hc hr => completes_of_live hl rfl ?release⟩
  case bad =>
    have hsame := (countFixed_sameSlots d port fixed port).trans (badBeat_sameSlots _ port port)
    obtain ⟨hcount, hnak⟩ := badRouted_counts ((d.countFixed port fixed).badBeat port) port slot
    rw [flitReceive_bad hup hlen hr hs hslot, settle_getLink, settle_getLink, pumpLinks_regs, pumpLinks_naks]
    rw [badBeat_keeps (fun l => l.regs.crcFail) (fun _ _ => rfl) (fun _ _ => rfl) (fun _ _ _ => rfl) (fun _ _ => rfl),
      countFixed_keeps (fun l => l.regs.crcFail) (fun _ _ => rfl)] at hcount
    rw [hsame.beat, hsame.wall] at hnak
    exact ⟨hcount, hnak⟩
  case scheduled =>
    have hsame := (countFixed_sameSlots d port fixed port).trans (readHeader_sameSlots _ port f port)
    rw [flitReceive_scheduled hup hlen hr hs hslot, settle_getLink, pumpLinks_sched, schedFlit_waits _ _ _ hk hsub, hsame.sched, hsame.allotBeat]
  case tx =>
    rw [linkTxSlot_claimed hslot]
    rw [settle_clock]
    refine ⟨?_, fun hup hw => sendTxBytes_sends ?_ ?_ _⟩
    · rw [settle_getLink, sendTxBytes_getLink, takeTxBytes_getLink, modLink_same]
    · unfold Dev.linkUp; rw [takeTxBytes_regs]; exact hup
    · rw [takeTxBytes_regs]; exact hw
  case release =>
    obtain ⟨hfifo, hrx⟩ := schedFlitRelease_due ha hrun ht hc hr
    refine ⟨hfifo, fun q hq => ?_⟩
    rw [settle_getLink, hrx] at hq
    simpa [← Classical.not_and_iff_not_or_not] using (List.mem_filter.1 hq).2

end Sys2Proof.Machine

/-! PROOFS. NAK, REPLAY and the repeated NAK (R395, R396), then O28. -/

namespace Sys2Proof.Machine

variable {d : Dev} {port : Nat} {payload : List Byte}

/-- The device after a REPLAY has ended its NAK and discarded what was held of its VC. -/
def Dev.endNak (d : Dev) (port : Nat) (payload : List Byte) : Dev :=
  d.modLink port (fun l => { l with routed := { l.routed with
    naks := l.routed.naks.filter (fun n => !(n.beat == leAt payload 2 7 && n.slot == leAt payload 9 2))
    held := if leAt payload 11 1 = 0xFF then l.routed.held else l.routed.held.filter (fun f => f.vc != leAt payload 11 1) } })

/-- While another NAK is open the held flits stay (R396). -/
theorem replay_keeps_held (hup : d.linkUp port = true) (hlen : payload.length = 240) (ht : leAt payload 0 2 = 0x0C02)
    (hx : ∃ x ∈ (d.getLink port).routed.naks, x.beat ≠ leAt payload 2 7 ∨ x.slot ≠ leAt payload 9 2) :
    replay port payload d = d.endNak port payload := by
  have hopen : ((d.endNak port payload).getLink port).routed.naks.isEmpty = false := by
    obtain ⟨x, hx, hne⟩ := hx
    have hmem : x ∈ ((d.endNak port payload).getLink port).routed.naks := by
      unfold Dev.endNak
      rw [modLink_same]
      exact List.mem_filter.2 ⟨hx, by simpa [← Classical.not_and_iff_not_or_not] using hne⟩
    exact List.isEmpty_eq_false_iff.2 (List.ne_nil_of_mem hmem)
  unfold replay
  simp only [flitPayload, hup, hlen, ht, decide_true, Bool.and_self, beq_self_eq_true, gate_true]
  exact if_neg (Bool.eq_false_iff.1 hopen)

theorem nak_resends {f : SentFlit} (hup : d.linkUp port = true) (hlen : payload.length = 240) (ht : leAt payload 0 2 = 0x0C01)
    (hf : (d.getLink port).routed.record.find? (fun f => f.beat == leAt payload 2 7 && f.slot == leAt payload 9 2) = some f) (htries : f.tries < 8) :
    let r := (d.getLink port).routed
    let before := r.record.takeWhile (fun x => !(x.beat == leAt payload 2 7 && x.slot == leAt payload 9 2))
    let after := r.record.drop before.length
    let again := (after.filter (fun x => x.vc == f.vc)).map (fun (x : SentFlit) => if x = f then { x with tries := x.tries + 1 } else x)
    nak port payload d = (((d.modLink (linkReg port) (fun l => { l with regs.replays := satAdd 16 l.regs.replays 1 })).modLink port (fun l =>
      { l with routed := { l.routed with
        record := before ++ after.filter (fun x => x.vc != f.vc)
        resend := l.routed.resend ++ again } })).sendCtrl port
          (ctrlPayload 0x0C02 (leAt payload 2 7) (leAt payload 9 2) (f.vc.getD 0))).pumpLinks := by
  intro r before after again
  unfold nak
  simp only [flitPayload, hup, hlen, ht, decide_true, Bool.and_self, beq_self_eq_true, gate_true, hf, if_neg (Nat.not_le.2 htries)]
  rfl

/-! ## A NAK that stays unanswered (R396) -/

variable {x : OpenNak}

theorem nakResendTimer_third (hx : (d.getLink port).routed.naks.find? (fun x => d.due x.since 4000) = some x) (ht : 3 ≤ x.tries) :
    nakResendTimer port d = d.retrain (linkReg port) 1 := by
  simp only [nakResendTimer, hx, if_pos ht]

theorem nakResendTimer_again (hx : (d.getLink port).routed.naks.find? (fun x => d.due x.since 4000) = some x) (ht : x.tries < 3) :
    ((nakResendTimer port d).getLink port).routed.naks = (d.getLink port).routed.naks.map (fun (y : OpenNak) =>
      if y = x then { y with tries := y.tries + 1, since := d.clock.wall } else y) := by
  simp only [nakResendTimer, hx, if_neg (Nat.not_le.2 ht)]
  rw [pumpLinks_naks, (Link.lasting_inj (sendCtrl_lasting ..)).2.2.2.1, modLink_same]

end Sys2Proof.Machine

namespace Sys2Proof.Machine

/-- Settles O28: each command's conditions open its gate, and the effect behind it is read off. -/
theorem replayResults : Obligations.ReplayResults := by
  intro s port payload hl d r b n
  refine ⟨fun f hup hlen ht hf htries => gives_of_live hl rfl (nak_resends hup hlen ht hf htries),
    fun hup hlen ht hx => completes_of_live hl rfl ?replay, fun x hx ht => gives_of_live hl rfl (nakResendTimer_third hx ht),
    fun x hx ht => completes_of_live hl rfl (nakResendTimer_again hx ht)⟩
  rw [replay_keeps_held hup hlen ht hx, settle_getLink, settle_fab]
  unfold Dev.endNak
  rw [modLink_same]
  exact ⟨rfl, rfl, rfl⟩

end Sys2Proof.Machine

/-! PROOFS. Link training (R398, R403, R404, R406 to R409, R418), then O29. -/

namespace Sys2Proof.Machine

/-- A conditional is one of its branches. -/
theorem ite_left_or_right {α : Type} (c : Prop) [Decidable c] (x y : α) : (if c then x else y) = x ∨ (if c then x else y) = y := by
  split
  · exact .inl rfl
  · exact .inr rfl

variable {d : Dev} {n : Nat}

/-! ## Attempts (R406, R407, R409) -/

/-- A port in an attempt's first stage: TRAINING at no width, neither side done. -/
structure Attempting (l : Link) (attempt cause : Nat) : Prop where
  state : l.regs.state = 2
  width : l.regs.width = 0
  attempt : l.regs.attempt = attempt
  cause : l.regs.lastCause = cause
  stage : l.train.stage = 1
  ownDone : l.train.ownDone = false

theorem retrain_active (h : (d.getLink n).regs.state = 3) (cause : Nat) : Attempting ((d.retrain n cause).getLink n) 1 cause := by
  unfold Dev.retrain Dev.beginAttempt
  rw [if_pos h]
  have hkeep {β : Type} (g : Link → β) (hg : ∀ l v, g { l with regs.mateOk := v } = g l) (e : Dev) := mateCheck_keeps g hg e n
  constructor
  · rw [hkeep (fun l => l.regs.state) (fun _ _ => rfl), modLink_same]
  · rw [hkeep (fun l => l.regs.width) (fun _ _ => rfl), modLink_same]
  · rw [hkeep (fun l => l.regs.attempt) (fun _ _ => rfl), modLink_same]
  · rw [hkeep (fun l => l.regs.lastCause) (fun _ _ => rfl), modLink_same, modLink_same]
  · rw [hkeep (fun l => l.train.stage) (fun _ _ => rfl), modLink_same]
  · rw [hkeep (fun l => l.train.ownDone) (fun _ _ => rfl), modLink_same]

@[simp] theorem linkDegraded_same (d : Dev) (n cause : Nat) :
    (d.linkDegraded n cause).getLink n = { d.getLink n with regs.degradedSeen := true } := by
  simp [Dev.linkDegraded]

theorem linkDegraded_keeps {β : Type} (g : Link → β) (h : ∀ l, g { l with regs.degradedSeen := true } = g l) (d : Dev) (n cause k : Nat) :
    g ((d.linkDegraded n cause).getLink k) = g (d.getLink k) := by
  unfold Dev.linkDegraded
  rw [modLink_keeps g h, raise_getLink]

@[simp] theorem linkDegraded_getBPort (d : Dev) (n cause k : Nat) : (d.linkDegraded n cause).getBPort k = d.getBPort k := by
  simp [Dev.linkDegraded]

/-- An attempt that fails is followed by the next, and after the third the port is DOWN. -/
theorem attemptFails_same (d : Dev) (n cause : Nat) :
    ((d.attemptFails n cause).getLink n).regs.lastCause = cause
      ∧ ((d.getLink n).regs.attempt < 3 → ((d.attemptFails n cause).getLink n).regs.state = 2
        ∧ ((d.attemptFails n cause).getLink n).regs.attempt = (d.getLink n).regs.attempt + 1)
      ∧ (3 ≤ (d.getLink n).regs.attempt → ((d.attemptFails n cause).getLink n).regs.state = 4) := by
  unfold Dev.attemptFails
  dsimp only
  split
  · next h =>
    unfold Dev.beginAttempt
    rw [modLink_same, modLink_same]
    exact ⟨rfl, fun _ => ⟨rfl, rfl⟩, fun h3 => absurd h (Nat.not_lt.2 h3)⟩
  · next h =>
    have hdown (g : LinkRegs → Nat) (hg : ∀ r v, g { r with mateOk := v } = g r) (e : Dev) :
        g ((((e.dropQueued n).mateCheck).getLink n).regs) = g (e.getLink n).regs := by
      rw [mateCheck_keeps (fun l => g l.regs) (fun l v => hg l.regs v), dropQueued_regs]
    unfold Dev.linkGoesDown
    dsimp only
    rw [hdown (·.lastCause) (fun _ _ => rfl), hdown (·.state) (fun _ _ => rfl), linkDegraded_same, modLink_same, modLink_same]
    exact ⟨rfl, fun h' => absurd h' h, fun _ => rfl⟩

/-! ## Training blocks (R398) -/

theorem ite_trainingOut_boot (c : Prop) [Decidable c] (d : Dev) (n lane : Nat) : (if c then d.trainingOut n lane else d).boot = d.boot := by
  split <;> rfl

/-- A block marks its lane, and the peer may ask for full equalisation. -/
def Dev.markLane (d : Dev) (n lane : Nat) (b : List Byte) : Dev :=
  d.modLink n (fun l => { l with train := { l.train with
    lanesUp := if leAt b 3 1 = lane then l.train.lanesUp ||| 2 ^ lane else l.train.lanesUp
    fullEq := l.train.fullEq || (leAt b 7 1).testBit 1 } })

theorem markLane_regs (d : Dev) (n lane : Nat) (b : List Byte) : ((d.markLane n lane b).getLink n).regs = (d.getLink n).regs := by
  rw [Dev.markLane, modLink_same]

theorem markLane_train (d : Dev) (n lane : Nat) (b : List Byte) :
    ((d.markLane n lane b).getLink n).train.stage = (d.getLink n).train.stage
      ∧ ((d.markLane n lane b).getLink n).train.ownDone = (d.getLink n).train.ownDone := by
  rw [Dev.markLane, modLink_same]
  exact ⟨rfl, rfl⟩

/-- The answer on a lane changes no link. -/
theorem ite_trainingOut_getLink (c : Prop) [Decidable c] (d : Dev) (n lane k : Nat) :
    (if c then d.trainingOut n lane else d).getLink k = d.getLink k := by
  split <;> rfl

/-- A good block in the port's first stage takes its lane and its part in the stage; the answer on the lane leaves the port as it is. -/
theorem trainingBlockReceive_first {e : Dev} {port lane : Nat} {bytes : List Byte} (time : Nat) (done : Bool) (hn : linkReg port < 20)
    (hlen : bytes.length = 64) (hmark : leAt bytes 0 2 = 0x7E81) (hcrc : crc32c (bytes.take 60) = leAt bytes 60 4)
    (he : (if (d.getLink (linkReg port)).regs.state = 3 then d.retrain (linkReg port) 4
      else if (d.getLink (linkReg port)).regs.state = 1 then d.beginAttempt (linkReg port) 1 (!(d.getLink (linkReg port)).train.cached) else d) = e)
    (hs : (e.getLink (linkReg port)).regs.state = 2) :
    let f := (e.markLane (linkReg port) lane bytes).trainStep (linkReg port) bytes time done
    (trainingBlockReceive port lane bytes time done d).getLink (linkReg port) = f.getLink (linkReg port)
      ∧ (trainingBlockReceive port lane bytes time done d).boot = f.boot := by
  unfold trainingBlockReceive
  simp only [hmark, Nat.reduceBEq, Bool.false_eq_true, if_false, hlen, hcrc, hn, decide_true, beq_self_eq_true, Bool.and_self, gate_true, he, hs,
    ne_eq, not_true_eq_false, ite_trainingOut_getLink, ite_trainingOut_boot]
  exact ⟨rfl, rfl⟩

/-- No training block belongs to a boot stage once the device is Ready (R537). -/
theorem trainingBlock_ready {port lane : Nat} {bytes : List Byte} {time : Nat} {done : Bool}
    (h : (trainingBlockReceive port lane bytes time done d).boot.phase = .ready) :
    trainingBlock port lane bytes time done d = trainingBlockReceive port lane bytes time done d := by
  unfold trainingBlock
  exact if_neg (by simp [Dev.inStage, h])

/-- A lane that has not finished leaves its port in the first stage. -/
theorem trainStep_unfinished (hstage : (d.getLink n).train.stage = 1) (hown : (d.getLink n).train.ownDone = false) (b : List Byte) (time : Nat) :
    ((d.trainStep n b time false).getLink n).regs = (d.getLink n).regs
      ∧ ((d.trainStep n b time false).getLink n).train.stage = (d.getLink n).train.stage := by
  unfold Dev.trainStep
  simp [hstage, hown]

theorem trainStep_boot_of_first (hstage : (d.getLink n).train.stage = 1) (b : List Byte) (time : Nat) (done : Bool) :
    (d.trainStep n b time done).boot = d.boot := by
  unfold Dev.trainStep Dev.nextStage
  cases done
  · simp [hstage]
    split <;> simp
  · simp [hstage]
    split <;> simp

/-- A block that ends the first stage on both sides moves the port on to the second. -/
theorem trainStep_finished (hs : (d.getLink n).regs.state = 2) (hstage : (d.getLink n).train.stage = 1) {b : List Byte} (hb : leAt b 2 1 = 1)
    (hpeer : (leAt b 7 1).testBit 0 = true) (time : Nat) :
    ((d.trainStep n b time true).getLink n).regs.state = 2 ∧ ((d.trainStep n b time true).getLink n).train.stage = 2
      ∧ ((d.trainStep n b time true).getLink n).train.ownDone = false := by
  unfold Dev.trainStep Dev.nextStage
  simp [hs, hstage, hb, hpeer]

theorem trainingStageDeadline_due {port : Nat} (hs : (d.getLink (linkReg port)).regs.state = 2)
    (hd : d.due (d.getLink (linkReg port)).train.since
      (stageNs (d.getLink (linkReg port)).train.stage (d.getLink (linkReg port)).train.fullEq) = true) :
    trainingStageDeadline port d = d.attemptFails (linkReg port) 6 := by
  simp [trainingStageDeadline, hs, hd]

theorem portDownRetry_due {port : Nat} (hs : (d.getLink (linkReg port)).regs.state = 4) (ha : (d.getLink (linkReg port)).regs.autoRetry = true)
    (hd : d.due (d.getLink (linkReg port)).train.downSince 10000000000 = true) : portDownRetry port d = d.beginAttempt (linkReg port) 1 true := by
  simp [portDownRetry, hs, ha, hd]

/-! ## The width exchange (R403, R404) and ACTIVE (R406) -/

theorem widthConfirmTimeout_first {port : Nat} (hs : (d.getLink (linkReg port)).regs.state = 2) (hstage : (d.getLink (linkReg port)).train.stage = 5)
    (hown : (d.getLink (linkReg port)).train.ownDone = false) (hd : d.due (d.getLink (linkReg port)).train.since 1000000 = true)
    (hr : (d.getLink (linkReg port)).train.round = 1) :
    widthConfirmTimeout port d = d.modLink (linkReg port) (fun l => { l with train.round := 2, train.since := d.clock.wall }) := by
  simp [widthConfirmTimeout, hs, hstage, hown, hd, hr]

/-- After the second round a port whose lanes 0 to 3 are sound falls back to them. -/
theorem widthConfirmTimeout_second {port : Nat} (hs : (d.getLink (linkReg port)).regs.state = 2) (hstage : (d.getLink (linkReg port)).train.stage = 5)
    (hown : (d.getLink (linkReg port)).train.ownDone = false) (hd : d.due (d.getLink (linkReg port)).train.since 1000000 = true)
    (hr : (d.getLink (linkReg port)).train.round ≠ 1) (hm : (d.getLink (linkReg port)).ownMask (linkReg port) % 16 = 15) :
    let l := (widthConfirmTimeout port d).getLink (linkReg port)
    l.train.width = 4 ∧ l.train.used = 0xF ∧ l.train.stage = 6 ∧ l.regs.fallback = true ∧ l.regs.mismatchSeen = true := by
  simp [widthConfirmTimeout, Dev.nextStage, hs, hstage, hown, hd, hr, hm]

/-- A port whose last stage has ended, with the routed slots of its ends as they begin. -/
def Dev.freshEnds (d : Dev) (n : Nat) : Dev :=
  Dev.each (if n < 16 then [n] else [n, n + 4]) (fun d e => d.modLink e (fun l => { l with routed := { txSlot := 8 } })) d

theorem freshEnds_lasting (d : Dev) (n k : Nat) :
    ((d.freshEnds n).getLink k).regs = (d.getLink k).regs ∧ ((d.freshEnds n).getLink k).train = (d.getLink k).train :=
  ⟨each_keeps (fun d => (d.getLink k).regs) _ (fun d e => modLink_keeps Link.regs (fun _ => by rfl) d e k) _ d,
    each_keeps (fun d => (d.getLink k).train) _ (fun d e => modLink_keeps Link.train (fun _ => by rfl) d e k) _ d⟩

/-- The port in service: ACTIVE with what it agreed, and no expected beat number. -/
def Dev.activated (d : Dev) (n : Nat) : Dev :=
  (((d.freshEnds n).modLink n (fun l => { l with
    regs := { l.regs with state := 3, width := l.train.width, used := l.train.used }
    train.cached := true })).modBPort n (fun b => { b with expected := none })).mateCheck

theorem activated_regs (d : Dev) (n : Nat) :
    ((d.activated n).getLink n).regs.state = 3 ∧ ((d.activated n).getLink n).regs.width = (d.getLink n).train.width
      ∧ ((d.activated n).getLink n).regs.used = (d.getLink n).train.used := by
  obtain ⟨-, htrain⟩ := freshEnds_lasting d n n
  unfold Dev.activated
  refine ⟨?_, ?_, ?_⟩
  · rw [mateCheck_keeps (fun l => l.regs.state) (fun _ _ => by rfl), modBPort_getLink, modLink_same]
  · rw [mateCheck_keeps (fun l => l.regs.width) (fun _ _ => by rfl), modBPort_getLink, modLink_same, htrain]
  · rw [mateCheck_keeps (fun l => l.regs.used) (fun _ _ => by rfl), modBPort_getLink, modLink_same, htrain]

theorem SendsOn.boot {e : Dev} (h : SendsOn d e) : e.boot = d.boot := by
  obtain ⟨_, _, _, _, _, rfl⟩ := h; rfl

theorem SendsOn.getBPort {e : Dev} (h : SendsOn d e) (k : Nat) : e.getBPort k = d.getBPort k := by
  obtain ⟨_, _, _, _, _, rfl⟩ := h; rfl

theorem activated_getBPort (d : Dev) (n : Nat) : ((d.activated n).getBPort n).expected = none := by
  unfold Dev.activated
  rw [(mateCheck_sendsOn _).getBPort, modBPort_same]

/-- A port below the width of both sides, or on the fallback lanes, is reported degraded (R407). -/
theorem portActive_eq {port : Nat} (hs : (d.getLink (linkReg port)).regs.state = 2) (hstage : (d.getLink (linkReg port)).train.stage = 7) :
    portActive port d = ((d.activated (linkReg port)).linkDegraded (linkReg port) 2).pumpLinks
      ∨ portActive port d = (d.activated (linkReg port)).pumpLinks := by
  unfold portActive
  simp only [hs, hstage, beq_self_eq_true, Bool.and_self, gate_true]
  exact (ite_left_or_right _ _ _).imp (congrArg Dev.pumpLinks) (congrArg Dev.pumpLinks)

theorem portActive_active {port : Nat} (hs : (d.getLink (linkReg port)).regs.state = 2) (hstage : (d.getLink (linkReg port)).train.stage = 7) :
    let e := portActive port d
    (e.getLink (linkReg port)).regs.state = 3 ∧ (e.getLink (linkReg port)).regs.width = (d.getLink (linkReg port)).train.width
      ∧ (e.getLink (linkReg port)).regs.used = (d.getLink (linkReg port)).train.used ∧ (e.getBPort (linkReg port)).expected = none := by
  have pumped (f : Dev) (hstate : (f.getLink (linkReg port)).regs.state = 3)
      (hwidth : (f.getLink (linkReg port)).regs.width = (d.getLink (linkReg port)).train.width)
      (hused : (f.getLink (linkReg port)).regs.used = (d.getLink (linkReg port)).train.used)
      (hexpected : (f.getBPort (linkReg port)).expected = none) :
      let e := f.pumpLinks
      (e.getLink (linkReg port)).regs.state = 3 ∧ (e.getLink (linkReg port)).regs.width = (d.getLink (linkReg port)).train.width
        ∧ (e.getLink (linkReg port)).regs.used = (d.getLink (linkReg port)).train.used ∧ (e.getBPort (linkReg port)).expected = none := by
    intro e
    rw [pumpLinks_regs, (pumpLinks_sendsOn f).getBPort]
    exact ⟨hstate, hwidth, hused, hexpected⟩
  obtain ⟨hstate, hwidth, hused⟩ := activated_regs d (linkReg port)
  have hexpected := activated_getBPort d (linkReg port)
  obtain h | h := portActive_eq hs hstage
  · rw [h]
    refine pumped _ ?_ ?_ ?_ ?_
    · exact (linkDegraded_keeps (fun l => l.regs.state) (fun _ => rfl) ..).trans hstate
    · exact (linkDegraded_keeps (fun l => l.regs.width) (fun _ => rfl) ..).trans hwidth
    · exact (linkDegraded_keeps (fun l => l.regs.used) (fun _ => rfl) ..).trans hused
    · rw [linkDegraded_getBPort]; exact hexpected
  · rw [h]
    exact pumped _ hstate hwidth hused hexpected

/-! ## Leaving ACTIVE (R407, R408, R418) -/

theorem peerSilence_active {port : Nat} (h : (d.getLink (linkReg port)).regs.state = 3) :
    let l := (peerSilence port d).getLink (linkReg port)
    l.regs.state = 1 ∧ l.regs.width = 0 ∧ l.regs.degradedSeen = true := by
  unfold peerSilence
  simp only [h, beq_self_eq_true, Bool.or_true, gate_true]
  refine ⟨?_, ?_, ?_⟩
  · rw [mateCheck_keeps (fun l => l.regs.state) (fun _ _ => by rfl), modLink_same]
  · rw [mateCheck_keeps (fun l => l.regs.width) (fun _ _ => by rfl), modLink_same]
  · rw [mateCheck_keeps (fun l => l.regs.degradedSeen) (fun _ _ => by rfl), modLink_same, linkDegraded_same]

theorem matePortSwitch_left {m : Nat} (hm : d.mirror.matePort = some m) (hs : (d.getLink m).regs.state ≠ 3) :
    (matePortSwitch d).mirror.matePort = d.mateInUse := by
  unfold matePortSwitch
  simp only [hm, bne_iff_ne.2 hs, gate_true]
  split
  · next h => exact h.symm
  · next h => exact h.symm

end Sys2Proof.Machine

namespace Sys2Proof.Machine

/-- Settles O29: each command's conditions open its gate, and the effect behind it is read off. -/
theorem linkTrainingResults : Obligations.LinkTrainingResults := by
  intro s port hl
  dsimp only
  refine ⟨fun lane bytes time hready hn hlen hmark hcrc => ⟨fun hs => completes_of_live hl rfl ?again,
      fun hs hstage hb hpeer => completes_of_live hl rfl ?next⟩, fun hs hd => completes_of_live hl rfl ?deadline,
    fun hs hstage hown hd => completes_of_live hl rfl ⟨fun hr => ?round, fun hr hm => widthConfirmTimeout_second hs hstage hown hd hr hm⟩,
    fun hs hstage => completes_of_live hl rfl (portActive_active hs hstage), fun hs ha hd => gives_of_live hl rfl ?retry,
    fun hs => completes_of_live hl rfl (peerSilence_active hs), fun hs => completes_of_live hl rfl ?cdr,
    fun m hm hs => completes_of_live hl rfl (matePortSwitch_left hm hs)⟩
  case again =>
    obtain ⟨hstate, hwidth, -, hcause, hstage, hown⟩ := retrain_active (d := s.found) hs 4
    obtain ⟨hport, hboot⟩ := trainingBlockReceive_first (lane := lane) time false hn hlen hmark hcrc (if_pos hs) hstate
    obtain ⟨hregs, hstays⟩ := trainStep_unfinished
      (d := (s.found.retrain (linkReg port) 4).markLane (linkReg port) lane bytes) ((markLane_train ..).1.trans hstage)
      ((markLane_train ..).2.trans hown) bytes time
    have hphase : (trainingBlockReceive port lane bytes time false s.found).boot.phase = .ready := by
      rw [hboot, trainStep_boot_of_first ((markLane_train ..).1.trans hstage)]
      exact (congrArg Boot.phase (retrain_sendsOn s.found (linkReg port) 4).boot).trans hready
    simp only [settle_getLink]
    rw [trainingBlock_ready hphase, hport, hregs, hstays, markLane_regs, (markLane_train ..).1]
    exact ⟨hstate, hcause, hstage, hwidth⟩
  case next =>
    have hstay : (if (s.found.getLink (linkReg port)).regs.state = 3 then s.found.retrain (linkReg port) 4
        else if (s.found.getLink (linkReg port)).regs.state = 1 then
          s.found.beginAttempt (linkReg port) 1 (!(s.found.getLink (linkReg port)).train.cached)
        else s.found) = s.found := by
      rw [hs]
      rfl
    obtain ⟨hport, hboot⟩ := trainingBlockReceive_first (lane := lane) time true hn hlen hmark hcrc hstay hs
    have hfirst : ((s.found.markLane (linkReg port) lane bytes).getLink (linkReg port)).train.stage = 1 := (markLane_train ..).1.trans hstage
    have hphase : (trainingBlockReceive port lane bytes time true s.found).boot.phase = .ready := by
      rw [hboot, trainStep_boot_of_first hfirst]
      exact hready
    simp only [settle_getLink]
    rw [trainingBlock_ready hphase, hport]
    exact trainStep_finished ((congrArg LinkRegs.state (markLane_regs ..)).trans hs) hfirst hb hpeer time
  case deadline =>
    simp only [settle_getLink]
    rw [trainingStageDeadline_due hs hd]
    exact attemptFails_same _ _ 6
  case round =>
    simp only [settle_getLink]
    rw [widthConfirmTimeout_first hs hstage hown hd hr, modLink_same]
    exact ⟨rfl, rfl⟩
  case retry => exact portDownRetry_due hs ha hd
  case cdr =>
    obtain ⟨hstate, -, hattempt, hcause, hstage, -⟩ := retrain_active (d := s.found) hs 3
    exact ⟨hstate, hcause, hattempt, hstage⟩

end Sys2Proof.Machine

/-! PROOFS. Host writes to ring slots (R437 to R443), resets of a port or a function (R427), then O38. -/

namespace Sys2Proof.Machine

variable {d : Dev} {a : Access} {ring v : Nat}

/-! ## Writes to a ring slot (R437 to R443) -/

/-- A change of a ring is its change of what the ring holds. -/
theorem modRing_congr {f g : Ring → Ring} (h : f (d.getRing ring) = g (d.getRing ring)) : d.modRing ring f = d.modRing ring g := by
  unfold Dev.modRing
  rw [show f (tabGet {} ring d.host.rings) = g (tabGet {} ring d.host.rings) from h]

theorem mbxDoorbell_moves (hm : d.mayRing a ring = true) (hb : (d.getRing ring).boundPort = a.port)
    (hv : fld v 0 12 < 2 ^ (d.getRing ring).sizeLog2) : mbxDoorbell a ring v d = d.modRing ring (fun r => { r with tail := fld v 0 12 }) := by
  unfold mbxDoorbell
  rw [hm, gate_true]
  exact modRing_congr (by rw [if_neg (not_not_intro hb), if_neg (Nat.not_le.2 hv)])

/-- A TAIL beyond the ring stops it (R442). -/
theorem mbxDoorbell_stops (hm : d.mayRing a ring = true) (hb : (d.getRing ring).boundPort = a.port)
    (hv : 2 ^ (d.getRing ring).sizeLog2 ≤ fld v 0 12) (hs : (d.getRing ring).state = 1) :
    mbxDoorbell a ring v d = d.modRing ring (fun r => { r with state := 2, errCause := 1 }) := by
  unfold mbxDoorbell
  rw [hm, gate_true]
  exact modRing_congr (by rw [if_neg (not_not_intro hb), if_pos hv, if_pos hs])

theorem mbxDoorbell_wrongPort (hm : d.mayRing a ring = true) (hb : (d.getRing ring).boundPort ≠ a.port) :
    mbxDoorbell a ring v d = d.modRing ring (fun r => { r with wrongPort := true }) := by
  unfold mbxDoorbell
  rw [hm, gate_true]
  exact modRing_congr (if_pos hb)

theorem mbxCplDoorbell_wrongPort (hm : d.mayRing a ring = true) (hb : (d.getRing ring).boundPort ≠ a.port) :
    mbxCplDoorbell a ring v d = d.modRing ring (fun r => { r with wrongPort := true }) := by
  unfold mbxCplDoorbell
  rw [hm, gate_true]
  exact modRing_congr (if_pos hb)

theorem mbxCplDoorbell_moves (hm : d.mayRing a ring = true) (hb : (d.getRing ring).boundPort = a.port) :
    mbxCplDoorbell a ring v d = d.modRing ring (fun r => { r with cplHead := fld v 0 13 }) := by
  unfold mbxCplDoorbell
  rw [hm, gate_true]
  exact modRing_congr (if_neg (not_not_intro hb))

/-- A ring as ENABLE = 1 begins it, before its bases are judged. -/
def Ring.started (q : Ring) (port v : Nat) : Ring :=
  { q with enable := true, sizeLog2 := sizeField q.sizeLog2 v, boundPort := port, head := 0, tail := 0, cplTail := 0, cplHead := 0
           phase := true, disabling := false, discard := false }

theorem mbxEnableSet_starts (hm : d.mayRing a ring = true) (hv : v.testBit 0 = true) (he : (d.getRing ring).enable = false)
    (hx : (d.getRing ring).executing = false) (hdesc : (d.getRing ring).descBase % 64 = 0) (hcpl : (d.getRing ring).cplBase % 64 = 0) :
    mbxEnableSet a ring v d = d.modRing ring (fun _ => { (d.getRing ring).started a.port v with state := 1, errCause := 0 }) := by
  unfold mbxEnableSet
  rw [hm, hv, Bool.and_self, gate_true]
  exact modRing_congr (by simp [he, hx, hdesc, hcpl, Ring.started])

/-- A base that is no multiple of 64 puts the ring in ERROR (R439). -/
theorem mbxEnableSet_misaligned (hm : d.mayRing a ring = true) (hv : v.testBit 0 = true) (he : (d.getRing ring).enable = false)
    (hx : (d.getRing ring).executing = false) (hbase : (d.getRing ring).descBase % 64 ≠ 0 ∨ (d.getRing ring).cplBase % 64 ≠ 0) :
    mbxEnableSet a ring v d = d.modRing ring (fun _ => { (d.getRing ring).started a.port v with state := 2, errCause := 2 }) := by
  have hgood : ((d.getRing ring).descBase % 64 == 0 && (d.getRing ring).cplBase % 64 == 0) = false := by
    rw [Bool.and_eq_false_iff]
    exact hbase.imp beq_false_of_ne beq_false_of_ne
  unfold mbxEnableSet
  rw [hm, hv, Bool.and_self, gate_true]
  exact modRing_congr (by simp [he, hx, hgood, Ring.started])

theorem mbxEnableClear_stops (hm : d.mayRing a ring = true) (hv : v.testBit 0 = false) (he : (d.getRing ring).enable = true)
    (hs : (d.getRing ring).state = 1) (hx : (d.getRing ring).executing = false) :
    mbxEnableClear a ring v d = d.modRing ring (fun r => { r with enable := false, state := 0 }) := by
  unfold mbxEnableClear
  rw [hm, hv, Bool.not_false, Bool.and_self, gate_true]
  exact modRing_congr (by simp [he, hs, hx, Ring.stop])

theorem evtDoorbell_moves (hp : d.portUp a = true) (hf : a.fn = 0) (hb : a.port = d.host.evt.boundPort) :
    evtDoorbell a v d = { d with host.evt := { d.host.evt with head := fld v 0 12 } } := by
  simp [evtDoorbell, hp, hf, hb]

theorem evtEnableSet_starts (hp : d.portUp a = true) (hf : a.fn = 0) (hv : v.testBit 0 = true) (he : d.host.evt.enable = false)
    (hb : d.host.evt.base % 64 = 0) :
    evtEnableSet a v d = { d with host.evt := { d.host.evt with
      enable := true, sizeLog2 := sizeField d.host.evt.sizeLog2 v, tail := 0, head := 0, phase := true, overflow := false, lost := 0
      boundPort := a.port } } := by
  unfold evtEnableSet
  rw [hp, hf, Bool.true_and, beq_self_eq_true, gate_true]
  dsimp only
  rw [if_pos hv, if_neg (by simp [he, hb])]

/-! ## Resets (R427) -/

/-- A ring that a reset stops: DISABLED at once, or once its executing command has ended, unless it is DEAD. -/
def Ring.reset (q : Ring) : Ring :=
  { q.stop true with state := if (q.stop true).executing then (q.stop true).state else if (q.stop true).state = 3 then 3 else 0 }

theorem reset_disabled (q : Ring) : q.reset.enable = false ∧ (q.executing = false → q.state ≠ 3 → q.reset.state = 0) := by
  unfold Ring.reset Ring.stop
  refine ⟨?_, fun hx hs => ?_⟩
  · dsimp only
    split <;> rfl
  · by_cases h1 : q.state = 1 <;> simp [hx, hs, h1]

theorem each_reset_getRing (pick : Nat → Bool) {l : List Nat} (hl : l.Nodup) (d : Dev) (r : Nat) :
    (Dev.each l (fun d k => if pick k then d.modRing k Ring.reset else d) d).getRing r
      = if r ∈ l ∧ pick r = true then (d.getRing r).reset else d.getRing r := by
  induction l generalizing d with
  | nil => simp [Dev.each]
  | cons k l ih =>
    obtain ⟨hk, hl⟩ := List.nodup_cons.1 hl
    refine (ih hl _).trans ?_
    by_cases hr : r = k
    · subst hr
      by_cases hp : pick r = true <;> simp [hk, hp]
    · by_cases hp : pick k = true <;> simp [hr, hp, modRing_ne d _ hr]

theorem stopRings_getRing (d : Dev) (pick : Nat → Bool) (r : Nat) :
    (d.stopRings pick).getRing r = if r < 66 ∧ pick r = true then (d.getRing r).reset else d.getRing r := by
  refine (each_reset_getRing pick (l := upTo 66) List.nodup_range d r).trans ?_
  simp only [upTo, List.mem_range]

/-- A reset of rings changes no other part of the device. -/
theorem stopRings_shape (d : Dev) (pick : Nat → Bool) : ∃ q, d.stopRings pick = { d with host.rings := q } := by
  unfold Dev.stopRings
  generalize upTo 66 = l
  induction l generalizing d with
  | nil => exact ⟨d.host.rings, rfl⟩
  | cons k l ih =>
    rw [Dev.each, List.foldl_cons, ← Dev.each]
    split
    · obtain ⟨q, h⟩ := ih (d.modRing k _)
      exact ⟨q, h⟩
    · exact ih d

theorem functionLevelReset_shape (h : d.portUp a = true) : ∃ q, functionLevelReset a d =
    { d with host.rings := q, host.evt := if a.fn = 0 then { d.host.evt with enable := false } else d.host.evt } := by
  obtain ⟨q, hq⟩ := stopRings_shape d (fun r => if r < 64 then a.fn == r / 4 + 1 else a.fn == 0)
  unfold functionLevelReset
  rw [h, gate_true, hq]
  dsimp only
  split
  · exact ⟨q, rfl⟩
  · exact ⟨q, rfl⟩

theorem functionLevelReset_getRing (h : d.portUp a = true) (r : Nat) : (functionLevelReset a d).getRing r
    = if r < 66 ∧ (if r < 64 then a.fn == r / 4 + 1 else a.fn == 0) = true then (d.getRing r).reset else d.getRing r := by
  rw [← stopRings_getRing d (fun r => if r < 64 then a.fn == r / 4 + 1 else a.fn == 0)]
  unfold functionLevelReset
  rw [h, gate_true]
  dsimp only
  split
  · rfl
  · rfl

/-- The rings that a reset of a port disables are those bound to it. -/
def Dev.boundTo (d : Dev) (port r : Nat) : Bool := (d.getRing r).enable && (d.getRing r).boundPort == port

theorem perstAssert_getRing {port : Nat} (h : port = 0 ∨ port = 2) (r : Nat) :
    (perstAssert port d).getRing r = if r < 66 ∧ d.boundTo port r = true then (d.getRing r).reset else d.getRing r := by
  rw [← stopRings_getRing d (d.boundTo port)]
  unfold perstAssert
  rw [show (port == 0 || port == 2) = true by simpa using h, gate_true]
  dsimp only
  split <;> split <;> rfl

theorem perstAssert_pins_parts {port : Nat} (h : port = 0 ∨ port = 2) :
    (if port = 0 then (perstAssert port d).pins.perst0N else (perstAssert port d).pins.perst2N) = false
      ∧ (perstAssert port d).parts = d.parts := by
  obtain ⟨q, hq⟩ := stopRings_shape d (fun r => (d.getRing r).enable && (d.getRing r).boundPort == port)
  unfold perstAssert
  rw [show (port == 0 || port == 2) = true by simpa using h, gate_true, hq]
  dsimp only
  obtain rfl | rfl := h
  · simp only [if_true]
    split <;> exact ⟨trivial, rfl⟩
  · simp only [Nat.reduceEqDiff, if_false]
    split <;> exact ⟨trivial, rfl⟩

theorem perstRelease_pins {port : Nat} (h : port = 0 ∨ port = 2) :
    (if port = 0 then (perstRelease port d).pins.perst0N else (perstRelease port d).pins.perst2N) = true
      ∧ (perstRelease port d).host = d.host ∧ (perstRelease port d).parts = d.parts := by
  obtain rfl | rfl := h
  · exact ⟨rfl, rfl, rfl⟩
  · exact ⟨rfl, rfl, rfl⟩

end Sys2Proof.Machine

namespace Sys2Proof.Machine

/-- Settles O38: each write's conditions open its gate; a reset is read off ring by ring. -/
theorem hostRingResults : Obligations.HostRingResults := by
  intro s a ring v
  dsimp only
  intro hl
  refine ⟨fun hm hb hv => gives_of_live hl rfl (mbxDoorbell_moves hm hb hv),
    fun hm hb hv hs => gives_of_live hl rfl (mbxDoorbell_stops hm hb hv hs),
    fun hm hb => ⟨gives_of_live hl rfl (mbxDoorbell_wrongPort hm hb), gives_of_live hl rfl (mbxCplDoorbell_wrongPort hm hb)⟩,
    fun hm hb => gives_of_live hl rfl (mbxCplDoorbell_moves hm hb),
    fun hm hv he hx hdesc hcpl => gives_of_live hl rfl (mbxEnableSet_starts hm hv he hx hdesc hcpl),
    fun hm hv he hx hbase => gives_of_live hl rfl (mbxEnableSet_misaligned hm hv he hx hbase),
    fun hm hv he hs hx => gives_of_live hl rfl (mbxEnableClear_stops hm hv he hs hx),
    fun hp hf hb => gives_of_live hl rfl (evtDoorbell_moves hp hf hb), fun hp hf hv he hb => completes_of_live hl rfl ?start,
    fun hp => completes_of_live hl rfl ?function, fun hport => ⟨completes_of_run rfl ?assert, completes_of_run rfl ?release⟩⟩
  case start =>
    rw [evtEnableSet_starts hp hf hv he hb]
    exact ⟨rfl, rfl, rfl, rfl, rfl, rfl, rfl, rfl⟩
  case function =>
    have hring := functionLevelReset_getRing (d := s.found) hp
    obtain ⟨q, hshape⟩ := functionLevelReset_shape (d := s.found) hp
    have hstopped (r : Nat) (hr : r < 66) (hf : (if r < 64 then a.fn == r / 4 + 1 else a.fn == 0) = true) :
        (functionLevelReset a s.found).getRing r = (s.found.getRing r).reset := by rw [hring, if_pos ⟨hr, hf⟩]
    simp only [settle_getRing]
    refine ⟨fun r hr hf => ?_, fun r hr hf => ?_, fun hf => ⟨?_, ?_, ?_⟩, ?_, ?_⟩
    · rw [hstopped r (by omega) (by simp [hr, hf])]
      exact reset_disabled _
    · rw [hring, if_neg (by simp [hr, hf])]
    · rw [hstopped 64 (by decide) (by simp [hf])]
      exact reset_disabled _
    · rw [hstopped 65 (by decide) (by simp [hf])]
      exact reset_disabled _
    · rw [hshape, settle_host, if_pos hf]
    · rw [hshape, settle_host]
    · rw [hshape, settle_parts]
  case assert =>
    have hring := perstAssert_getRing (d := s.found) hport
    obtain ⟨hpins, hparts⟩ := perstAssert_pins_parts (d := s.found) hport
    simp only [settle_getRing]
    refine ⟨fun r hr he hb => ?_, fun r hr hb => ?_, hpins, hparts⟩
    · rw [hring, if_pos ⟨hr, by simp only [Dev.boundTo, he, hb, beq_self_eq_true, Bool.and_self]⟩]
      exact reset_disabled _
    · rw [hring, if_neg (by simp only [Dev.boundTo, beq_false_of_ne hb]; simp)]
  case release => exact perstRelease_pins hport

end Sys2Proof.Machine

/-! PROOFS. Host accesses by their offset (R428 to R430, R435, R484, R485), AssayFeed (R583 to R585), descriptor fetches (R440, R442), then O39. -/

namespace Sys2Proof.Machine

variable {d : Dev} {a : Access} {off size v : Nat}

/-! ## Register writes through BAR0 (R428 to R430, R442) -/

theorem registerWrite_unaligned (hp : d.portUp a = true) (ha : aligned off size = false) : registerWrite a off size v d = d.emit .completerAbort := by
  unfold registerWrite
  rw [hp, gate_true]
  exact if_pos (.inl (by simp [ha]))

/-- The offsets below the doorbells are read-only. -/
theorem registerWrite_readOnly (hp : d.portUp a = true) (hf : a.fn = 0) (ha : aligned off size = true) (ho : off < 0x1000) :
    registerWrite a off size v d = d := by
  unfold registerWrite
  rw [hp, gate_true]
  dsimp only
  rw [if_neg (by simp [ha, hf]; omega), if_neg (by omega), if_neg (by omega), if_neg (by omega)]

theorem mayRing_installer (h : d.mayRing a 64 = true) : d.portUp a = true ∧ a.fn = 0 := by
  simpa [Dev.mayRing] using h

/-- The low field of a small value is the value. -/
theorem fld_low {w n : Nat} (h : w < 2 ^ n) : fld w 0 n = w := by
  rw [fld, Nat.shiftRight_zero, Nat.mod_eq_of_lt h]

/-- MbxDoorbell of the Installer's ring stands at 0x1000. -/
theorem registerWrite_doorbell (hm : d.mayRing a 64 = true) (hb : (d.getRing 64).boundPort = a.port)
    (hs : v < 2 ^ (d.getRing 64).sizeLog2) (hv : v < 2 ^ 12) :
    registerWrite a 0x1000 4 v d = d.modRing 64 (fun r => { r with tail := v }) := by
  obtain ⟨hp, hf⟩ := mayRing_installer hm
  have hlow : fld v 0 32 = v := fld_low (Nat.lt_trans hv (by decide))
  have hmoves := mbxDoorbell_moves (v := v) hm hb (by rwa [fld_low hv])
  rw [fld_low hv] at hmoves
  unfold registerWrite
  rw [hp, gate_true]
  dsimp only
  rw [if_neg (by simp [aligned, hf]), if_pos (by decide), if_neg (by simp [hf]), if_pos rfl, hlow]
  simpa [slotRing, hf] using hmoves

/-- DescBase of the Installer's ring stands at 0x3000 (log entry 54). -/
theorem registerWrite_descBase (hm : d.mayRing a 64 = true) :
    registerWrite a 0x3000 8 v d = d.modRing 64 (fun r => if r.enable then r else { r with descBase := v % 2 ^ 64 }) := by
  obtain ⟨hp, hf⟩ := mayRing_installer hm
  unfold registerWrite
  rw [hp, gate_true]
  dsimp only
  rw [if_neg (by simp [aligned, hf]), if_neg (by decide), if_neg (by decide), if_pos (by decide), if_neg (by simp [hf]), if_pos (by decide)]
  simp [Dev.writeBase, slotRing, hf, hm, writeWord64]

/-! ## Accesses through BAR2 (R435, R484, R485) -/

variable {o : Nat} {bytes : List Byte} {write : Bool}

theorem windowOf_first (h : o < 2 ^ 24) : windowOf 0 o = some (0, o) := by
  have h28 : o < 2 ^ 28 := Nat.lt_trans h (by decide)
  simp only [windowOf, if_true, if_pos h28, Nat.div_eq_of_lt h, Nat.mod_eq_of_lt h]

theorem apertureAccess_outside (hp : d.portUp a = true) (h : aligned o bytes.length = false ∨ windowOf a.fn o = none) :
    apertureAccess a write o bytes d = d.emit .completerAbort := by
  have hnone : (if aligned o bytes.length then windowOf a.fn o else none) = none := by
    obtain h | h := h <;> simp [h]
  unfold apertureAccess
  simp only [hp, gate_true, hnone]
  rfl

theorem apertureAccess_writes (hp : d.portUp a = true) (hf : a.fn = 0) (ho : o < 2 ^ 24) (ha : aligned o bytes.length = true)
    (hvalid : (d.getWindow 0).valid = true) (hwrite : (d.getWindow 0).write = true)
    (hcause : d.hostCause a true ((d.getWindow 0).base * 2 ^ 24 + o) bytes.length = 0)
    (hready : d.hbmWaits ((d.getWindow 0).base * 2 ^ 24 + o) = false) :
    apertureAccess a true o bytes d = d.hostWrite a ((d.getWindow 0).base * 2 ^ 24 + o) bytes := by
  unfold apertureAccess
  simp [-Nat.reducePow, hp, ha, hf, windowOf_first ho, hvalid, hwrite, hcause, hready]

/-- An access through a window that is not valid is blocked (R485). -/
theorem apertureAccess_invalid (hp : d.portUp a = true) (hf : a.fn = 0) (ho : o < 2 ^ 24) (ha : aligned o bytes.length = true)
    (hvalid : (d.getWindow 0).valid = false) :
    apertureAccess a write o bytes d = d.hostBlocked a 3 ((d.getWindow 0).base * 2 ^ 24 + o) := by
  unfold apertureAccess
  simp [-Nat.reducePow, hp, ha, hf, windowOf_first ho, hvalid]

/-- A blocked access answers Completer Abort and leaves memory and partitions. -/
theorem hostBlocked_leaves (d : Dev) (a : Access) (cause dpa : Nat) :
    Out.completerAbort ∈ (d.hostBlocked a cause dpa).clock.out ∧ (d.hostBlocked a cause dpa).mem = d.mem
      ∧ (d.hostBlocked a cause dpa).parts = d.parts := by
  unfold Dev.hostBlocked Dev.firewallEv Dev.abort
  generalize Ev.mk .. = ev
  obtain ⟨c, p, h, e, m, hq⟩ := raiseOnce_shape d ev
  rw [hq]
  exact ⟨List.mem_append_right _ List.mem_cons_self, rfl, rfl⟩

/-! ## AssayFeed (R583 to R585) -/

variable {die unit : Nat}

theorem feedFrom_feeds (hp : d.portUp a = true) (hf : a.fn = 0) (hdie : die < 4) (hunit : unit < 8)
    (hsource : (d.getAssay (8 * die + unit)).blk.source = 3) (hstate : (d.getAssay (8 * die + unit)).state = 1) (v : Nat) :
    d.feedFrom a die unit v =
      let e := if v.testBit 8 then d.modAssay (8 * die + unit) (fun y => y.feed [BitVec.ofNat 8 v]) else d
      if v.testBit 9 then e.assayClose (8 * die + unit) (e.getPart (e.getAssay (8 * die + unit)).blk.partition).job.jobBeat else e := by
  simp only [Dev.feedFrom, Dev.assayFeed, hp, hf, hdie, hunit, hsource, hstate, beq_self_eq_true, and_self, decide_true, Bool.and_self, gate_true]

/-- VALID alone feeds one byte. -/
theorem assayFeedByte_feeds (hp : d.portUp a = true) (hf : a.fn = 0) (hdie : die < 4) (hunit : unit < 8)
    (hsource : (d.getAssay (8 * die + unit)).blk.source = 3) (hstate : (d.getAssay (8 * die + unit)).state = 1) {x : Nat} (hx : x < 256) :
    assayFeedByte a die unit (256 + x) d = d.modAssay (8 * die + unit) (fun y => y.feed [BitVec.ofNat 8 x]) := by
  have h8 : (256 + x).testBit 8 = true := by simp [Nat.testBit, Nat.shiftRight_eq_div_pow]; omega
  have h9 : (256 + x).testBit 9 = false := Nat.testBit_lt_two_pow (by omega)
  have hbyte : BitVec.ofNat 8 (256 + x) = BitVec.ofNat 8 x := by apply BitVec.eq_of_toNat_eq; simp
  simp only [assayFeedByte, h8, gate_true, feedFrom_feeds hp hf hdie hunit hsource hstate, if_true, h9, hbyte, Bool.false_eq_true, if_false]

/-- FINISH alone closes the interval. -/
theorem assayFeedFinish_closes (hp : d.portUp a = true) (hf : a.fn = 0) (hdie : die < 4) (hunit : unit < 8)
    (hsource : (d.getAssay (8 * die + unit)).blk.source = 3) (hstate : (d.getAssay (8 * die + unit)).state = 1) :
    assayFeedFinish a die unit 512 d
      = d.assayClose (8 * die + unit) (d.getPart (d.getAssay (8 * die + unit)).blk.partition).job.jobBeat := by
  have h8 : Nat.testBit 512 8 = false := by decide
  have h9 : Nat.testBit 512 9 = true := by decide
  simp only [assayFeedFinish, h9, gate_true, feedFrom_feeds hp hf hdie hunit hsource hstate, h8, if_true, Bool.false_eq_true, if_false]

/-! ## Descriptor fetches (R440, R442) -/

variable {ring : Nat} {c : MbxCmd}

theorem descriptorFetch_fails (h : d.mayFetch ring = true) :
    descriptorFetch ring none d = d.modRing ring (fun q => { q with state := 2, errCause := 3 }) := by
  simp [descriptorFetch, h]

theorem descriptorFetch_fetched (h : d.mayFetch ring = true) : descriptorFetch ring (some c) d
    = (d.modRing ring (fun q => { q with head := (q.head + 1) % 2 ^ q.sizeLog2 })).runFetched { c with ring := ring } := by
  simp [descriptorFetch, h]

theorem runFetched_unknown (hs : specOf c = none) : d.runFetched c = d.finish c false { status := stBad, detail := 0 } := by
  simp [Dev.runFetched, hs]

theorem runFetched_known {sp : MbxSpec} (hs : specOf c = some sp) (hp : d.mustPark c = false) : d.runFetched c = (d.runMbx sp c).activatePause := by
  simp [Dev.runFetched, hs, hp]

end Sys2Proof.Machine

namespace Sys2Proof.Machine

/-- Settles O39: each access's conditions open its gate, and the effect behind it is read off. -/
theorem hostAccessResults : Obligations.HostAccessResults := by
  intro s a ring v
  dsimp only
  intro hl
  refine ⟨fun off size hp ha => gives_of_live hl rfl (registerWrite_unaligned hp ha),
    fun off size hp hf ha ho => gives_of_live hl rfl (registerWrite_readOnly hp hf ha ho),
    fun hm hb hs hv => gives_of_live hl rfl (registerWrite_doorbell hm hb hs hv), fun hm => completes_of_live hl rfl ?base,
    fun write o bytes hp h => gives_of_live hl rfl (apertureAccess_outside hp h),
    fun o bytes hp hf ho ha hvalid hwrite hcause hready =>
      gives_of_live hl rfl (apertureAccess_writes hp hf ho ha hvalid hwrite hcause hready),
    fun write o bytes hp hf ho ha hvalid => completes_of_live hl rfl ?blocked,
    fun die unit x hp hf hdie hunit hsource hstate hx => ⟨gives_of_live hl rfl (assayFeedByte_feeds hp hf hdie hunit hsource hstate hx),
      gives_of_live hl rfl (assayFeedFinish_closes hp hf hdie hunit hsource hstate)⟩,
    fun h => gives_of_live hl rfl (descriptorFetch_fails h),
    fun c h hs => gives_of_live hl rfl ((descriptorFetch_fetched h).trans (runFetched_unknown hs)),
    fun c sp h hs hp => gives_of_live hl rfl ((descriptorFetch_fetched h).trans (runFetched_known hs hp))⟩
  case base =>
    rw [registerWrite_descBase hm]
    simp only [settle_getRing, modRing_same]
    refine ⟨?_, ?_, fun r hr => modRing_ne _ _ hr⟩
    · split <;> rfl
    · split <;> rfl
  case blocked =>
    rw [apertureAccess_invalid hp hf ho ha hvalid, settle_clock, settle_mem, settle_parts]
    exact hostBlocked_leaves s.found a 3 _

end Sys2Proof.Machine

/-! PROOFS. Watchdogs, takeover and the activation of a firmware bank (R432, R458 to R462, R472, R553, R563), then O47. -/

namespace Sys2Proof.Machine

/-! ## What the mailboxes' service rests on -/

/-- The Bedrocks, the sessions, the commands under way and the wall. -/
structure Service where
  bed : Bedrock
  installer : Session
  maker : Session
  parked : List MbxCmd
  waiting : List Waiting
  wall : Nat

def Dev.service (d : Dev) : Service := ⟨d.bed, d.sec.installer, d.sec.maker, d.host.parked, d.host.waiting, d.clock.wall⟩

/-- The service once some commands that waited have ended. -/
def Service.without (v : Service) (ws : List Waiting) : Service := { v with waiting := v.waiting.filter (fun x => !ws.contains x) }

theorem without_nil (v : Service) : v.without [] = v := by
  have hall : v.waiting.filter (fun x => !([] : List Waiting).contains x) = v.waiting := List.filter_eq_self.2 (fun _ _ => rfl)
  rw [Service.without, hall]

/-- The commands that a test picks no longer wait once they have ended. -/
theorem not_picked_of_without {v : Service} {pick : Waiting → Bool} {w : Waiting} (h : w ∈ (v.without (v.waiting.filter pick)).waiting) :
    pick w = false := by
  obtain ⟨hmem, hnot⟩ := List.mem_filter.1 h
  exact Bool.eq_false_iff.2 (fun hp => by simp [hmem, hp] at hnot)

/-! ## What leaves it alone -/

section
variable (d : Dev)

@[simp] theorem raise_service (ev : Ev) : (d.raise ev).service = d.service := by
  obtain ⟨c, p, h, e, m, q⟩ := raise_shape d ev
  rw [q]; rfl

@[simp] theorem raiseOnce_service (ev : Ev) : (d.raiseOnce ev).service = d.service := by
  obtain ⟨c, p, h, e, m, q⟩ := raiseOnce_shape d ev
  rw [q]; rfl

theorem SendsOn.service {d e : Dev} (h : SendsOn d e) : e.service = d.service := by
  obtain ⟨_, _, _, _, _, rfl⟩ := h; rfl

@[simp] theorem refuse_service (r cyc : Nat) (p : Packet) (status : Nat) : (d.refuse r cyc p status).service = d.service := by
  unfold Dev.refuse
  split
  · generalize answerTo p status _ = a
    dsimp only
    split
    · rfl
    · rfl
  · rfl

@[simp] theorem noRoute_service (r cyc : Nat) (p : Packet) : (d.noRoute r cyc p).service = d.service :=
  (refuse_service _ r cyc p 1).trans (raiseOnce_service _ _)

@[simp] theorem enqueue_service (q : QPkt) : (d.enqueue q).service = d.service := by
  unfold Dev.enqueue
  dsimp only
  split
  · rfl
  · rfl

theorem forward_service (r inPort cyc : Nat) (p : Packet) : (d.forward r inPort cyc p).service = d.service := by
  have hdrop : ((d.freeBuffer r inPort p.vc (p.len + 1)).noRoute r cyc p).service = d.service :=
    (noRoute_service _ r cyc p).trans (freeBuffer_sendsOn d r inPort p.vc (p.len + 1)).service
  unfold Dev.forward
  split
  · exact hdrop
  · split
    · exact hdrop
    · dsimp only
      split
      · split
        · rfl
        · exact enqueue_service d _
      · exact enqueue_service d _

theorem releaseHeld_service (held : List QPkt) : (d.releaseHeld held).service = d.service :=
  (pumpLinks_sendsOn _).service.trans (each_keeps Dev.service _ (fun d q => forward_service d q.router q.inPort 0 q.pkt) held d)

theorem uncreate_service (n : Nat) : (d.uncreate n).service = d.service := by
  refine (each_keeps Dev.service _ (fun d h => by rfl) (d.getPart n).halfList _).trans ?_
  refine (each_keeps Dev.service _ (fun d k => ?_) (upTo 64) _).trans (each_keeps Dev.service _ (fun d k => by rfl) _ d)
  split
  · rfl
  · rfl

theorem stay_service (u : UnitId) : (d.stay u).service = d.service := by
  unfold Dev.stay
  dsimp only
  split
  · rfl
  · rfl

/-- R460: taking back what a command had begun. -/
theorem undo_service (w : Waiting) : (d.undo w).service = d.service := by
  unfold Dev.undo
  split
  · exact uncreate_service d _
  · split
    · exact (ite_left_or_right _ _ _).elim (fun h => by rw [h]; rfl) (fun h => by rw [h])
    · split
      · exact stay_service d _
      · split
        · exact (ite_left_or_right _ _ _).elim (fun h => by rw [h]; rfl) (fun h => by rw [h]; rfl)
        · split
          · split
            · exact releaseHeld_service _ _
            · rfl
          · exact (ite_left_or_right _ _ _).elim (fun h => by rw [h]; rfl) (fun h => by rw [h])

@[simp] theorem finish_service (c : MbxCmd) (audited : Bool) (r : Reply) : (d.finish c audited r).service = d.service := by
  obtain ⟨o, q, h⟩ := completeCmd_shape d c.ring c.opcode c.tag (d.getRing c.ring).head c.irq audited c.cplFails c.bufAddr r
  rw [Dev.finish, h]; rfl

/-- A command that waited completes: it waits no more. -/
theorem completeLate_service (w : Waiting) (r : Reply) : (d.completeLate w r).service = d.service.without [w] := by
  have hcontains : ∀ x : Waiting, (!([w] : List Waiting).contains x) = !(x == w) := fun x => by
    rw [List.contains_cons, List.contains_nil, Bool.or_false]
  unfold Dev.completeLate Service.without
  dsimp only
  obtain ⟨o, q, h⟩ := completeCmd_shape { (if w.ring = 64 ∧ storesConfig w.opcode ∧ r.status = stOk then d.saveConfig else d) with
    host.waiting := (if w.ring = 64 ∧ storesConfig w.opcode ∧ r.status = stOk then d.saveConfig else d).host.waiting.filter (fun x => !(x == w)) }
    w.ring w.opcode w.tag w.headAfter w.irq w.audited false 0 r
  rw [h]
  simp only [hcontains]
  split
  · rfl
  · rfl

/-- Commands that waited complete one after another. -/
theorem each_without {f : Dev → Waiting → Dev} (h : ∀ d w, (f d w).service = d.service.without [w]) (ws : List Waiting) :
    (Dev.each ws f d).service = d.service.without ws := by
  induction ws generalizing d with
  | nil => exact (without_nil d.service).symm
  | cons w ws ih =>
    refine (ih (f d w)).trans ?_
    simp [h, Service.without, List.filter_filter, Bool.and_comm]

theorem completeAll_service (pick : Waiting → Bool) (r : Waiting → Reply) :
    (d.completeAll pick r).service = d.service.without (d.host.waiting.filter pick) :=
  each_without d (fun d w => completeLate_service d w (r w)) _

/-- R460: commands that waited end, and what they had begun is taken back. -/
theorem each_undone (r : Reply) (ws : List Waiting) :
    (Dev.each ws (fun d w => (d.undo w).completeLate w r) d).service = d.service.without ws :=
  each_without d (fun d w => (completeLate_service _ w r).trans (congrArg (Service.without · [w]) (undo_service d w))) ws

theorem dropParked_service (pick : MbxCmd → Bool) (r : Reply) :
    (d.dropParked pick r).service = { d.service with parked := d.host.parked.filter (fun c => !pick c) } :=
  each_keeps Dev.service _ (fun d c => finish_service d c false r) _ _

theorem selfReset_begins (cause attempt : Nat) :
    (d.selfReset cause attempt).boot.phase = .selfReset ∧ (d.selfReset cause attempt).boot.record.cause = cause := ⟨rfl, rfl⟩

/-! ## A firmware bank takes over (R462, R472, R563) -/

theorem completeAll_bed (pick : Waiting → Bool) (r : Waiting → Reply) : (d.completeAll pick r).bed = d.bed :=
  congrArg Service.bed (completeAll_service d pick r)

/-- What completes writes the configuration store at most. -/
theorem completeLate_activeBank (w : Waiting) (r : Reply) :
    ((d.completeLate w r).flash.activeBank, (d.completeLate w r).flash.activeRec) = (d.flash.activeBank, d.flash.activeRec) := by
  unfold Dev.completeLate
  dsimp only
  obtain ⟨o, q, h⟩ := completeCmd_shape { (if w.ring = 64 ∧ storesConfig w.opcode ∧ r.status = stOk then d.saveConfig else d) with
    host.waiting := (if w.ring = 64 ∧ storesConfig w.opcode ∧ r.status = stOk then d.saveConfig else d).host.waiting.filter (fun x => !(x == w)) }
    w.ring w.opcode w.tag w.headAfter w.irq w.audited false 0 r
  rw [h]
  dsimp only
  split
  · rfl
  · rfl

theorem completeAll_activeBank (pick : Waiting → Bool) (r : Waiting → Reply) :
    ((d.completeAll pick r).flash.activeBank, (d.completeAll pick r).flash.activeRec) = (d.flash.activeBank, d.flash.activeRec) :=
  each_keeps (fun d => (d.flash.activeBank, d.flash.activeRec)) _ (fun d w => completeLate_activeBank d w (r w)) _ d

@[simp] theorem runsImage_bed (die : Nat) : (d.runsImage die).bed =
    { d.bed with fwVersion := tabSet 0 die (fwVersion (d.flash.bank d.bed.primary d.bed.fwBank).image) d.bed.fwVersion } := raise_bed _ _

@[simp] theorem runsImage_flash (die : Nat) : (d.runsImage die).flash = d.flash := raise_flash _ _

theorem runsImage_waiting (die : Nat) : (d.runsImage die).host.waiting = d.host.waiting := congrArg Service.waiting (raise_service _ _)

end

section
variable {d : Dev}

/-- The active-bank record is written, and the mailboxes serve again (R462, R563 steps 2 and 3). -/
def Dev.bankServes (d : Dev) : Dev :=
  ({ d with flash.activeBank := d.bed.fwBank, flash.activeRec := d.flash.activeRec.commit, bed.activeBank := d.bed.fwBank } : Dev).setBed (fun x =>
    { x with paused := false, pauseCause := 0, fwPhase := 3, fwSwitch := 0, fwSince := d.clock.wall })

theorem fwActivateTakeover_due (hp : d.bed.fwPhase = 2) (hs : d.bed.fwSince < d.clock.wall) : ∃ r : Waiting → Reply, fwActivateTakeover d =
    ((d.bankServes.runsImage d.bed.primary).completeAll (fun w => w.opcode == 0x0061) r).setBed (fun x => { x with standbyOk := false }) := by
  unfold fwActivateTakeover
  rw [hp, decide_eq_true hs, beq_self_eq_true, Bool.and_self, gate_true]
  exact ⟨_, rfl⟩

theorem fwActivateTakeover_runs (hp : d.bed.fwPhase = 2) (hs : d.bed.fwSince < d.clock.wall) :
    let e := fwActivateTakeover d
    e.bed.activeBank = d.bed.fwBank ∧ e.flash.activeBank = d.bed.fwBank ∧ e.flash.activeRec = d.flash.activeRec.commit ∧ e.bed.paused = false
      ∧ e.bed.fwPhase = 3 ∧ e.bed.standbyOk = false ∧ e.bed.primary = d.bed.primary ∧ ∀ w ∈ e.host.waiting, w.opcode ≠ 0x0061 := by
  obtain ⟨r, heq⟩ := fwActivateTakeover_due hp hs
  have hbank := completeAll_activeBank (d.bankServes.runsImage d.bed.primary) (fun w => w.opcode == 0x0061) r
  have hservice := completeAll_service (d.bankServes.runsImage d.bed.primary) (fun w => w.opcode == 0x0061) r
  rw [heq]
  generalize Dev.completeAll _ _ _ = y at hbank hservice
  have hbed := (congrArg Service.bed hservice).trans (runsImage_bed d.bankServes d.bed.primary)
  rw [runsImage_flash] at hbank
  refine ⟨congrArg Bedrock.activeBank hbed, congrArg Prod.fst hbank, congrArg Prod.snd hbank, congrArg Bedrock.paused hbed,
    congrArg Bedrock.fwPhase hbed, rfl, (congrArg Bedrock.primary hbed :), fun w hw => ?_⟩
  have hw' : w ∈ y.service.waiting := hw
  rw [hservice] at hw'
  exact beq_eq_false_iff_ne.1 (not_picked_of_without hw')

theorem fwSwitchDie_switches {die : Nat} (hp : d.bed.fwPhase = 3) (hd : d.switchOrder.getD d.bed.fwSwitch 4 = die) :
    let e := fwSwitchDie die d
    e.bed.fwSwitch = d.bed.fwSwitch + 1 ∧ tabGet 0 die e.bed.fwVersion = fwVersion (d.flash.bank d.bed.primary d.bed.fwBank).image
      ∧ e.bed.fwPhase = if d.bed.fwSwitch = 2 then 0 else 3 := by
  unfold fwSwitchDie
  simp only [hp, hd, beq_self_eq_true, Bool.and_self, gate_true, Dev.setBed, runsImage_bed, tabGet_tabSet_same, Nat.reduceEqDiff, true_and]

theorem fwActivateTimeout_due (hp : d.bed.fwPhase = 2) (hd : d.due d.bed.fwSince 250000000 = true) : fwActivateTimeout d = d.takeover := by
  unfold fwActivateTimeout
  rw [hp, hd, beq_self_eq_true, Bool.and_self, gate_true]

/-! ## The primary's watchdog and the takeover (R459, R460, R482) -/

theorem primaryWatchdogExpiry_due (hr : d.bed.ready = true) (ht : d.bed.takeoverSince = none) (hp : d.bed.fwPhase = 0) :
    primaryWatchdogExpiry d = if d.bed.standbyOk then d.takeover else d.selfReset 2 1 := by
  unfold primaryWatchdogExpiry
  simp [hr, ht, hp, gate_true]

theorem audit_service (role session opcode ring target : Nat) (old new : List Byte) :
    (d.audit role session opcode ring target old new).service = d.service := raise_service _ _

theorem closeSessions_service :
    ((d.closeSession 64).closeSession 65).service = { d.service with installer := Session.closed, maker := Session.closed } :=
  rfl

theorem uncommitted_congr {e : Dev} (h : e.parts = d.parts) : e.uncommitted = d.uncommitted := by
  funext w
  simp only [Dev.uncommitted, Dev.getPart, h]

theorem takeoverResume_resumes (h : d.bed.takeoverSince.isSome = true) :
    let e := takeoverResume d
    e.bed.primary = d.otherBedrock ∧ e.bed.failovers = satAdd 8 d.bed.failovers 1 ∧ e.bed.standbyOk = false ∧ e.bed.paused = false
      ∧ e.bed.takeoverSince = none ∧ e.sec.installer.isOpen = false ∧ e.sec.maker.isOpen = false ∧ e.host.parked = []
      ∧ ∀ w ∈ e.host.waiting, d.uncommitted w = false := by
  unfold takeoverResume
  rw [h, gate_true]
  dsimp only
  have haudit := audit_service (d := d) 3 0 0 0xFF 0 (natLe 1 d.bed.primary) (natLe 1 d.otherBedrock)
  have hparts : (d.audit 3 0 0 0xFF 0 (natLe 1 d.bed.primary) (natLe 1 d.otherBedrock)).parts = d.parts := raise_parts _ _
  generalize d.audit 3 0 0 0xFF 0 (natLe 1 d.bed.primary) (natLe 1 d.otherBedrock) = x at haudit hparts
  have hclosed := closeSessions_service (d := x)
  have hparts' : ((x.closeSession 64).closeSession 65).parts = d.parts := hparts
  generalize (x.closeSession 64).closeSession 65 = y at hclosed hparts'
  rw [haudit] at hclosed
  have hended := each_undone y { status := stInternal, detail := 1 } (y.host.waiting.filter y.uncommitted)
  generalize Dev.each (y.host.waiting.filter y.uncommitted) _ y = z at hended
  have hdropped := dropParked_service z (fun _ => true) { status := stInternal, detail := 1 }
  generalize z.dropParked _ _ = v at hdropped
  have hall : v.service = { y.service.without (y.service.waiting.filter d.uncommitted) with parked := [] } := by
    rw [hdropped, hended, uncommitted_congr hparts']
    simp [Dev.service]
  rw [hclosed] at hall
  have hbed : v.bed = d.bed := congrArg Service.bed hall
  refine ⟨rfl, (congrArg (fun b : Bedrock => satAdd 8 b.failovers 1) hbed :), rfl, rfl, rfl, congrArg (fun q : Service => q.installer.isOpen) hall,
    congrArg (fun q : Service => q.maker.isOpen) hall, congrArg Service.parked hall, fun w hw => ?_⟩
  have hw' : w ∈ v.service.waiting := hw
  rw [hall] at hw'
  exact not_picked_of_without (v := d.service) hw'

theorem standbyRestartDone_serves {ok : Bool} (h : d.bed.standbyRestart.isSome = true) : standbyRestartDone ok d =
    ({ d with bed.standbyRestart := none } : Dev).setBed (fun b =>
      { b with standbyOk := ok && d.bankOk d.otherBedrock d.bed.activeBank && d.bed.securityMatch }) := by
  unfold standbyRestartDone
  rw [h, gate_true]

/-! ## The Bedrocks of P1 and P3 (R461, R553) -/

variable {die : Nat}

theorem subdieWatchdogExpiry_restarts (hr : d.bed.ready = true) (hdie : die = 1 ∨ die = 3)
    (hn : d.bed.subdieRestart.any (fun x => x.1 == die) = false) :
    subdieWatchdogExpiry die d = { d with bed.subdieRestart := tabSet 0 die (d.clock.wall + 1) d.bed.subdieRestart } := by
  have hsub : (die == 1 || die == 3) = true := by simpa using hdie
  unfold subdieWatchdogExpiry
  rw [hr, hsub, hn, Bool.not_false, Bool.and_self, Bool.and_self, gate_true]

theorem subdieRestartDone_idle (ha : d.bed.subdieRestart.any (fun x => x.1 == die) = true) (hp : d.host.parked = []) :
    subdieRestartDone die d = { d with
      bed.subdieRestart := d.bed.subdieRestart.filter (fun x => x.1 != die)
      bed.subdieFails := tabSet 0 die 0 d.bed.subdieFails
      host.parked := [] } := by
  unfold subdieRestartDone
  rw [ha, gate_true]
  simp only [hp, List.filter_nil]
  rfl

/-- R461, R553: once the commands that need the die have ended, the Bedrock starts again, or the device does. -/
theorem subdieRestartTimeout_due (hs : 0 < tabGet 0 die d.bed.subdieRestart)
    (hd : d.due (tabGet 0 die d.bed.subdieRestart - 1) 2000000000 = true) : ∃ e : Dev,
    e.bed = d.bed ∧ e.clock.wall = d.clock.wall ∧ (∀ w ∈ e.host.waiting, waitNeeds w die = false) ∧
    subdieRestartTimeout die d = if 1 ≤ tabGet 0 die e.bed.subdieFails then e.selfReset 3 1
      else { e with bed.subdieRestart := tabSet 0 die (e.clock.wall + 1) e.bed.subdieRestart
                    bed.subdieFails := tabSet 0 die (tabGet 0 die e.bed.subdieFails + 1) e.bed.subdieFails } := by
  unfold subdieRestartTimeout
  dsimp only
  rw [hd, decide_eq_true hs, Bool.and_self, gate_true]
  have hended := each_undone d { status := stInternal, detail := 3 } (d.host.waiting.filter (fun w => waitNeeds w die))
  generalize Dev.each (d.host.waiting.filter _) _ d = z at hended
  have hdropped := dropParked_service z (z.host.parked.filter (fun c => (z.needsDies c).contains die)).contains { status := stInternal, detail := 3 }
  refine ⟨_, ?_, ?_, fun w hw => ?_, rfl⟩
  · exact (congrArg Service.bed hdropped).trans (congrArg Service.bed hended)
  · exact (congrArg Service.wall hdropped).trans (congrArg Service.wall hended)
  · have hw' : w ∈ (z.dropParked (z.host.parked.filter (fun c => (z.needsDies c).contains die)).contains
        { status := stInternal, detail := 3 }).service.waiting := hw
    rw [hdropped, hended] at hw'
    exact not_picked_of_without (v := d.service) hw'

end

end Sys2Proof.Machine

namespace Sys2Proof.Machine

/-- Settles O47: the commands that end keep the Bedrocks as they are, and each command's own change is read off. -/
theorem bedrockResults : Obligations.BedrockResults := by
  intro s
  dsimp only
  intro hl
  refine ⟨fun h => gives_of_live hl rfl (by rw [heartbeatTick, h, gate_true]), fun h => gives_of_live hl rfl (by rw [heartbeatTick, h, gate_false]),
    fun hp hs => completes_of_live hl rfl (fwActivateTakeover_runs hp hs), fun die hp hd => completes_of_live hl rfl (fwSwitchDie_switches hp hd),
    fun hp hd => completes_of_live hl rfl ?timeout, fun hr ht hp hok => completes_of_live hl rfl ?standby,
    fun hr ht hp hno => completes_of_live hl rfl ?reset, fun h => completes_of_live hl rfl (takeoverResume_resumes h),
    fun ok h => completes_of_live hl rfl ?done, fun die hr hdie hn => gives_of_live hl rfl (subdieWatchdogExpiry_restarts hr hdie hn),
    fun die ha hp => completes_of_live hl rfl ?subdie, fun die hs hd => ?again⟩
  case timeout => rw [fwActivateTimeout_due hp hd]; exact ⟨rfl, rfl, rfl, rfl, rfl⟩
  case standby => rw [primaryWatchdogExpiry_due hr ht hp, if_pos hok]; exact ⟨rfl, rfl, rfl, rfl, rfl⟩
  case reset => rw [primaryWatchdogExpiry_due hr ht hp, hno]; exact selfReset_begins s.found 2 1
  case done => rw [standbyRestartDone_serves h]; exact ⟨rfl, rfl, rfl⟩
  case subdie =>
    rw [subdieRestartDone_idle ha hp]
    exact ⟨by simp [settle, List.any_filter], tabGet_tabSet_same 0 0 die s.found.bed.subdieFails, by rw [← hp]; rfl⟩
  case again =>
    obtain ⟨e, hbed, hwall, hwaits, heq⟩ := subdieRestartTimeout_due hs hd
    rw [hbed, hwall] at heq
    refine ⟨fun hf => completes_of_live hl rfl ?_, fun hf => completes_of_live hl rfl ?_⟩
    · rw [heq, if_neg (by omega), hf]
      exact ⟨tabGet_tabSet_same 0 1 die s.found.bed.subdieFails,
        tabGet_tabSet_same 0 (s.found.clock.wall + 1) die s.found.bed.subdieRestart, hwaits⟩
    · rw [heq, if_pos (Nat.succ_le_of_lt hf)]
      exact selfReset_begins e 3 1

end Sys2Proof.Machine

/-! PROOFS. A boot stage at its deadline (R530, R531, R546, R547), then O23. -/

namespace Sys2Proof.Machine

section
variable (d : Dev)

/-- R531: a first attempt that fails leaves its result in the records, and the second one begins. -/
theorem stageFail_again {result die unit : Nat} (ha : d.boot.record.attempt < 2) :
    let e := d.stageFail result die unit
    e.boot.phase = .selfReset ∧ e.boot.record.cause = 4 ∧ e.boot.record.attempt = 2 ∧ e.boot.records.head?.map (·.result) = some result := by
  have heq : d.stageFail result die unit =
      ({ d with boot.record := { d.boot.record with result := result, failDie := die, failUnit := unit } } : Dev).pushRecord.selfReset 4 2 := by
    unfold Dev.stageFail
    exact if_pos ha
  rw [heq]
  exact ⟨rfl, rfl, rfl, rfl⟩

/-- R531, R532: a failure of another stage than stage 1 on the second attempt. -/
theorem stageFail_last {result die unit : Nat} (ha : ¬ d.boot.record.attempt < 2) (hr : result ≠ 3) :
    (d.stageFail result die unit).boot.phase = .bootFailed := by
  have heq : d.stageFail result die unit =
      ({ d with boot.record := { d.boot.record with result := result, failDie := die, failUnit := unit } } : Dev).pushRecord.enter .bootFailed := by
    unfold Dev.stageFail
    exact (if_neg ha).trans (if_neg (fun h => hr h.1))
  rw [heq]
  rfl

theorem startTraining_boot : d.startTraining.boot = d.boot := by
  refine (each_keeps Dev.boot _ (fun d l => by rfl) (upTo 4) _).trans (each_keeps Dev.boot _ (fun d n => ?_) (upTo 16) d)
  have hstore : (d.linkFromStore n).boot = d.boot := by
    unfold Dev.linkFromStore
    split
    · rfl
    · rfl
  dsimp only
  split
  · exact hstore
  · exact hstore

/-- The next stage begins, and the links train in it. -/
theorem startTraining_phase (n ms : Nat) : (d.endStage n ms).startTraining.boot.phase = .stage (n + 1) := by
  rw [startTraining_boot]; rfl

theorem endBoot_phase (ms : Nat) : (d.endBoot ms).boot.phase = .ready := by
  unfold Dev.endBoot
  dsimp only
  split
  · rw [raise_boot]; rfl
  · rfl

end

/-- R530: what a stage at its deadline does. -/
theorem bootStageDeadline_due {d : Dev} {n : Nat} (hp : d.boot.phase = .stage n) (hd : d.due d.boot.since (1000000 * stageLimit n) = true) :
    bootStageDeadline d =
      if n = 0 then d.stageFail 1 0xFF 0
      else if n = 1 then d.stageFail 3 0 0
      else if n = 2 then d.stageFail 4 0xFF 0
      else if n = 3 then d.stageFail 6 0xFF 0
      else if n = 4 then ((Dev.each (upTo 20) Dev.stackGone d).endStage 4 1800).startTraining
      else if n = 5 then (if d.d2dActive then d.endStage 5 1300 else d.stageFail 7 0xFF 0)
      else d.endBoot 100 := by
  unfold bootStageDeadline
  rw [hp]
  dsimp only
  rw [hd, gate_true]

/-- Settles O23: the stage's own branch fails it, or goes on to the next. -/
theorem bootDeadlineResults : Obligations.BootDeadlineResults := by
  intro s n
  dsimp only
  intro hp hd
  have hl : Live s := congrArg Phase.live hp
  have hdue := bootStageDeadline_due hp hd
  refine ⟨fun hn ha => completes_of_live hl rfl ?first, fun hn ha => completes_of_live hl rfl ?second, fun hn => completes_of_live hl rfl ?hbm,
    fun hn => completes_of_live hl rfl ?config⟩
  case first =>
    rw [hdue]
    match n, hn with
    | 0, _ => exact stageFail_again s.found ha
    | 1, _ => exact stageFail_again s.found ha
    | 2, _ => exact stageFail_again s.found ha
    | 3, _ => exact stageFail_again s.found ha
  case second =>
    subst hn
    rw [show bootStageDeadline s.found = s.found.stageFail 4 0xFF 0 from hdue]
    exact stageFail_last s.found (Nat.not_lt.2 ha) (by decide)
  case hbm =>
    subst hn
    rw [show bootStageDeadline s.found = ((Dev.each (upTo 20) Dev.stackGone s.found).endStage 4 1800).startTraining from hdue, settle_boot]
    exact startTraining_phase (Dev.each (upTo 20) Dev.stackGone s.found) 4 1800
  case config =>
    subst hn
    rw [show bootStageDeadline s.found = s.found.endBoot 100 from hdue, settle_boot]
    exact endBoot_phase s.found 100

end Sys2Proof.Machine

/-! PROOFS. The control step, throttling, hold limits and guarantees (R502 to R512), then O45. -/

namespace Sys2Proof.Machine

/-! ## Functions applied along a list -/

theorem each_fixed {α : Type} {f : Dev → α → Dev} {d : Dev} (h : ∀ a, f d a = d) (l : List α) : Dev.each l f d = d := by
  unfold Dev.each
  induction l with
  | nil => rfl
  | cons a l ih => rw [List.foldl_cons, h, ih]

/-- Entries of a table changed one after another, each by its own key. -/
theorem each_modify {β : Type} {g : Dev → Nat → β} {f : Dev → Nat → Dev} {h : β → β} (hsame : ∀ d k, g (f d k) k = h (g d k))
    (hother : ∀ d k j, j ≠ k → g (f d k) j = g d j) {l : List Nat} (hl : l.Nodup) (d : Dev) (j : Nat) :
    g (Dev.each l f d) j = if j ∈ l then h (g d j) else g d j := by
  induction l generalizing d with
  | nil => rfl
  | cons k l ih =>
    obtain ⟨hk, hl'⟩ := List.nodup_cons.1 hl
    refine (ih hl' (f d k)).trans ?_
    rcases Decidable.em (j = k) with rfl | hj
    · rw [if_neg hk, hsame, if_pos List.mem_cons_self]
    · simp [hother _ _ _ hj, hj]

/-! ## What a control step measures (R502, R503, R509) -/

section
variable (d : Dev)

@[simp] theorem askHolds_pow (n k : Nat) : (d.askHolds n k).pow = d.pow := by
  unfold Dev.askHolds Dev.holdRequest
  dsimp only
  split
  · split
    · rfl
    · rfl
  · rfl

@[simp] theorem powerEvAt_pow (h cause flags cls idx ms : Nat) : (d.powerEvAt h cause flags cls idx ms).pow = d.pow := raise_pow _ _
@[simp] theorem powerEv_pow (cause flags cls idx ms : Nat) : (d.powerEv cause flags cls idx ms).pow = d.pow := raise_pow _ _
@[simp] theorem powerEv_getPart (cause flags cls idx ms n : Nat) : (d.powerEv cause flags cls idx ms).getPart n = d.getPart n := raise_getPart _ _ _

theorem applyGuarantees_keeps {β : Type} (g : Dev → β) (hg : ∀ d k f, g (d.modGuar k f) = g d) : g d.applyGuarantees = g d := by
  refine each_keeps g _ (fun d k => ?_) _ d
  split
  · rfl
  · exact hg _ _ _

/-- R503: P10 and CAP_EFF are formed. -/
def Dev.measure (d : Dev) : Dev := { d with pow.p10 := d.meanPower, pow.capEff := d.capNow }

/-- Where no value waits, the guarantees that wait take effect, and the step measures. -/
theorem controlValues_eq {d : Dev} (hp : d.pow.pend = []) : d.controlValues = ({ d with pow.pend := [] } : Dev).applyGuarantees.measure := by
  have hnone : Dev.each d.pow.pend Dev.applyPolicy d = d := by rw [hp]; rfl
  unfold Dev.controlValues Dev.measure
  rw [hnone]

theorem controlValues_keeps {d : Dev} (hp : d.pow.pend = []) : d.controlValues.parts = d.parts
    ∧ d.controlValues.pow = { d.pow with pend := [], p10 := d.meanPower, capEff := d.capNow } := by
  rw [controlValues_eq hp]
  have hpow := applyGuarantees_keeps ({ d with pow.pend := [] } : Dev) Dev.pow (fun _ _ _ => by rfl)
  have htherm := applyGuarantees_keeps ({ d with pow.pend := [] } : Dev) Dev.therm (fun _ _ _ => by rfl)
  have hparts := applyGuarantees_keeps ({ d with pow.pend := [] } : Dev) Dev.parts (fun _ _ _ => by rfl)
  generalize Dev.applyGuarantees _ = e at hpow htherm hparts
  refine ⟨hparts, ?_⟩
  simp only [Dev.measure, Dev.meanPower, Dev.capNow, hpow, htherm]

theorem controlValues_getGuar {d : Dev} (hp : d.pow.pend = []) (hg : ∀ k, d.getGuar k = {}) (k : Nat) : d.controlValues.getGuar k = {} := by
  have hfix : ({ d with pow.pend := [] } : Dev).applyGuarantees = { d with pow.pend := [] } :=
    each_fixed (fun k => by rw [show Dev.getGuar { d with pow.pend := [] } k = {} from hg k]) _
  rw [controlValues_eq hp, hfix]
  exact hg k

/-! ## The levels that a step decides -/

/-- What a control step measures, and the levels it decides. -/
def Power.decided (p : Power) : Nat × Nat × Nat × List (Nat × Levels) × Nat := (p.p10, p.capEff, p.hold, p.levelsNext, p.under)

def Power.measured (p : Power) : Nat × Nat := (p.p10, p.capEff)

theorem controlEvents_decided (was above : Bool) : (d.controlEvents was above).pow.decided = d.pow.decided := by
  unfold Dev.controlEvents
  split
  · dsimp only
    rw [powerEv_pow]; rfl
  · split
    · dsimp only
      rw [powerEvAt_pow]; rfl
    · rfl

theorem throttle_measured (allowed : Nat → Bool) : (d.throttle allowed).pow.measured = d.pow.measured := by
  have hsteps : ∀ soft : List (Nat × Nat × Nat), (Dev.each soft (fun d x =>
      let l := d.levelsOf x.1
      let d := d.setLevels x.1 (l.set x.2.1 (l.get x.2.1 + 1))
      if d.intervalJ x.1 < (d.getGuar (4 * x.1 + 3)).v1 then
        d.modGuar (4 * x.1 + 3) (fun g => if g.rank = 0 then g else { g with throttled := true }) else d) d).pow.measured
      = d.pow.measured := fun soft => by
    refine each_keeps (fun d => d.pow.measured) _ (fun d x => ?_) soft d
    dsimp only
    split
    · rfl
    · rfl
  unfold Dev.throttle
  dsimp only
  split
  · rfl
  · split
    · exact hsteps _
    · exact hsteps _

theorem latencyStep_measured (n : Nat) : (d.latencyStep n).pow.measured = d.pow.measured := by
  unfold Dev.latencyStep
  dsimp only
  split
  · rfl
  · split
    · rfl
    · rfl

theorem controlThrottle_measured : d.controlThrottle.pow.measured = d.pow.measured := by
  unfold Dev.controlThrottle
  refine (each_keeps (fun d => d.pow.measured) _ latencyStep_measured _ _).trans ?_
  refine (each_keeps (fun d => d.pow.measured) _ (fun d h => throttle_measured d _) _ _).trans ?_
  split
  · exact throttle_measured d _
  · rfl

theorem release_measured : d.release.pow.measured = d.pow.measured := by
  have hdrop : (if (d.pow.hold - 1) = 0 then ({ d with pow.hold := d.pow.hold - 1 } : Dev).askHolds 0 0
      else { d with pow.hold := d.pow.hold - 1 }).pow.measured = d.pow.measured := by
    split
    · rw [askHolds_pow]; rfl
    · rfl
  unfold Dev.release
  dsimp only
  split
  · split
    · exact hdrop
    · rfl
  · split
    · exact hdrop
    · rfl

/-- Steps in a row below 0.97 × CAP_EFF, with this one. -/
def Dev.lowSteps (d : Dev) : Nat :=
  if decide (d.pow.p10 * 100 < 97 * d.pow.capEff * 1000) && d.overHalves.isEmpty then d.pow.under + 1 else 0

/-- R503 step 4: the steps well below the cap are counted, and the tenth releases. -/
theorem controlRelease_eq {n : Nat} (hn : d.lowSteps = n) :
    d.controlRelease = if n = 10 then ({ d with pow.under := n % 10 } : Dev).release else { d with pow.under := n % 10 } := by
  subst hn; rfl

theorem controlRelease_measured : d.controlRelease.pow.measured = d.pow.measured := by
  rw [controlRelease_eq d rfl]
  split
  · exact release_measured _
  · rfl

theorem controlNote_decided : d.controlNote.pow.decided = d.pow.decided := rfl

theorem Power.measured_eq {p q : Power} (h : p.decided = q.decided) : p.measured = q.measured :=
  congrArg (fun x : Nat × Nat × Nat × List (Nat × Levels) × Nat => (x.1, x.2.1)) h

/-- After its measurements a step throttles, releases, and notes what it has done. -/
theorem controlStep_decided : (controlStep d).pow.decided = d.controlValues.controlThrottle.controlRelease.pow.decided :=
  (controlEvents_decided d.controlValues.controlThrottle.controlRelease.controlNote d.controlValues.unthrottled d.controlValues.isOver).trans
    (controlNote_decided _)

/-- R503: P10 and CAP_EFF stand as the step has formed them. -/
theorem controlStep_measures {d : Dev} (hp : d.pow.pend = []) :
    (controlStep d).pow.p10 = d.meanPower ∧ (controlStep d).pow.capEff = d.capNow := by
  have hkept := (Power.measured_eq (controlStep_decided d)).trans ((controlRelease_measured _).trans (controlThrottle_measured _))
  rw [(controlValues_keeps hp).2] at hkept
  simpa only [Power.measured, Prod.mk.injEq] using hkept

/-! ## Steps of a calm device: no value waits, no guarantee is set, and no half is over on its own -/

theorem latencyStep_unset {e : Dev} {n : Nat} (h : e.getGuar (4 * n + 2) = {}) : e.latencyStep n = e := by
  unfold Dev.latencyStep
  dsimp only
  rw [h, if_pos (.inl rfl)]

/-- What a step throttles where no guarantee is set and no half is over on its own: the device as a whole. -/
theorem controlThrottle_calm {c e : Dev} (he : (if c.isOver then c.throttle (fun _ => true) else c) = e) (hg : ∀ k, e.getGuar k = {})
    (ho : c.overHalves = []) : c.controlThrottle = e := by
  have hlatency : Dev.each (upTo 8) Dev.latencyStep e = e := each_fixed (fun n => latencyStep_unset (hg _)) _
  unfold Dev.controlThrottle
  dsimp only
  rw [ho, he]
  exact hlatency

/-- The hold level rises by one (R506). -/
def Dev.raiseHold (c : Dev) : Dev := { c with pow.hold := c.pow.hold + 1 }

theorem raiseHold_getGuar (c : Dev) (k : Nat) : c.raiseHold.getGuar k = c.getGuar k := rfl

/-- Where no partition outside lockstep can step, throttling raises the hold level (R506). -/
theorem throttle_holds {c : Dev} {allowed : Nat → Bool}
    (hsoft : (upTo 8).filterMap (fun n => if allowed n ∧ (c.getPart n).live ∧ !(c.getPart n).lockRun then
      (c.offer n).map (fun x => (n, x.1, x.2)) else none) = [])
    (hlock : c.pow.hold < 12 ∧ (upTo 8).any (fun n => allowed n && (c.getPart n).lockRun) = true) :
    c.throttle allowed = c.raiseHold := by
  unfold Dev.throttle
  dsimp only
  rw [hsoft, if_pos hlock]
  exact if_pos ⟨hlock, rfl⟩

/-- Where every partition that runs is in lockstep, the whole device throttles by holds. -/
theorem throttle_lockstep {c : Dev} (hh : c.pow.hold < 12) (ha : c.anyLock = true)
    (hl : ∀ n, (c.getPart n).live = true → (c.getPart n).lockRun = true) :
    c.throttle (fun _ => true) = c.raiseHold := by
  refine throttle_holds (List.filterMap_eq_nil_iff.2 (fun n _ => if_neg (fun h => ?_))) ⟨hh, ha⟩
  obtain ⟨-, hlive, hsoft⟩ := h
  simp [hl n hlive] at hsoft

/-- Where no level is throttled, a release lowers the hold level (R503 step 4). -/
theorem release_hold {c : Dev} (hn : c.pow.levelsNext = []) (hh : 0 < c.pow.hold) :
    c.release.pow.hold = c.pow.hold - 1 ∧ c.release.pow.under = c.pow.under := by
  have hlevel : ∀ n m, (c.levelsOf n).get m = 0 := fun n m => by
    rw [Dev.levelsOf, hn]
    unfold Levels.get
    split
    · rfl
    · split
      · rfl
      · rfl
  have hsoft : (upTo 8).filterMap (fun n => (c.standing n).map (fun x => (n, x.1, x.2))) = [] :=
    List.filterMap_eq_nil_iff.2 (fun n _ => by simp [Dev.standing, hlevel])
  unfold Dev.release
  dsimp only
  rw [hsoft]
  dsimp only [List.foldl_nil]
  rw [if_pos hh]
  split
  · rw [askHolds_pow]; exact ⟨rfl, rfl⟩
  · exact ⟨rfl, rfl⟩

end

section
variable {d : Dev}

theorem controlValues_overHalves (hp : d.pow.pend = []) : d.controlValues.overHalves = d.overHalves := by
  have hhalf : ∀ h, d.controlValues.halfOver h = d.halfOver h := fun h => by simp only [Dev.halfOver, (controlValues_keeps hp).2]
  rw [Dev.overHalves, funext hhalf, Dev.overHalves]

theorem controlValues_isOver (hp : d.pow.pend = []) : d.controlValues.isOver = decide (d.capNow * 1000 < d.meanPower) := by
  rw [Dev.isOver, (controlValues_keeps hp).2]

/-- A release waits for ten steps below 0.97 × CAP_EFF. -/
theorem controlRelease_waits (h : d.pow.p10 * 100 < 97 * d.pow.capEff * 1000 → d.pow.under < 9) :
    d.controlRelease.pow.hold = d.pow.hold ∧ d.controlRelease.pow.levelsNext = d.pow.levelsNext := by
  have hten : d.lowSteps ≠ 10 := by
    unfold Dev.lowSteps
    split
    · next hlow =>
      have hu := h (of_decide_eq_true (Bool.and_eq_true_iff.1 hlow).1)
      omega
    · decide
  rw [controlRelease_eq d rfl, if_neg hten]
  exact ⟨rfl, rfl⟩

theorem controlRelease_due (hlow : d.pow.p10 * 100 < 97 * d.pow.capEff * 1000) (ho : d.overHalves = []) (hu : d.pow.under = 9) :
    d.controlRelease = ({ d with pow.under := 0 } : Dev).release := by
  have hten : d.lowSteps = 10 := by rw [Dev.lowSteps, decide_eq_true hlow, ho, hu]; rfl
  exact (controlRelease_eq d hten).trans (if_pos rfl)

/-- What a calm device's step decides. -/
theorem controlStep_calm {e : Dev} (hp : d.pow.pend = []) (ho : d.overHalves = [])
    (he : (if d.controlValues.isOver then d.controlValues.throttle (fun _ => true) else d.controlValues) = e) (hg : ∀ k, e.getGuar k = {}) :
    (controlStep d).pow.hold = e.controlRelease.pow.hold ∧ (controlStep d).pow.levelsNext = e.controlRelease.pow.levelsNext
      ∧ (controlStep d).pow.under = e.controlRelease.pow.under := by
  have hdecided := controlStep_decided d
  rw [controlThrottle_calm he hg ((controlValues_overHalves hp).trans ho)] at hdecided
  simp only [Power.decided, Prod.mk.injEq] at hdecided
  obtain ⟨-, -, hhold, hlevels, hunder⟩ := hdecided
  exact ⟨hhold, hlevels, hunder⟩

theorem controlStep_below (hp : d.pow.pend = []) (hg : ∀ k, d.getGuar k = {}) (ho : d.overHalves = []) (hm : d.meanPower ≤ d.capNow * 1000)
    (hu : d.pow.under < 9) : (controlStep d).pow.hold = d.pow.hold ∧ (controlStep d).pow.levelsNext = d.pow.levelsNext := by
  have hover : d.controlValues.isOver = false := by rw [controlValues_isOver hp]; exact decide_eq_false (Nat.not_lt.2 hm)
  obtain ⟨hhold, hlevels, -⟩ := controlStep_calm hp ho (e := d.controlValues) (by rw [hover]; rfl) (controlValues_getGuar hp hg)
  have hpow := (controlValues_keeps hp).2
  obtain ⟨hhold', hlevels'⟩ := controlRelease_waits (d := d.controlValues) (fun _ => by rw [hpow]; exact hu)
  exact ⟨hhold.trans (hhold'.trans (by rw [hpow])), hlevels.trans (hlevels'.trans (by rw [hpow]))⟩

/-- A step above the cap releases nothing. -/
theorem controlRelease_raised {c : Dev} (h : c.isOver = true) :
    c.raiseHold.controlRelease.pow.hold = c.pow.hold + 1 ∧ c.raiseHold.controlRelease.pow.levelsNext = c.pow.levelsNext := by
  have habove : c.pow.capEff * 1000 < c.pow.p10 := of_decide_eq_true h
  exact controlRelease_waits (d := c.raiseHold) (fun hlow => by
    have hlow' : c.pow.p10 * 100 < 97 * c.pow.capEff * 1000 := hlow
    omega)

theorem controlStep_above (hp : d.pow.pend = []) (hg : ∀ k, d.getGuar k = {}) (ho : d.overHalves = []) (hm : d.capNow * 1000 < d.meanPower)
    (hh : d.pow.hold < 12) (ha : d.anyLock = true) (hl : ∀ n, (d.getPart n).live = true → (d.getPart n).lockRun = true) :
    (controlStep d).pow.hold = d.pow.hold + 1 ∧ (controlStep d).pow.levelsNext = d.pow.levelsNext := by
  obtain ⟨hparts, hpow⟩ := controlValues_keeps hp
  have hpart : ∀ n, d.controlValues.getPart n = d.getPart n := fun n => by simp only [Dev.getPart, hparts]
  have hover : d.controlValues.isOver = true := by rw [controlValues_isOver hp]; exact decide_eq_true hm
  have hlock : d.controlValues.anyLock = true := by simpa only [Dev.anyLock, hpart] using ha
  have hheld := throttle_lockstep (c := d.controlValues) (by rw [hpow]; exact hh) hlock (fun n hn => by rw [hpart] at hn ⊢; exact hl n hn)
  obtain ⟨hhold, hlevels, -⟩ := controlStep_calm hp ho (e := d.controlValues.raiseHold) (by rw [if_pos hover, hheld])
    (fun k => (raiseHold_getGuar _ k).trans (controlValues_getGuar hp hg k))
  obtain ⟨hhold', hlevels'⟩ := controlRelease_raised hover
  exact ⟨hhold.trans (hhold'.trans (by rw [hpow])), hlevels.trans (hlevels'.trans (by rw [hpow]))⟩

theorem controlRelease_releases {c : Dev} (hlow : c.pow.p10 * 100 < 97 * c.pow.capEff * 1000) (ho : c.overHalves = []) (hu : c.pow.under = 9)
    (hn : c.pow.levelsNext = []) (hh : 0 < c.pow.hold) : c.controlRelease.pow.hold = c.pow.hold - 1 ∧ c.controlRelease.pow.under = 0 := by
  rw [controlRelease_due hlow ho hu]
  exact release_hold (c := { c with pow.under := 0 }) hn hh

theorem controlStep_releases (hp : d.pow.pend = []) (hg : ∀ k, d.getGuar k = {}) (ho : d.overHalves = [])
    (hm : d.meanPower * 100 < 97 * d.capNow * 1000) (hu : d.pow.under = 9) (hn : d.pow.levelsNext = []) (hh : 0 < d.pow.hold) :
    (controlStep d).pow.hold = d.pow.hold - 1 ∧ (controlStep d).pow.under = 0 := by
  have hpow := (controlValues_keeps hp).2
  have hover : d.controlValues.isOver = false := by rw [controlValues_isOver hp]; exact decide_eq_false (by omega)
  obtain ⟨hhold, -, hunder⟩ := controlStep_calm hp ho (e := d.controlValues) (by rw [hover]; rfl) (controlValues_getGuar hp hg)
  obtain ⟨hhold', hunder'⟩ := controlRelease_releases (c := d.controlValues) (by rw [hpow]; exact hm) ((controlValues_overHalves hp).trans ho)
    (by rw [hpow]; exact hu) (by rw [hpow]; exact hn) (by rw [hpow]; exact hh)
  exact ⟨hhold.trans (hhold'.trans (by rw [hpow])), hunder.trans hunder'⟩

/-! ## Repeats, and the hold limit (R507, R508) -/

theorem throttleRepeat_due {at_ : Nat} (ht : d.pow.throttledSince = some at_) (hd : d.due at_ (1000000000 * (d.pow.repeats + 1)) = true) :
    (throttleRepeat d).pow = { d.pow with repeats := d.pow.repeats + 1 } := by
  unfold throttleRepeat
  rw [ht]
  dsimp only
  rw [hd, gate_true, powerEv_pow]

theorem holdLimitExpiry_due {at_ : Nat} (ht : d.pow.hold12Since = some at_) (hd : d.due at_ 100000000 = true) :
    holdLimitExpiry d = ({ d.powerEv 6 0 0 0 (d.msSince at_) with pow.hold12Since := none } : Dev).stopLockstep 3 := by
  unfold holdLimitExpiry
  rw [ht]
  dsimp only
  rw [hd, gate_true]

theorem stopLockstep_pow (cause : Nat) : (d.stopLockstep cause).pow = d.pow := by
  refine each_keeps Dev.pow _ (fun d n => ?_) _ d
  split
  · rfl
  · rfl

/-- A partition that has been asked to stop, or that runs no lockstep job, stays as it is. -/
def Part.lockStopped (p : Part) (cause : Nat) : Part :=
  if p.lockRun ∧ p.running ∧ p.job.stopPending.isNone then { p with job := { p.job with stopPending := some cause } } else p

theorem stopLockstep_getPart (cause : Nat) {n : Nat} (hn : n < 8) : (d.stopLockstep cause).getPart n = (d.getPart n).lockStopped cause := by
  have heach := each_modify (g := Dev.getPart) (f := fun d n => if (d.getPart n).lockRun then d.stopNext n cause else d)
    (h := fun p => p.lockStopped cause) (fun d k => ?same) (fun d k j hj => ?other) (List.nodup_range (n := 8)) d n
  case same =>
    unfold Part.lockStopped Dev.stopNext
    split
    · next hl => simp [hl]
    · next hl => simp [hl]
  case other =>
    unfold Dev.stopNext
    split
    · exact modPart_ne _ _ hj
    · rfl
  exact heach.trans (if_pos (List.mem_range.2 hn))

/-! ## Guarantees at the end of their windows (R511, R512) -/

section
variable {n kind : Nat} (hk : kind < 4) (hr : 0 < (d.getGuar (4 * n + kind)).rank) (hw : kind = 0 → 4096 ≤ (d.getGuar (4 * n + kind)).beats)
  (hb : (d.getGuar (4 * n + kind)).breach = false)
include hk hr hw hb

theorem guaranteeWindowEnd_kept (hs : d.shortfall n kind (d.getGuar (4 * n + kind)) = none) :
    ∃ f : Guarantee → Guarantee, guaranteeWindowEnd n kind d = d.modGuar (4 * n + kind) f
      ∧ ∀ g, (f g).breach = g.breach ∧ (f g).beats = 0 ∧ (f g).jobBeats = 0 ∧ (f g).overCount = 0 := by
  have hopen : (decide (kind < 4) && decide (0 < (d.getGuar (4 * n + kind)).rank)
      && (kind != 0 || decide (4096 ≤ (d.getGuar (4 * n + kind)).beats))) = true := by
    simpa [hk, hr, Decidable.or_iff_not_imp_left] using hw
  unfold guaranteeWindowEnd
  dsimp only
  rw [hopen, gate_true, hs, hb]
  dsimp only
  rw [if_neg Bool.false_ne_true]
  exact ⟨_, rfl, fun g => ⟨rfl, rfl, rfl, rfl⟩⟩

theorem guaranteeWindowEnd_broken {x : Nat} (hs : d.shortfall n kind (d.getGuar (4 * n + kind)) = some x) :
    ∃ (g g' : Guarantee), guaranteeWindowEnd n kind d = (d.breachEv n kind 0 g').modGuar (4 * n + kind) (fun _ => g)
      ∧ g.breach = true ∧ g.since = (d.breachEv n kind 0 g').clock.wall ∧ g.beats = 0
      ∧ g.shortfall = max (d.getGuar (4 * n + kind)).shortfall x := by
  have hopen : (decide (kind < 4) && decide (0 < (d.getGuar (4 * n + kind)).rank)
      && (kind != 0 || decide (4096 ≤ (d.getGuar (4 * n + kind)).beats))) = true := by
    simpa [hk, hr, Decidable.or_iff_not_imp_left] using hw
  unfold guaranteeWindowEnd
  dsimp only
  rw [hopen, gate_true, hs, hb]
  dsimp only
  rw [if_neg Bool.false_ne_true]
  exact ⟨_, _, rfl, rfl, rfl, rfl, rfl⟩

end

end

end Sys2Proof.Machine

namespace Sys2Proof.Machine

/-- Settles O45: what a calm device's step decides, and what each timer and each window's end changes. -/
theorem powerControlResults : Obligations.PowerControlResults := by
  intro s
  dsimp only
  intro hl
  refine ⟨fun hp => completes_of_live hl rfl ?values,
    fun ⟨hp, hg, ho⟩ hm hu => completes_of_live hl rfl ?below,
    fun ⟨hp, hg, ho⟩ hm hh ha hlock => completes_of_live hl rfl ?above,
    fun ⟨hp, hg, ho⟩ hm hu hn hh => completes_of_live hl rfl ?release,
    fun at_ ht hd => completes_of_live hl rfl ?repeat_, fun at_ ht hd => completes_of_live hl rfl ?limit,
    fun n kind hk hr hw hb => ⟨fun hs => completes_of_live hl rfl ?kept, fun x hs => completes_of_live hl rfl ?broken⟩⟩
  case values => rw [settle_pow]; exact controlStep_measures hp
  case below => rw [settle_pow]; exact controlStep_below hp hg ho hm hu
  case above => rw [settle_pow]; exact controlStep_above hp hg ho hm hh ha hlock
  case release => rw [settle_pow]; exact controlStep_releases hp hg ho hm hu hn hh
  case repeat_ =>
    rw [settle_pow, throttleRepeat_due ht hd]
    exact ⟨rfl, ht⟩
  case limit =>
    rw [holdLimitExpiry_due ht hd, settle_pow, stopLockstep_pow]
    refine ⟨rfl, fun n hn hlock hnone => ?_⟩
    have hpart : (({ s.found.powerEv 6 0 0 0 (s.found.msSince at_) with pow.hold12Since := none } : Dev).getPart n) = s.found.getPart n :=
      powerEv_getPart _ _ _ _ _ _ n
    have hrun : (s.found.getPart n).running = true := (Bool.and_eq_true_iff.1 hlock).1
    rw [settle_getPart, stopLockstep_getPart 3 hn, hpart, Part.lockStopped, if_pos ⟨hlock, hrun, by rw [hnone]; rfl⟩]
  case kept =>
    obtain ⟨f, heq, hf⟩ := guaranteeWindowEnd_kept hk hr hw hb hs
    obtain ⟨hbreach, hbeats, hjob, hover⟩ := hf (s.found.getGuar (4 * n + kind))
    rw [heq, settle_getGuar, modGuar_same, settle_evt]
    exact ⟨hbreach.trans hb, hbeats, hjob, hover, rfl⟩
  case broken =>
    obtain ⟨g, g', heq, hbreach, hsince, hbeats, hshort⟩ := guaranteeWindowEnd_broken hk hr hw hb hs
    rw [heq, settle_getGuar, modGuar_same]
    exact ⟨hbreach, hsince.trans (raise_clock_wall _ _), hbeats, hshort⟩

end Sys2Proof.Machine

/-! PROOFS. How a mirrored pair forms and starts (R529, R555, R556, R561), then O42. -/

namespace Sys2Proof.Machine

section
variable (d : Dev)

/-! ## What completions leave of the pair -/

@[simp] theorem completeAll_mirror (pick : Waiting → Bool) (r : Waiting → Reply) : (d.completeAll pick r).mirror = d.mirror :=
  each_keeps Dev.mirror _ (fun d w => by obtain ⟨o, h, f, q⟩ := completeLate_shape d w (r w); rw [q]) _ d

theorem completeAll_none (pick : Waiting → Bool) (r : Waiting → Reply) :
    ∀ w ∈ (d.completeAll pick r).host.waiting, pick w = false := fun w hw => by
  have hw' : w ∈ (d.completeAll pick r).service.waiting := hw
  rw [completeAll_service] at hw'
  exact not_picked_of_without hw'

@[simp] theorem pairDone_mirror (r : Reply) : (d.pairDone r).mirror = d.mirror := completeAll_mirror d _ _

/-- No MIRROR_PAIR waits once it has been answered. -/
theorem pairDone_none (r : Reply) : ∀ w ∈ (d.pairDone r).host.waiting, w.opcode ≠ 0x0080 := fun w hw =>
  beq_eq_false_iff_ne.1 (completeAll_none d _ _ w hw)

/-! ## The pair forms, or fails to (R555, R561) -/

/-- What two devices agree on, and what this one still asks for. -/
def Mirror.agreed (m : Mirror) : Nat × Nat × Nat × Nat × List (Nat × Nat) × Option MirrorRegs :=
  (m.regs.mode, m.regs.side, m.regs.partition, m.regs.interval, m.regs.ranges, m.cand)

theorem startResync_agreed : d.startResync.mirror.agreed = d.mirror.agreed ∧ (d.mirror.regs.mode = 2 → d.startResync.mirror.regs.state = 2) := by
  unfold Dev.startResync
  by_cases hm : d.mirror.regs.mode = 2
  · rw [if_pos hm]
    dsimp only
    split
    · exact ⟨rfl, fun _ => rfl⟩
    · exact ⟨rfl, fun _ => rfl⟩
  · rw [if_neg hm]
    dsimp only
    split
    · exact ⟨rfl, fun h => absurd h hm⟩
    · exact ⟨rfl, fun h => absurd h hm⟩

theorem formPair_agreed (c : MirrorRegs) :
    (d.formPair c).mirror.agreed = (c.mode, c.side, c.partition, c.interval, c.ranges, none)
      ∧ (c.mode = 2 → (d.formPair c).mirror.regs.state = 2) := by
  have hformed : ∃ e : Dev, (d.formPair c = e.startResync ∨ d.formPair c = e)
      ∧ e.mirror.agreed = (c.mode, c.side, c.partition, c.interval, c.ranges, none) ∧ (c.mode = 2 → e.mirror.regs.state = 2) :=
    ⟨_, ite_left_or_right _ _ _, rfl, fun h => if_pos (.inl h)⟩
  obtain ⟨e, heq | heq, hagreed, hstate⟩ := hformed
  · obtain ⟨hkept, hresync⟩ := startResync_agreed e
    rw [heq]
    exact ⟨hkept.trans hagreed, fun h => hresync ((congrArg Prod.fst hagreed).trans h)⟩
  · rw [heq]
    exact ⟨hagreed, hstate⟩

theorem pairFails_fails (status : Nat) :
    (d.pairFails status).mirror.regs.mode = d.mirror.regs.mode ∧ (d.pairFails status).mirror.cand = none
      ∧ ∀ w ∈ (d.pairFails status).host.waiting, w.opcode ≠ 0x0080 := by
  refine ⟨?_, ?_, pairDone_none _ _⟩
  · rw [Dev.pairFails, pairDone_mirror]
  · rw [Dev.pairFails, pairDone_mirror]

end

section
variable {d : Dev} {uid : Nat} {h : MirrorCfg} {r : MirrorRegs}

theorem mirrorHandshake_waits (hr : d.mateReady uid = true) (hc : d.mirror.cand = none) (hm : d.mirror.regs.mode = 0) :
    mirrorHandshake uid h d = { d with mirror.peerCfg := some h } := by
  unfold mirrorHandshake
  rw [hr, gate_true, hc]
  dsimp only
  rw [if_neg (fun hn => hn.1 hm)]

theorem mirrorHandshake_meets (hr : d.mateReady uid = true) (hc : d.mirror.cand = some r) (hu : r.peerUid = uid) :
    mirrorHandshake uid h d =
      if (d.meet r h).2.waits then (d.meet r h).1
      else if (d.meet r h).2.status = stOk then (d.meet r h).1.pairDone {} else (d.meet r h).1.pairFails (d.meet r h).2.status := by
  unfold mirrorHandshake
  rw [hr, gate_true, hc]
  dsimp only
  rw [if_neg (fun hn => hn hu)]

/-- The handshake that fits (R555): a SHADOW pair's command waits on for the resync. -/
theorem mirrorHandshake_forms (hr : d.mateReady uid = true) (hc : d.mirror.cand = some r) (hu : r.peerUid = uid) (hf : d.pairFits r h = true) :
    mirrorHandshake uid h d = if r.mode = 2 then d.formPair r else (d.formPair r).pairDone {} := by
  rw [mirrorHandshake_meets hr hc hu, Dev.meet, if_pos hf]
  dsimp only
  by_cases hm : r.mode = 2
  · rw [if_pos (beq_iff_eq.2 hm), if_pos hm]
  · rw [if_neg (fun he => hm (beq_iff_eq.1 he)), if_neg hm]; exact if_pos rfl

theorem mirrorHandshake_unfit (hr : d.mateReady uid = true) (hc : d.mirror.cand = some r) (hu : r.peerUid = uid) (hf : d.pairFits r h = false) :
    mirrorHandshake uid h d = ({ d with mirror.cand := none, mirror.peerCfg := none } : Dev).pairFails stIncompatible := by
  rw [mirrorHandshake_meets hr hc hu, Dev.meet, if_neg (Bool.eq_false_iff.1 hf)]
  rfl

theorem mirrorHandshakeTimeout_due (hc : d.mirror.cand.isSome = true)
    (hw : d.host.waiting.any (fun w => w.opcode == 0x0080 && d.due w.since 1000000000) = true) :
    mirrorHandshakeTimeout d = d.pairFails stTimeout := by
  unfold mirrorHandshakeTimeout
  rw [hc, hw, Bool.and_self, gate_true]

/-! ## The start records (R556) -/

variable {check b : Nat}

theorem mirrorStartRecord_first (hm : d.mirror.regs.mode = 1) (ho : d.mirror.ownStart = none) :
    mirrorStartRecord check b d = { d with mirror.peerStart := some (check, b) } := by
  unfold mirrorStartRecord
  rw [hm, beq_self_eq_true, gate_true, ho]

/-- Equal records start the job, and JOB_START completes. -/
theorem mirrorStartRecord_equal (hm : d.mirror.regs.mode = 1) (ho : d.mirror.ownStart = some (check, b)) : ∃ notify r,
    mirrorStartRecord check b d = (({ d with mirror.ownStart := none } : Dev).wake.acceptJob d.mirror.regs.partition b notify).completeAll
      (pairStart { d with mirror.ownStart := none }) r := by
  unfold mirrorStartRecord
  rw [hm, beq_self_eq_true, gate_true, ho]
  exact ⟨_, _, if_pos rfl⟩

theorem mirrorStartRecord_unequal {own : Nat × Nat} (hm : d.mirror.regs.mode = 1) (ho : d.mirror.ownStart = some own) (hn : own ≠ (check, b)) :
    ∃ r, mirrorStartRecord check b d = ({ d with mirror.ownStart := none } : Dev).completeAll (pairStart { d with mirror.ownStart := none }) r := by
  unfold mirrorStartRecord
  rw [hm, beq_self_eq_true, gate_true, ho]
  exact ⟨_, if_neg hn⟩

theorem acceptJob_mirror (n start : Nat) (notify : Option Nat) : (d.acceptJob n start notify).mirror = d.mirror := by
  have hnotice : (d.keepNotice n).mirror = d.mirror := by
    unfold Dev.keepNotice
    dsimp only
    split
    · split
      · rfl
      · rfl
    · rfl
  have hfrequency : ∀ (e : Dev) (m freq : Nat), (e.askFrequency m freq).mirror = e.mirror := fun e m freq =>
    each_keeps Dev.mirror _ (fun e p => (ite_left_or_right _ _ _).elim (fun hq => by rw [hq]) (fun hq => by rw [hq]; rfl)) _ e
  unfold Dev.acceptJob
  dsimp only
  split
  · exact hnotice
  · exact (hfrequency _ _ _).trans hnotice

theorem wake_mirror : d.wake.mirror = d.mirror := by
  unfold Dev.wake
  split
  · rfl
  · split
    · rfl
    · rfl

/-! ## The end of a pass (R561) -/

/-- One more pass. -/
def Dev.countPass (d : Dev) : Dev := { d with mirror.regs.passes := satAdd 8 d.mirror.regs.passes 1 }

theorem resyncPassEnd_again (hc : d.mirror.copying = true) (ho : d.mirror.passOver = true) (hf : d.mirror.copyFound = true) :
    resyncPassEnd d = { d.countPass with
      mirror.copyFrom := 0
      mirror.copyFound := false
      mirror.regs.slow := d.countPass.mirror.regs.slow || decide (16 ≤ d.countPass.mirror.regs.passes) } := by
  unfold resyncPassEnd
  dsimp only
  rw [if_pos hc, ho, gate_true, if_pos hf]
  rfl

theorem resyncPassEnd_clean (hc : d.mirror.copying = true) (ho : d.mirror.passOver = true) (hf : d.mirror.copyFound = false)
    (hm : d.mirror.regs.mode = 2) :
    resyncPassEnd d = ({ d.countPass with mirror.regs.state := 3, mirror.copying := false } : Dev).pairDone {} := by
  unfold resyncPassEnd
  dsimp only
  rw [if_pos hc, ho, gate_true, if_neg (Bool.eq_false_iff.1 hf), if_pos hm]
  rfl

end

end Sys2Proof.Machine

namespace Sys2Proof.Machine

/-- Settles O42: the handshakes, the start records and the passes each end in one of their branches, and completions leave the pair alone. -/
theorem mirrorPairResults : Obligations.MirrorPairResults := by
  intro s
  dsimp only
  intro hl
  refine ⟨fun uid h hr hc hm => gives_of_live hl rfl (mirrorHandshake_waits hr hc hm), fun uid h r hr hc hu hf => completes_of_live hl rfl ?forms,
    fun uid h r hr hc hu hf => completes_of_live hl rfl ?unfit, fun hc hw => completes_of_live hl rfl ?late,
    fun check b hm ho => gives_of_live hl rfl (mirrorStartRecord_first hm ho), fun check b i hm ho hi => completes_of_live hl rfl ?equal,
    fun check b own hm ho hn => completes_of_live hl rfl ?unequal, fun hc ho hf => completes_of_live hl rfl ?again,
    fun hc ho hf hm => completes_of_live hl rfl ?clean⟩
  case forms =>
    obtain ⟨hagreed, hstate⟩ := formPair_agreed s.found r
    simp only [Mirror.agreed, Prod.mk.injEq] at hagreed
    obtain ⟨hmode, hside, hpart, hinterval, hranges, hcand⟩ := hagreed
    rw [mirrorHandshake_forms hr hc hu hf]
    by_cases hm : r.mode = 2
    · rw [if_pos hm]
      exact ⟨hmode, hside, hpart, hinterval, hranges, hcand, hstate, fun hn => absurd hm hn⟩
    · rw [if_neg hm, settle_mirror, pairDone_mirror]
      exact ⟨hmode, hside, hpart, hinterval, hranges, hcand, hstate, fun _ => pairDone_none _ _⟩
  case unfit =>
    rw [mirrorHandshake_unfit hr hc hu hf]
    exact pairFails_fails { s.found with mirror.cand := none, mirror.peerCfg := none } stIncompatible
  case late =>
    rw [mirrorHandshakeTimeout_due hc hw]
    exact pairFails_fails s.found stTimeout
  case equal =>
    obtain ⟨notify, r, heq⟩ := mirrorStartRecord_equal hm ho
    have himage : (({ s.found with mirror.ownStart := none } : Dev).wake.getPart s.found.mirror.regs.partition).image = some i := by
      rw [getPart_eq_of_parts (wake_parts _)]; exact hi
    obtain ⟨hstate, hwait, -, hbeat⟩ := acceptJob_job himage b notify
    rw [heq, settle_mirror, settle_getPart, completeAll_mirror, getPart_eq_of_parts (completeAll_parts _ _ _), acceptJob_mirror, wake_mirror]
    exact ⟨rfl, hstate, hbeat, hwait⟩
  case unequal =>
    obtain ⟨r, heq⟩ := mirrorStartRecord_unequal hm ho hn
    rw [heq, settle_mirror, settle_parts, settle_host, completeAll_mirror, completeAll_parts]
    exact ⟨rfl, rfl, completeAll_none _ _ _⟩
  case again => rw [resyncPassEnd_again hc ho hf]; exact ⟨rfl, rfl, hc, rfl⟩
  case clean =>
    rw [resyncPassEnd_clean hc ho hf hm, settle_mirror, settle_host, pairDone_mirror]
    exact ⟨rfl, rfl, rfl, pairDone_none _ _⟩

end Sys2Proof.Machine

/-! PROOFS. What a write leaves in memory, and what it leaves alone; commit intervals and forwarded writes (R557, R558, R560), then O43. -/

namespace Sys2Proof.Machine

/-! ## A write rests on memory and the capability words (R286, R289, R292, R300) -/

/-- The word that a store leaves: a stack's own check keeps no poison (R300). -/
def Mem.store (m : Mem) (ecc : Bool) (word : Nat) (bs : List Byte) (poison : Bool) : Mem :=
  let m := { m with writeBacks := m.writeBacks.filter (fun w => w.word != word) }
  if ecc = true ∧ poison = true then (m.setBytes (8 * word) (List.replicate 8 0)).setErr word .none
  else (m.setBytes (8 * word) bs).setErr word (if poison then .poison else .none)

/-- A write of part of a word merges into the old one, whose error poisons it unless it can be corrected (R289). -/
def Mem.storePart (m : Mem) (ecc : Bool) (word off : Nat) (bs : List PByte) : Mem :=
  let old := m.bytes (8 * word) 8
  let lost : Bool := m.errOf word == .poison || m.errOf word == .ue
  if bs.length = 8 then m.store ecc word (bs.map (·.val)) (bs.any (·.poison))
  else m.store ecc word (old.take off ++ bs.map (·.val) ++ old.drop (off + bs.length)) (lost || bs.any (·.poison))

section
variable (d : Dev)

theorem storeWord_mem (pl : Place) (word : Nat) (bs : List Byte) (p : Bool) (w : Writer) :
    (d.storeWord pl word bs p w).mem = d.mem.store (d.stackEcc pl) word bs p := by
  have hecc : (d.cancelWriteBack word).stackEcc pl = d.stackEcc pl := by
    cases pl <;> rfl
  unfold Dev.storeWord Mem.store
  dsimp only
  rw [mirrorWrite_mem, assayWrite_mem, hecc]
  split
  · rfl
  · rfl

theorem raise_stackEcc (ev : Ev) (pl : Place) : (d.raise ev).stackEcc pl = d.stackEcc pl := by
  cases pl with
  | hbm p n off => simp only [Dev.stackEcc, raise_getRegion]
  | _ => rfl

theorem writeWord_mem (pl : Place) (word off : Nat) (bs : List PByte) (w : Writer) :
    (d.writeWord pl word off bs w).mem = if d.unbackedAt pl then d.mem else d.mem.storePart (d.stackEcc pl) word off bs := by
  unfold Dev.writeWord Mem.storePart
  split
  · rfl
  · dsimp only
    split
    · exact storeWord_mem d _ _ _ _ _
    · split
      · next h => rw [storeWord_mem, h]; rfl
      · next h => rw [storeWord_mem, h]; rfl
      · next h =>
        rw [h]
        split
        · exact storeWord_mem d _ _ _ _ _
        · rw [storeWord_mem, raise_mem, raise_stackEcc]; rfl
      · next h =>
        rw [h]
        split
        · exact storeWord_mem d _ _ _ _ _
        · rw [storeWord_mem, raise_mem, raise_stackEcc]; rfl

end

/-! ## What a write leaves alone -/

/-- What the STANDBY's engine holds back, and the number that it waits for (R560). -/
def Mirror.turn (m : Mirror) : List FwdWrite × Nat × Option Nat := (m.reorder, m.nextApply, m.missingSince)

/-- A device whose pair has been marked, and nothing else of it changed: the engine's turn stays. -/
def Marks (d e : Dev) : Prop := ∃ m : Mirror, e = { d with mirror := m } ∧ m.turn = d.mirror.turn

theorem Marks.refl (d : Dev) : Marks d d := ⟨d.mirror, rfl, rfl⟩

theorem Marks.trans {d e f : Dev} (h : Marks d e) (h' : Marks e f) : Marks d f := by
  obtain ⟨m, rfl, hm⟩ := h
  obtain ⟨m', rfl, hm'⟩ := h'
  exact ⟨m', rfl, hm'.trans hm⟩

theorem marks_markDirty (d : Dev) (b : Nat) : Marks d (d.markDirty b) := ⟨_, rfl, rfl⟩

theorem marks_startResync (d : Dev) : Marks d d.startResync := by
  have hstate : Marks d (if d.mirror.regs.mode = 2 then { d with mirror.regs.state := 2 } else d) := by
    split
    · exact ⟨_, rfl, rfl⟩
    · exact .refl d
  unfold Dev.startResync
  dsimp only
  refine hstate.trans ?_
  generalize (if d.mirror.regs.mode = 2 then { d with mirror.regs.state := 2 } else d) = e
  split
  · exact .refl e
  · exact ⟨_, rfl, rfl⟩

/-- R557, R560, R561: a write into a mirrored range marks the pair. -/
theorem marks_mirrorWrite (d : Dev) (pl : Place) (word : Nat) (bs : List Byte) (p : Bool) (w : Writer) : Marks d (d.mirrorWrite pl word bs p w) := by
  have hqueue : ∀ (e : Dev) (b : Nat), Marks e (
      if fwdBufBytes < e.mirror.fwdBytes + 8 then (e.markDirty b).startResync
      else { e with
        mirror.fwdQueue := e.mirror.fwdQueue ++ [⟨0, 8 * word, bs.map (fun b => ⟨b, p⟩), 0⟩]
        mirror.fwdBytes := e.mirror.fwdBytes + 8 }) :=
    fun e b => by
      split
      · exact (marks_markDirty e b).trans (marks_startResync _)
      · exact ⟨_, rfl, rfl⟩
  have hblock : ∀ (e : Dev) (b : Nat), Marks e (
      if d.mirror.regs.mode = 1 then (if d.mirror.regs.state = 4 ∨ d.mirror.regs.state = 2 then e.markDirty b else e)
      else if d.mirror.regs.side = 0 ∧ w ≠ .engine then
        let e := if e.mirror.copyAt.any (fun c => c.1 == b) then e.markDirty b else e
        if fwdBufBytes < e.mirror.fwdBytes + 8 then (e.markDirty b).startResync
        else { e with
          mirror.fwdQueue := e.mirror.fwdQueue ++ [⟨0, 8 * word, bs.map (fun b => ⟨b, p⟩), 0⟩]
          mirror.fwdBytes := e.mirror.fwdBytes + 8 }
      else e) := fun e b => by
    split
    · split
      · exact marks_markDirty e b
      · exact .refl e
    · split
      · have hcopied : Marks e (if e.mirror.copyAt.any (fun c => c.1 == b) then e.markDirty b else e) := by
          split
          · exact marks_markDirty e b
          · exact .refl e
        exact hcopied.trans (hqueue _ b)
      · exact .refl e
  unfold Dev.mirrorWrite
  dsimp only
  split
  · exact .refl d
  · cases w with
    | own n =>
      refine Marks.trans ?_ (hblock _ _)
      dsimp only
      split
      · exact ⟨_, rfl, rfl⟩
      · exact .refl d
    | other => exact hblock d _
    | engine => exact hblock d _

section
variable {β : Type} {g : Dev → β} (hraise : ∀ d ev, g (d.raise ev) = g d) (honce : ∀ d ev, g (d.raiseOnce ev) = g d)
  (hmem : ∀ (d : Dev) m, g { d with mem := m } = g d) (hassay : ∀ d k f, g (d.modAssay k f) = g d) (hmarks : ∀ {d e}, Marks d e → g e = g d)
include hraise hmem hassay hmarks

theorem storeWord_keeps (d : Dev) (pl : Place) (word : Nat) (bs : List Byte) (p : Bool) (w : Writer) : g (d.storeWord pl word bs p w) = g d := by
  have hfed : ∀ e : Dev, g (e.assayWrite ((8 * word) / 2 ^ 46) word bs p) = g e := fun e => by
    unfold Dev.assayWrite
    split
    · rfl
    · refine each_keeps g _ (fun e u => ?_) _ e
      dsimp only
      split
      · exact hassay _ _ _
      · rfl
  have hcancel : g (d.cancelWriteBack word) = g d := hmem d _
  unfold Dev.storeWord
  dsimp only
  refine (hmarks (marks_mirrorWrite _ _ _ _ _ _)).trans ((hfed _).trans ?_)
  split
  · exact (hmem _ _).trans ((hraise _ _).trans hcancel)
  · exact (hmem _ _).trans hcancel

theorem writeWord_keeps (d : Dev) (pl : Place) (word off : Nat) (bs : List PByte) (w : Writer) : g (d.writeWord pl word off bs w) = g d := by
  have hstore := fun d word bs p => storeWord_keeps hraise hmem hassay hmarks d pl word bs p w
  unfold Dev.writeWord
  split
  · rfl
  · dsimp only
    split
    · exact hstore _ _ _ _
    · split
      · exact hstore _ _ _ _
      · exact hstore _ _ _ _
      · split
        · exact hstore _ _ _ _
        · exact (hstore _ _ _ _).trans (hraise _ _)
      · split
        · exact hstore _ _ _ _
        · exact (hstore _ _ _ _).trans (hraise _ _)

include honce in
theorem writeWords_keeps (fuel : Nat) (d : Dev) (a : Nat) (bs : List PByte) (w : Writer) : g (d.writeWords w fuel a bs) = g d := by
  induction fuel generalizing d a bs with
  | zero => rfl
  | succ n ih =>
    unfold Dev.writeWords
    split
    · rfl
    · refine (ih _ _ _).trans ?_
      split
      · exact honce _ _
      · exact honce _ _
      · exact writeWord_keeps hraise hmem hassay hmarks _ _ _ _ _ _

end

theorem writeWord_caps (d : Dev) (pl : Place) (word off : Nat) (bs : List PByte) (w : Writer) : (d.writeWord pl word off bs w).caps = d.caps :=
  writeWord_keeps raise_caps (fun _ _ => by rfl) (fun _ _ _ => by rfl) (fun h => by obtain ⟨_, rfl, _⟩ := h; rfl) d pl word off bs w

theorem raise_turn (d : Dev) (ev : Ev) : (d.raise ev).mirror.turn = d.mirror.turn := by
  obtain ⟨c, p, h, e, m, q⟩ := raise_shape d ev
  rw [q]; rfl

theorem raiseOnce_turn (d : Dev) (ev : Ev) : (d.raiseOnce ev).mirror.turn = d.mirror.turn := by
  obtain ⟨c, p, h, e, m, q⟩ := raiseOnce_shape d ev
  rw [q]; rfl

@[simp] theorem raiseOnce_caps (d : Dev) (ev : Ev) : (d.raiseOnce ev).caps = d.caps := by
  obtain ⟨c, p, h, e, m, q⟩ := raiseOnce_shape d ev
  rw [q]

theorem writeMem_turn (d : Dev) (a : Nat) (bs : List PByte) (w : Writer) : (d.writeMem a bs w).mirror.turn = d.mirror.turn :=
  writeWords_keeps (g := fun d => d.mirror.turn) raise_turn raiseOnce_turn (fun _ _ => by rfl) (fun _ _ _ => by rfl)
    (fun h => by obtain ⟨_, rfl, hm⟩ := h; exact hm) _ d a bs w

/-- Two devices with the same memory and capability words. -/
def SameMap (d e : Dev) : Prop := e.mem = d.mem ∧ e.caps = d.caps

section
variable {d e : Dev}

theorem SameMap.getRegion (h : SameMap d e) (k : Nat) : e.getRegion k = d.getRegion k :=
  congrArg (fun m : Mem => tabGet ({} : Region) k m.regions) h.1
theorem SameMap.getStack (h : SameMap d e) (k : Nat) : e.getStack k = d.getStack k :=
  congrArg (fun m : Mem => tabGet ({} : Stack) k m.stackTab) h.1

theorem SameMap.locate (h : SameMap d e) (a : Nat) : e.locate a = d.locate a := by
  simp only [Dev.locate, Dev.regionAt, h.getRegion, h.2]

theorem SameMap.stackEcc (h : SameMap d e) (pl : Place) : e.stackEcc pl = d.stackEcc pl := by
  cases pl with
  | hbm p n off => simp only [Dev.stackEcc, h.getRegion]
  | _ => rfl

theorem SameMap.unbackedAt (h : SameMap d e) (pl : Place) : e.unbackedAt pl = d.unbackedAt pl := by
  cases pl with
  | hbm p n off => simp only [Dev.unbackedAt, Dev.unbacked, Dev.hbmLoc, h.getRegion, h.getStack]
  | _ => rfl

theorem SameMap.writeWord (h : SameMap d e) (pl : Place) (word off : Nat) (bs : List PByte) (w : Writer) :
    (e.writeWord pl word off bs w).mem = (d.writeWord pl word off bs w).mem := by
  rw [writeWord_mem, writeWord_mem, h.unbackedAt, h.stackEcc, h.1]

theorem SameMap.writeWords (fuel : Nat) (h : SameMap d e) (a : Nat) (bs : List PByte) (w : Writer) :
    SameMap (d.writeWords w fuel a bs) (e.writeWords w fuel a bs) := by
  induction fuel generalizing d e a bs with
  | zero => exact h
  | succ n ih =>
    unfold Dev.writeWords
    split
    · exact h
    · dsimp only
      rw [h.locate]
      refine ih ?_ _ _
      have hevent : SameMap (d.unmappedEv a 0 0) (e.unmappedEv a 0 0) :=
        ⟨(raiseOnce_mem _ _).trans (h.1.trans (raiseOnce_mem _ _).symm), (raiseOnce_caps _ _).trans (h.2.trans (raiseOnce_caps _ _).symm)⟩
      split
      · exact hevent
      · exact hevent
      · exact ⟨h.writeWord _ _ _ _ _, (writeWord_caps _ _ _ _ _ _).trans (h.2.trans (writeWord_caps _ _ _ _ _ _).symm)⟩

/-- What a write leaves in memory rests on memory and the capability words alone. -/
theorem SameMap.writeMem (h : SameMap d e) (a : Nat) (bs : List PByte) (w : Writer) : (e.writeMem a bs w).mem = (d.writeMem a bs w).mem :=
  (h.writeWords _ a bs w).1

end

/-! ## Commit intervals (R557, R558, R560) -/

section
variable {d : Dev}

/-- Equal values commit their interval (R558). -/
theorem compare_equal (own peer : Nat × Nat × Bool) (h : own.2.1 = peer.2.1) : d.compare own peer =
    { d with mirror.sent := none, mirror.peerSent := none
             mirror.regs.commits := wrapAdd 32 d.mirror.regs.commits 1, mirror.regs.jobBeat := own.1 } := by
  unfold Dev.compare
  exact if_pos h

/-- The value of an interval has been formed and sent, over the mate port where there is one. -/
def Dev.intervalSent (d : Dev) : Dev :=
  let own := (d.lastJobBeat d.mirror.regs.partition, d.commitValue, d.mirror.err)
  let seq := if d.mirror.regs.mode = 2 then (d.mirror.fwdSeq + d.mirror.fwdQueue.length + 65535) % 65536 else 0
  let d := match d.mirror.matePort with
    | some n => d.sendCtrl n (commitPayload own.1 own.2.1 own.2.2 seq)
    | none => d
  { d with mirror.crc := [], mirror.err := false, mirror.count := 0, mirror.sent := some own, mirror.sentSince := d.clock.wall }

/-- Sending changes no more of the pair than the interval's start does. -/
theorem intervalSent_mirror : d.intervalSent.mirror = { d.mirror with
    crc := [], err := false, count := 0, sent := some (d.lastJobBeat d.mirror.regs.partition, d.commitValue, d.mirror.err)
    sentSince := d.clock.wall } := by
  unfold Dev.intervalSent
  dsimp only
  split
  · rfl
  · rfl

theorem mirrorIntervalEnd_due (hc : d.mirror.commits = true) (hr : (d.getPart d.mirror.regs.partition).running = true)
    (hi : d.mirror.regs.interval ≤ d.mirror.count) : mirrorIntervalEnd d =
      match d.mirror.peerSent with
      | some peer => if peer.1 = d.lastJobBeat d.mirror.regs.partition
          then d.intervalSent.compare (d.lastJobBeat d.mirror.regs.partition, d.commitValue, d.mirror.err) peer else d.intervalSent
      | none => d.intervalSent := by
  have hpeer : d.intervalSent.mirror.peerSent = d.mirror.peerSent := by rw [intervalSent_mirror]
  unfold mirrorIntervalEnd
  rw [hc, hr, decide_eq_true hi, Bool.and_self, Bool.and_self, gate_true, ← hpeer]
  rfl

theorem mirrorIntervalEnd_alone (hc : d.mirror.commits = true) (hr : (d.getPart d.mirror.regs.partition).running = true)
    (hi : d.mirror.regs.interval ≤ d.mirror.count) (hp : d.mirror.peerSent = none) : mirrorIntervalEnd d = d.intervalSent := by
  rw [mirrorIntervalEnd_due hc hr hi, hp]

theorem mirrorIntervalEnd_equal {e : Bool} (hc : d.mirror.commits = true) (hr : (d.getPart d.mirror.regs.partition).running = true)
    (hi : d.mirror.regs.interval ≤ d.mirror.count)
    (hp : d.mirror.peerSent = some (d.lastJobBeat d.mirror.regs.partition, d.commitValue, e)) :
    mirrorIntervalEnd d = { d.intervalSent with
      mirror.sent := none, mirror.peerSent := none
      mirror.regs.commits := wrapAdd 32 d.intervalSent.mirror.regs.commits 1
      mirror.regs.jobBeat := d.lastJobBeat d.mirror.regs.partition } := by
  rw [mirrorIntervalEnd_due hc hr hi, hp]
  exact (if_pos rfl).trans (compare_equal _ _ rfl)

variable {p : List Byte}

theorem mirrorCommit_standby (ht : leAt p 0 2 = 0x0C03) (hm : d.mirror.regs.mode = 2) (hs : d.mirror.regs.side = 1) :
    mirrorCommit p d = { d with mirror.answerDue := some (leAt p 2 7, leAt p 18 2) } := by
  simp [mirrorCommit, ht, hm, hs, gate_true]

theorem mirrorCommit_early (ht : leAt p 0 2 = 0x0C03) (hm : d.mirror.regs.mode = 1) (hs : d.mirror.regs.state = 3) (hn : d.mirror.sent = none) :
    mirrorCommit p d = { d with mirror.peerSent := some (leAt p 2 7, leAt p 9 8, (leAt p 17 1).testBit 0) } := by
  simp [mirrorCommit, ht, hm, hs, hn, gate_true]

theorem mirrorCommit_equal {e : Bool} (ht : leAt p 0 2 = 0x0C03) (hm : d.mirror.regs.mode = 1) (hs : d.mirror.regs.state = 3)
    (ho : d.mirror.sent = some (leAt p 2 7, leAt p 9 8, e)) :
    mirrorCommit p d = { d with
      mirror.sent := none, mirror.peerSent := none
      mirror.regs.commits := wrapAdd 32 d.mirror.regs.commits 1, mirror.regs.jobBeat := leAt p 2 7 } := by
  have hmeets : mirrorCommit p d = d.compare (leAt p 2 7, leAt p 9 8, e) (leAt p 2 7, leAt p 9 8, (leAt p 17 1).testBit 0) := by
    simp [mirrorCommit, ht, hm, hs, ho, gate_true]
  rw [hmeets]
  exact compare_equal _ _ rfl

theorem mirrorCommitTimeout_due {own : Nat × Nat × Bool} (ho : d.mirror.sent = some own) (hm : d.mirror.regs.mode = 1)
    (hw : 16 ≤ d.clock.wall - d.mirror.sentSince) :
    mirrorCommitTimeout d = { d.mismatch 4 own.1 own.2.1 0 with
      mirror.sent := none, mirror.peerSent := none, mirror.regs.state := 4, mirror.copying := false } := by
  unfold mirrorCommitTimeout
  rw [ho]
  dsimp only
  rw [decide_eq_true hw, hm, beq_self_eq_true, Bool.true_or, Bool.and_self, gate_true]

theorem mirrorCommitAnswer_standby {b q : Nat} (hm : d.mirror.regs.mode = 2) (hs : d.mirror.regs.side = 1)
    (ha : d.mirror.answerDue = some (b, q)) (hq : tagBefore q d.mirror.nextApply = true) :
    mirrorCommitAnswer d = ({ d with
      mirror.answerDue := none, mirror.regs.jobBeat := b, mirror.regs.commits := wrapAdd 32 d.mirror.regs.commits 1 } : Dev).emit (.mate 2 [b]) := by
  simp [mirrorCommitAnswer, hm, hs, ha, hq, gate_true]

theorem mirrorCommitAnswer_active {own : Nat × Nat × Bool} (hm : d.mirror.regs.mode = 2) (hs : d.mirror.regs.side ≠ 1)
    (ho : d.mirror.sent = some own) :
    mirrorCommitAnswer d = { d with
      mirror.sent := none, mirror.regs.jobBeat := own.1, mirror.regs.commits := wrapAdd 32 d.mirror.regs.commits 1 } := by
  simp [mirrorCommitAnswer, hm, hs, ho]

/-! ## Forwarded writes on the STANDBY (R560) -/

/-- The write that is next in number is not there yet. -/
theorem applyForward_waits {fuel : Nat} (h : d.mirror.reorder.find? (fun w => w.seq == d.mirror.nextApply) = none) :
    d.applyForward (fuel + 1) =
      { d with mirror.missingSince := if d.mirror.reorder.isEmpty then none else some (d.mirror.missingSince.getD d.clock.wall) } := by
  unfold Dev.applyForward
  rw [h]

theorem applyForward_applies {fuel : Nat} {w : FwdWrite} (h : d.mirror.reorder.find? (fun w => w.seq == d.mirror.nextApply) = some w) :
    d.applyForward (fuel + 1) = (((({ d with
      mirror.reorder := d.mirror.reorder.filter (fun x => x.seq != w.seq)
      mirror.nextApply := wrapAdd 16 d.mirror.nextApply 1
      mirror.missingSince := none } : Dev).writeMem w.addr w.bytes .engine).ackForward w 0).applyForward fuel) := by
  rw [Dev.applyForward, h]

/-- One write that is next in number, and no other in the buffer. -/
theorem applyForward_single {fuel : Nat} {w : FwdWrite} (hr : d.mirror.reorder = [w]) (hn : w.seq = d.mirror.nextApply) :
    let e := d.applyForward (fuel + 2)
    e.mem = (d.writeMem w.addr w.bytes .engine).mem ∧ e.mirror.nextApply = wrapAdd 16 d.mirror.nextApply 1 ∧ e.mirror.reorder = [] := by
  have hfind : d.mirror.reorder.find? (fun x => x.seq == d.mirror.nextApply) = some w := by simp [hr, hn]
  dsimp only
  rw [applyForward_applies (fuel := fuel + 1) hfind]
  have hmem := SameMap.writeMem (d := d) (e := { d with
      mirror.reorder := d.mirror.reorder.filter (fun x => x.seq != w.seq)
      mirror.nextApply := wrapAdd 16 d.mirror.nextApply 1
      mirror.missingSince := none }) ⟨rfl, rfl⟩ w.addr w.bytes .engine
  have hturn := writeMem_turn { d with
      mirror.reorder := d.mirror.reorder.filter (fun x => x.seq != w.seq)
      mirror.nextApply := wrapAdd 16 d.mirror.nextApply 1
      mirror.missingSince := none } w.addr w.bytes .engine
  generalize Dev.writeMem _ _ _ _ = e at hmem hturn ⊢
  simp only [Mirror.turn, hr, List.filter_cons, bne_self_eq_false, Bool.false_eq_true, if_false, List.filter_nil, Prod.mk.injEq] at hturn
  obtain ⟨hreorder, hnext, -⟩ := hturn
  have hack : (e.ackForward w 0).mirror = e.mirror := rfl
  rw [applyForward_waits (by rw [hack, hreorder]; rfl)]
  exact ⟨hmem, hnext, hreorder⟩

variable {p : Packet}

theorem takeLocal_mirror (r cyc : Nat) : (d.takeLocal r cyc p).mirror = d.mirror := by
  obtain ⟨_, _, _, _, _, h⟩ := takeLocal_sendsOn d r cyc p
  rw [h]

theorem SendsOn.memMirror {e : Dev} (h : SendsOn d e) : e.mem = d.mem ∧ e.mirror = d.mirror := by
  obtain ⟨_, _, _, _, _, rfl⟩ := h; exact ⟨rfl, rfl⟩

theorem tagBefore_self (a : Nat) : tagBefore a a = false := by simp [tagBefore]

theorem mirrorForwardWrite_takes (hf : d.fwdPacket p = true) (ho : formatOk p = true) (hr : d.mirror.reorder.length < 1024) :
    mirrorForwardWrite p d = (if tagBefore (pTag p) d.mirror.nextApply
      then (d.takeLocal (routerOf p.dest) 0 p).ackForward ⟨pTag p, pAddr p, pData p, p.src⟩ 2
      else ({ d.takeLocal (routerOf p.dest) 0 p with
        mirror.reorder := d.mirror.reorder ++ [⟨pTag p, pAddr p, pData p, p.src⟩] } : Dev).applyForward 1025).pumpLinks := by
  unfold mirrorForwardWrite
  rw [hf, ho, decide_eq_true hr, Bool.and_self, Bool.and_self, gate_true]
  dsimp only
  rw [takeLocal_mirror]

theorem mirrorForwardWrite_next (hf : d.fwdPacket p = true) (ho : formatOk p = true) (hr : d.mirror.reorder = [])
    (ht : pTag p = d.mirror.nextApply) :
    (mirrorForwardWrite p d).mem = ((d.takeLocal (routerOf p.dest) 0 p).writeMem (pAddr p) (pData p) .engine).mem
      ∧ (mirrorForwardWrite p d).mirror.nextApply = wrapAdd 16 d.mirror.nextApply 1 ∧ (mirrorForwardWrite p d).mirror.reorder = [] := by
  have hturn : tagBefore (pTag p) d.mirror.nextApply = false := by rw [ht]; exact tagBefore_self _
  have hnumber : (d.takeLocal (routerOf p.dest) 0 p).mirror.nextApply = d.mirror.nextApply := congrArg Mirror.nextApply (takeLocal_mirror _ _)
  rw [mirrorForwardWrite_takes hf ho (by rw [hr]; decide), hturn, if_neg Bool.false_ne_true, hr]
  generalize d.takeLocal (routerOf p.dest) 0 p = x at hnumber
  obtain ⟨hmem, hnext, hreorder⟩ := applyForward_single (fuel := 1023)
    (d := { x with mirror.reorder := [] ++ [⟨pTag p, pAddr p, pData p, p.src⟩] }) rfl (ht.trans hnumber.symm)
  obtain ⟨hmem', hmirror'⟩ := (pumpLinks_sendsOn
    (({ x with mirror.reorder := [] ++ [⟨pTag p, pAddr p, pData p, p.src⟩] } : Dev).applyForward 1025)).memMirror
  have hsame := SameMap.writeMem (d := x) (e := { x with mirror.reorder := [] ++ [⟨pTag p, pAddr p, pData p, p.src⟩] }) ⟨rfl, rfl⟩
    (pAddr p) (pData p) .engine
  rw [hmem', hmirror']
  exact ⟨hmem.trans hsame, hnext.trans (congrArg (wrapAdd 16 · 1) hnumber), hreorder⟩

theorem mirrorForwardWrite_skipped (hf : d.fwdPacket p = true) (ho : formatOk p = true) (hr : d.mirror.reorder.length < 1024)
    (ht : tagBefore (pTag p) d.mirror.nextApply = true) :
    (mirrorForwardWrite p d).mem = d.mem ∧ (mirrorForwardWrite p d).mirror = d.mirror := by
  rw [mirrorForwardWrite_takes hf ho hr, if_pos ht]
  obtain ⟨hmem, hmirror⟩ := (pumpLinks_sendsOn ((d.takeLocal (routerOf p.dest) 0 p).ackForward ⟨pTag p, pAddr p, pData p, p.src⟩ 2)).memMirror
  obtain ⟨hmem', hmirror'⟩ := (takeLocal_sendsOn d (routerOf p.dest) 0 p).memMirror
  exact ⟨hmem.trans hmem', hmirror.trans hmirror'⟩

theorem mirrorSeqSkip_skips {w : Nat} (hw : d.mirror.missingSince = some w)
    (hd : d.due w (1000 * (d.getPartFab d.mirror.regs.partition).timeoutUs) = true)
    (hn : d.mirror.reorder.find? (fun x => x.seq == wrapAdd 16 d.mirror.nextApply 1) = none) :
    (mirrorSeqSkip d).mirror.nextApply = wrapAdd 16 d.mirror.nextApply 1 ∧ (mirrorSeqSkip d).mirror.reorder = d.mirror.reorder
      ∧ (mirrorSeqSkip d).mem = d.mem := by
  have heq : mirrorSeqSkip d = ({ d with
      mirror.nextApply := wrapAdd 16 d.mirror.nextApply 1
      mirror.missingSince := none } : Dev).applyForward (1024 + 1) := by
    unfold mirrorSeqSkip
    rw [hw]
    dsimp only
    rw [hd, gate_true]
  rw [heq, applyForward_waits hn]
  exact ⟨rfl, rfl, rfl⟩

end

end Sys2Proof.Machine

namespace Sys2Proof.Machine

/-- Settles O43: each commit command's branch is read off; forwarded writes leave what their own write does. -/
theorem mirrorCommitResults : Obligations.MirrorCommitResults := by
  intro s
  dsimp only
  intro hl
  refine ⟨fun hc hr hi => ⟨fun hp => completes_of_live hl rfl ?alone, fun e hp => completes_of_live hl rfl ?equal⟩,
    fun p ht hm hs => gives_of_live hl rfl (mirrorCommit_standby ht hm hs),
    fun p ht hm hs hn => gives_of_live hl rfl (mirrorCommit_early ht hm hs hn),
    fun p e ht hm hs ho => completes_of_live hl rfl ?commits, fun own ho hm hw => completes_of_live hl rfl ?silent,
    fun p hf ho hr ht => completes_of_live hl rfl ?next, fun p hf ho hr ht => completes_of_live hl rfl ?old,
    fun w hw hd hn => completes_of_live hl rfl ?skip, fun b q hm hs ha hq => completes_of_live hl rfl ?standby,
    fun own hm hs ho => completes_of_live hl rfl ?active⟩
  case alone =>
    rw [mirrorIntervalEnd_alone hc hr hi hp, settle_mirror, intervalSent_mirror]
    exact ⟨rfl, rfl, rfl, rfl, rfl⟩
  case equal =>
    rw [mirrorIntervalEnd_equal hc hr hi hp, settle_mirror]
    dsimp only
    rw [intervalSent_mirror]
    exact ⟨⟨rfl, rfl, rfl, rfl⟩, rfl, rfl⟩
  case commits => rw [mirrorCommit_equal ht hm hs ho]; exact ⟨rfl, rfl, rfl, rfl⟩
  case silent =>
    rw [mirrorCommitTimeout_due ho hm hw]
    exact ⟨rfl, rfl, rfl, raise_parts _ _⟩
  case next =>
    rw [settle_mem, settle_mirror]
    exact mirrorForwardWrite_next hf ho hr ht
  case old =>
    obtain ⟨hmem, hmirror⟩ := mirrorForwardWrite_skipped hf ho hr ht
    rw [settle_mem, settle_mirror, hmem, hmirror]
    exact ⟨rfl, rfl, rfl⟩
  case skip =>
    rw [settle_mem, settle_mirror]
    exact mirrorSeqSkip_skips hw hd hn
  case standby =>
    rw [mirrorCommitAnswer_standby hm hs ha hq]
    exact ⟨rfl, rfl, rfl, List.mem_append_right _ List.mem_cons_self⟩
  case active => rw [mirrorCommitAnswer_active hm hs ho]; exact ⟨rfl, rfl, rfl, rfl⟩

end Sys2Proof.Machine

/-! PROOFS. The SPDM responder (R476, R477, R479, R480, R483), then O49. -/

namespace Sys2Proof.Machine

section
variable (d : Dev) (m : Message)

/-! ## What an answer leaves alone -/

/-- An answer goes out; on SMBus it also waits for its turn on the bus (R570). -/
theorem answer_shape (channel code : Nat) (content : List Byte) : ∃ g, d.answer m channel code content =
    { d with clock.out := d.clock.out ++ [.reply m.transport (Config.replyBody channel code content)], mgmt := g } := by
  unfold Dev.answer Dev.send
  dsimp only
  split
  · exact ⟨_, rfl⟩
  · exact ⟨d.mgmt, rfl⟩

section
variable (channel code : Nat) (content : List Byte)

@[simp] theorem answer_sec : (d.answer m channel code content).sec = d.sec := by obtain ⟨g, h⟩ := answer_shape d m channel code content; rw [h]
@[simp] theorem answer_mem : (d.answer m channel code content).mem = d.mem := by obtain ⟨g, h⟩ := answer_shape d m channel code content; rw [h]
@[simp] theorem answer_flash : (d.answer m channel code content).flash = d.flash := by
  obtain ⟨g, h⟩ := answer_shape d m channel code content; rw [h]
@[simp] theorem answer_host : (d.answer m channel code content).host = d.host := by obtain ⟨g, h⟩ := answer_shape d m channel code content; rw [h]

@[simp] theorem answer_freeCtr : (d.answer m channel code content).clock.freeCtr = d.clock.freeCtr := by
  obtain ⟨g, h⟩ := answer_shape d m channel code content; rw [h]

theorem answer_says : Out.reply m.transport (Config.replyBody channel code content) ∈ (d.answer m channel code content).clock.out := by
  obtain ⟨g, h⟩ := answer_shape d m channel code content
  rw [h]
  exact List.mem_append_right _ List.mem_cons_self

end

/-! ## Sessions -/

theorem ringSession_setSession (ring : Nat) (s : Session) : (d.setSession ring s).ringSession ring = s := by
  unfold Dev.setSession Dev.ringSession
  split
  · rfl
  · rfl

@[simp] theorem ring65_sec : d.ring65.sec = d.sec := rfl

theorem ringSession_congr {e : Dev} (h : e.sec = d.sec) (ring : Nat) : e.ringSession ring = d.ringSession ring := by
  simp only [Dev.ringSession, h]

theorem ringSession_closeSession (ring : Nat) : (d.closeSession ring).ringSession ring = Session.closed := by
  refine Eq.trans ?_ (ringSession_setSession d ring Session.closed)
  unfold Dev.closeSession
  dsimp only
  split
  · exact ringSession_congr _ (ring65_sec _) ring
  · rfl

/-- The role's earlier session has closed, and no handshake is pending. -/
def Dev.readyForSession (d : Dev) (ring : Nat) : Dev :=
  { d.closeSession ring with sec.spdm := { d.sec.spdm with pending := none, generation := d.sec.spdm.generation + 1 } }

/-- The session that FINISH opens (R477). -/
def Dev.newSession (d : Dev) (id : Nat) : Session :=
  { isOpen := true, id := id, key := hashBytes (Config.sessionKey id (d.sec.spdm.generation + 1)), nextSeq := 1, fails := 0, last := d.clock.wall }

theorem setSession_spdm (ring : Nat) (s : Session) : (d.setSession ring s).sec.spdm = d.sec.spdm := by
  unfold Dev.setSession
  split
  · rfl
  · rfl

theorem setSession_wall (ring : Nat) (s : Session) : (d.setSession ring s).clock.wall = d.clock.wall := by
  unfold Dev.setSession
  split
  · rfl
  · rfl

theorem closeSession_wall (ring : Nat) : (d.closeSession ring).clock.wall = d.clock.wall := by
  unfold Dev.closeSession
  dsimp only
  split
  · exact setSession_wall d ring _
  · exact setSession_wall d ring _

theorem openSession_sec (ring id : Nat) : (d.openSession ring id).sec = ((d.readyForSession ring).setSession ring (d.newSession id)).sec := by
  have hwall : (d.readyForSession ring).clock.wall = d.clock.wall := closeSession_wall d ring
  unfold Dev.newSession
  rw [← hwall]
  unfold Dev.openSession
  dsimp only
  split
  · rfl
  · rfl

theorem openSession_opens (ring id : Nat) :
    (d.openSession ring id).ringSession ring = d.newSession id ∧ (d.openSession ring id).sec.spdm.pending = none := by
  rw [ringSession_congr _ (openSession_sec d ring id), openSession_sec, ringSession_setSession, setSession_spdm]
  exact ⟨rfl, rfl⟩

end

/-! ## Requests of the negotiation (R476, R480) -/

section
variable {d : Dev} {m : Message}

theorem spdm_served {n : Nat} {f : Dev → Dev} (hs : d.serves m 4 = true) (hn : m.session = none) (hp : n ≤ d.sec.spdm.phase) :
    d.spdm m n f = f d := by
  unfold Dev.spdm
  rw [hs, gate_true, hn]
  exact if_pos hp

theorem spdm_early {n : Nat} {f : Dev → Dev} (hs : d.serves m 4 = true) (hn : m.session = none) (hp : d.sec.spdm.phase < n) :
    d.spdm m n f = d.spdmError m 0x04 := by
  unfold Dev.spdm
  rw [hs, gate_true, hn]
  exact if_neg (Nat.not_le.2 hp)

theorem spdm_refused {s : State} {n : Nat} {f : Dev → Dev} (hs : s.found.serves m 4 = true) (hn : m.session = none)
    (hp : s.found.sec.spdm.phase < n) : (s.run fun d => d.spdm m n f) = s.run (fun d => d.spdmError m 0x04) :=
  congrArg (fun d : Dev => Host.Outcome.next ({ s with dev := settle d } : State)) (spdm_early hs hn hp)

theorem getMeasurements_one {i : Nat} (hs : d.serves m 4 = true) (hn : m.session = none) (hp : 3 ≤ d.sec.spdm.phase) (hi : leAt m.body 1 1 = i)
    (h0 : 0 < i) (h7 : i ≤ 7) (hsig : (leAt m.body 0 1).testBit 0 = false) : getMeasurements m d = d.answer m 5 0xE0 (d.measured [i]) := by
  rw [getMeasurements, spdm_served hs hn hp]
  dsimp only
  rw [hi, hsig, if_neg (by omega), if_neg (by omega), if_neg (by omega), if_neg Bool.false_ne_true, List.append_nil]

/-! ## The handshake and requests within a session (R476, R477, R479, R480) -/

theorem finish_unproven {id : Nat} {kx : List Byte} (hs : d.serves m 4 = true) (hp : d.sec.spdm.pending = some (id, kx))
    (hr : d.provenRole kx m.body = none) : finish m d = ({ d with sec.spdm.pending := none } : Dev).spdmError m 0x06 := by
  unfold finish
  rw [hs, gate_true, hp]
  dsimp only
  rw [hr]

theorem finish_proven {id ring : Nat} {kx : List Byte} (hs : d.serves m 4 = true) (hp : d.sec.spdm.pending = some (id, kx))
    (hr : d.provenRole kx m.body = some ring) : finish m d = (d.openSession ring id).answer m 5 0xE5 (natLe 4 id) := by
  unfold finish
  rw [hs, gate_true, hp]
  dsimp only
  rw [hr]

theorem touch_session {ring : Nat} (h : m.session.bind d.sessionRing = some ring) :
    d.touch m = d.setSession ring { d.ringSession ring with last := d.clock.wall } := by
  obtain ⟨id, hid, hring⟩ := Option.bind_eq_some_iff.1 h
  unfold Dev.touch
  rw [hid]
  dsimp only
  rw [hring]

theorem inSession_served {ring : Nat} {f : Nat → Dev → Dev} (hs : d.serves m 4 = true) (h : m.session.bind d.sessionRing = some ring) :
    d.inSession m f = f ring (d.setSession ring { d.ringSession ring with last := d.clock.wall }) := by
  unfold Dev.inSession
  rw [hs, gate_true, h]
  exact congrArg (f ring) (touch_session h)

theorem vendorDefinedRequest_time (hs : d.serves m 4 = true) (h : m.session.bind d.sessionRing = some 64) (hc : leAt m.body 0 1 = 1)
    (hl : m.body.length = 9) : (vendorDefinedRequest m d).sec.wallBase = some (leAt m.body 1 8)
      ∧ (vendorDefinedRequest m d).sec.wallAt = d.clock.wall := by
  rw [vendorDefinedRequest, inSession_served hs h, if_pos ⟨rfl, hc, hl⟩, answer_sec]
  exact ⟨rfl, setSession_wall d 64 _⟩

/-- A field of a message is below 256 to the power of its bytes. -/
theorem leNat_lt (bs : List Byte) : leNat bs < 256 ^ bs.length := by
  induction bs with
  | nil => decide
  | cons b bs ih =>
    have hb : b.toNat < 256 := b.isLt
    rw [leNat, List.length_cons, Nat.pow_succ]
    omega

theorem leAt_lt (bs : List Byte) (off n : Nat) : leAt bs off n < 256 ^ n :=
  Nat.lt_of_lt_of_le (leNat_lt _) (Nat.pow_le_pow_right (by decide) (List.length_take_le _ _))

theorem keyExchange_offers (hs : d.serves m 4 = true) (hn : m.session = none) (hp : 3 ≤ d.sec.spdm.phase) : ∃ id, id % 65536 = leAt m.body 0 2
    ∧ keyExchange m d = ({ d.draw.2 with sec.spdm.pending := some (id, m.body) } : Dev).answer m 5 0xE4 (natLe 4 id ++ m.body) := by
  rw [keyExchange, spdm_served hs hn hp]
  refine ⟨_, ?_, rfl⟩
  have hlow := leAt_lt m.body 0 2
  omega

end

end Sys2Proof.Machine

namespace Sys2Proof.Machine

/-- Settles O49: a request that is served answers and leaves what its answer leaves; one that comes early is answered with an error. -/
theorem spdmResults : Obligations.SpdmResults := by
  intro s m
  dsimp only
  refine ⟨fun ⟨hs, hn, hp⟩ => completes_of_run rfl ?version, fun ⟨hs, hn, hp⟩ => completes_of_run rfl ?capabilities,
    fun ⟨hs, hn, hp⟩ => completes_of_run rfl ?algorithms,
    fun ⟨hs, hn, hp⟩ => ⟨completes_of_run rfl ?digests, completes_of_run rfl ?certificate, completes_of_run rfl ?challenge⟩,
    fun i ⟨hs, hn, hp⟩ hi h0 h7 hsig => completes_of_run rfl ?measurements, fun ⟨hs, hn, hp⟩ => completes_of_run rfl ?exchange,
    fun id kx hs hp => completes_of_run rfl ?finish, fun ring hs h => ⟨completes_of_run rfl ?ends, completes_of_run rfl ?update⟩,
    fun hs h hc hlen => completes_of_run rfl ?time, fun ⟨hs, hn, hp⟩ => ?early1, fun ⟨hs, hn, hp⟩ => ?early2,
    fun ⟨hs, hn, hp⟩ => ?early3⟩
  case version =>
    rw [getVersion, spdm_served hs hn hp, settle_sec, settle_clock, answer_sec]
    exact ⟨rfl, rfl, answer_says _ m 5 0x84 m.body⟩
  case capabilities =>
    rw [getCapabilities, spdm_served hs hn hp, settle_sec, settle_clock, answer_sec]
    exact ⟨rfl, answer_says _ m 5 0xE1 m.body⟩
  case algorithms =>
    rw [negotiateAlgorithms, spdm_served hs hn hp, settle_sec, settle_clock, answer_sec]
    exact ⟨rfl, answer_says _ m 5 0xE3 m.body⟩
  case digests =>
    rw [getDigests, spdm_served hs hn hp, settle_sec, settle_clock, settle_mem, settle_flash, settle_host, answer_sec, answer_mem, answer_flash,
      answer_host]
    exact ⟨⟨rfl, rfl, rfl, rfl⟩, answer_says _ m 5 0x81 m.body⟩
  case certificate =>
    rw [getCertificate, spdm_served hs hn hp, settle_sec, settle_clock, settle_mem, settle_flash, settle_host, answer_sec, answer_mem, answer_flash,
      answer_host]
    exact ⟨⟨rfl, rfl, rfl, rfl⟩, answer_says _ m 5 0x82 m.body⟩
  case challenge =>
    rw [Sys2Proof.Machine.challenge, spdm_served hs hn hp, settle_sec, settle_clock, settle_mem, settle_flash, settle_host, answer_sec, answer_mem,
      answer_flash, answer_host]
    exact ⟨⟨rfl, rfl, rfl, rfl⟩, answer_says _ m 5 0x83 _⟩
  case measurements =>
    rw [getMeasurements_one hs hn hp hi h0 h7 hsig, settle_sec, settle_clock, settle_mem, settle_flash, settle_host, answer_sec, answer_mem,
      answer_flash, answer_host]
    exact ⟨⟨rfl, rfl, rfl, rfl⟩, answer_says _ m 5 0xE0 _⟩
  case exchange =>
    obtain ⟨id, hid, heq⟩ := keyExchange_offers hs hn hp
    rw [heq, settle_sec, settle_clock, answer_sec, answer_freeCtr]
    exact ⟨id, rfl, hid, answer_says _ m 5 0xE4 _, rfl⟩
  case finish =>
    rcases hr : s.found.provenRole kx m.body with _ | ring
    · rw [finish_unproven hs hp hr, settle_sec, Dev.spdmError, answer_sec]
      exact ⟨rfl, fun _ h => (Option.some_ne_none _ h.symm).elim, fun _ => ⟨rfl, rfl⟩⟩
    · obtain ⟨hsession, hpending⟩ := openSession_opens s.found ring id
      rw [finish_proven hs hp hr]
      refine ⟨?_, fun r h => ?_, fun h => (Option.some_ne_none _ h).elim⟩
      · rw [settle_sec, answer_sec, hpending]
      · obtain rfl := Option.some.inj h
        rw [ringSession_congr (s.found.openSession ring id) (by rw [settle_sec, answer_sec]), hsession]
        exact ⟨rfl, rfl, rfl⟩
  case ends =>
    rw [endSession, inSession_served hs h, settle_clock]
    refine ⟨?_, answer_says _ m 5 0x6C m.body⟩
    rw [ringSession_congr _ ((settle_sec _).trans (answer_sec _ _ _ _ _)), ringSession_closeSession]
    rfl
  case update =>
    rw [keyUpdate, inSession_served hs h, ringSession_congr _ ((settle_sec _).trans (answer_sec _ _ _ _ _)), ringSession_setSession]
    exact ⟨rfl, rfl⟩
  case time =>
    rw [settle_sec]
    exact vendorDefinedRequest_time hs h hc hlen
  case early1 => exact spdm_refused hs hn hp
  case early2 => exact spdm_refused hs hn hp
  case early3 =>
    have hrefused : ∀ f, (s.run fun d => d.spdm m 3 f) = s.run (fun d => d.spdmError m 0x04) := fun f => spdm_refused hs hn hp
    exact ⟨hrefused _, hrefused _, hrefused _, hrefused _, hrefused _⟩

end Sys2Proof.Machine

/-! PROOFS. The management sideband (R570 to R578), then O50. -/

namespace Sys2Proof.Machine

section
variable {d : Dev} {m : Message}

/-! ## What sending changes of the management state (R570) -/

/-- A message that goes out leaves the endpoint IDs and the event receiver. -/
theorem send_shape (d : Dev) (transport : Nat) (bytes : List Byte) : ∃ q n, d.send transport bytes =
    { d with clock.out := d.clock.out ++ [.reply transport bytes], mgmt.smbQueue := q, mgmt.smbTries := n } := by
  unfold Dev.send
  dsimp only
  split
  · exact ⟨_, _, rfl⟩
  · exact ⟨d.mgmt.smbQueue, d.mgmt.smbTries, rfl⟩

theorem answer_eids (d : Dev) (m : Message) (channel code : Nat) (content : List Byte) :
    (d.answer m channel code content).mgmt.eids = d.mgmt.eids ∧ (d.answer m channel code content).mgmt.eventReceiver = d.mgmt.eventReceiver
      ∧ (d.answer m channel code content).boot = d.boot := by
  obtain ⟨q, n, h⟩ := send_shape d m.transport (Config.replyBody channel code content)
  rw [Dev.answer, h]
  exact ⟨rfl, rfl, rfl⟩

theorem send_logs (d : Dev) (transport : Nat) (bytes : List Byte) : (d.send transport bytes).evt = d.evt
    ∧ (d.send transport bytes).flash = d.flash ∧ (d.send transport bytes).sec = d.sec := by
  obtain ⟨q, n, h⟩ := send_shape d transport bytes
  rw [h]
  exact ⟨rfl, rfl, rfl⟩

/-! ## Endpoint IDs and PLDM requests (R571, R572, R574) -/

theorem setEndpointId_sets (hs : d.serves m 0 = true) (ho : leAt m.body 0 1 % 4 < 2) (hlow : 8 ≤ leAt m.body 1 1) (hhigh : leAt m.body 1 1 < 255) :
    (setEndpointId m d).eid m.transport = leAt m.body 1 1 ∧ (setEndpointId m d).boot = d.boot := by
  unfold setEndpointId
  rw [hs, gate_true]
  dsimp only
  rw [if_pos ⟨ho, hlow, hhigh⟩]
  obtain ⟨heids, -, hboot⟩ := answer_eids { d with mgmt.eids := tabSet 0 m.transport (leAt m.body 1 1) d.mgmt.eids } m 0 1
    (natLe 1 (leAt m.body 0 1 % 4)
      ++ natLe 1 (Dev.eid { d with mgmt.eids := tabSet 0 m.transport (leAt m.body 1 1) d.mgmt.eids } m.transport))
  exact ⟨(congrArg (tabGet 0 m.transport) heids).trans (tabGet_tabSet_same 0 (leAt m.body 1 1) m.transport d.mgmt.eids), hboot⟩

/-- A control request that is served is answered. -/
theorem serves_answers {kind : Nat} (hs : d.serves m kind = true) (f : Dev → Dev) : d.gate (d.serves m kind) f = f d := by
  rw [hs, gate_true]

theorem pldm_answers {type : Nat} (hs : d.serves m (if type = 0 then 1 else if type = 2 then 2 else 3) = true) (cmd : Nat)
    (content : Dev → List Byte) :
    d.pldm m type cmd content = d.answer m 1 (256 * type + cmd) (content d) :=
  serves_answers hs _

theorem setEventReceiver_sets (hs : d.serves m 2 = true) : (setEventReceiver m d).mgmt.eventReceiver
      = (if leAt m.body 0 1 = 0 then none else some (256 * m.transport + leAt m.body 2 1)) ∧ (setEventReceiver m d).mgmt.eids = d.mgmt.eids := by
  rw [setEventReceiver, serves_answers hs]
  obtain ⟨heids, hreceiver, -⟩ := answer_eids
    { d with mgmt.eventReceiver := if leAt m.body 0 1 = 0 then none else some (256 * m.transport + leAt m.body 2 1) } m 1 0x204 []
  exact ⟨hreceiver, heids⟩

/-! ## Lumxa's messages (R578) -/

theorem logReply_refused {cmd : Nat} {part : Nat → Nat → LogPart} (hs : d.serves m 5 = true) (hc : leAt m.body 4 1 = 0) :
    d.logReply m cmd part = d.send m.transport (natLe 1 cmd ++ natLe 1 1 ++ []) :=
  (serves_answers hs _).trans (if_pos (.inl hc))

theorem logReply_reads {cmd : Nat} {part : Nat → Nat → LogPart} (hs : d.serves m 5 = true)
    (hlow : 0 < leAt m.body 4 1) (hhigh : leAt m.body 4 1 ≤ 15) :
    (d.logReply m cmd part).evt = d.evt ∧ (d.logReply m cmd part).flash = d.flash ∧ (d.logReply m cmd part).sec = d.sec := by
  have hread : ∃ bytes, d.logReply m cmd part = d.send m.transport bytes :=
    ⟨_, (serves_answers hs _).trans (if_neg (by omega))⟩
  obtain ⟨bytes, heq⟩ := hread
  rw [heq]
  exact send_logs d m.transport bytes

theorem readTelemetry_reads (hs : d.serves m 5 = true) (ho : 0x1000 ≤ leAt m.body 0 2) (hlow : 8 ≤ leAt m.body 2 2)
    (hhigh : leAt m.body 2 2 ≤ 960) (h8 : leAt m.body 2 2 % 8 = 0) (he : leAt m.body 0 2 + leAt m.body 2 2 ≤ 0x1488) :
    readTelemetry m d = d.send m.transport (natLe 1 1 ++ natLe 1 0
      ++ ((d.mmioBytes 0 (leAt m.body 0 2 / 8 * 8) (leAt m.body 2 2 + 8)).drop (leAt m.body 0 2 % 8)).take (leAt m.body 2 2)) :=
  (serves_answers hs _).trans (if_neg (by omega))

theorem readBootRecord_reads {r : BootRec} (hs : d.serves m 6 = true) (hr : d.boot.records[leAt m.body 0 1]? = some r) (hi : leAt m.body 0 1 < 8) :
    readBootRecord m d = d.send m.transport (natLe 1 3 ++ natLe 1 0 ++ r.bytes) := by
  rw [readBootRecord, serves_answers hs]
  dsimp only
  rw [hr]
  exact if_pos hi

/-! ## SMBus (R570, R576) -/

theorem smbusArbitrationLoss_queued {p : List Byte} {rest : List (List Byte)} (hq : d.mgmt.smbQueue = p :: rest) : smbusArbitrationLoss d =
    if d.mgmt.smbTries < 3 then ({ d with mgmt.smbTries := d.mgmt.smbTries + 1 } : Dev).emit (.reply 0 p)
    else { d with mgmt.smbTries := 0, mgmt.smbQueue := rest } := by
  unfold smbusArbitrationLoss
  rw [hq]

theorem smbusAlertResponse_releases (ha : d.pins.alertN = false) (hs : d.boot.phase.serves 0 = true) :
    smbusAlertResponse d = ({ d with pins.alertN := true } : Dev).emit (.reply 0 (natLe 1 (2 * (0x58 + d.pins.addrStrap % 8)))) := by
  unfold smbusAlertResponse
  rw [ha, hs, Bool.not_false, Bool.and_self, gate_true]

/-! ## Packets in assembly (R572) -/

/-- The first packet of a control message of 64 bytes starts its assembly. -/
theorem mctpPacketReceive_starts {transport : Nat} {p : List Byte} (ht : transport ≠ 0) (hs : d.boot.phase.serves 0 = true)
    (hu : d.transportUp transport = true) (hv : leAt p 0 1 % 16 = 1) (hd : leAt p 1 1 = 0) (hl : (p.drop 4).length = 64)
    (hfirst : (leAt p 3 1).testBit 7 = true) (hlast : (leAt p 3 1).testBit 6 = false) (hm : leAt (p.drop 4) 0 1 % 128 = 0) :
    ∃ (rest : List Assembly) (seq : Nat), (mctpPacketReceive transport p d).mgmt.assembly = rest ++
      [{ transport := transport, eid := leAt p 2 1, mtype := leAt (p.drop 4) 0 1 % 128, tag := leAt p 3 1 % 16, seq := seq
         since := d.clock.wall, bytes := p.drop 4 }] := by
  have hframe : mctpFrame transport p = some p := if_neg ht
  have hmine : (leAt p 0 1 % 16 == 1 && (leAt p 1 1 == 0 || leAt p 1 1 == 255 || leAt p 1 1 == d.eid transport) && decide ((p.drop 4).length ≤ 64)
      && decide (0 < (p.drop 4).length)) = true := by
    rw [hv, hd, hl]; rfl
  have hok : (mctpTypes.contains (leAt (p.drop 4) 0 1 % 128) && (leAt (p.drop 4) 0 1 % 128 == 0 || d.eid transport != 0)
      && ((leAt p 3 1).testBit 6 || (p.drop 4).length == 64)) = true := by
    rw [hm, hl]; simp [mctpTypes]
  unfold mctpPacketReceive
  rw [hs, hu, Bool.and_self, gate_true, hframe]
  dsimp only
  rw [hmine, if_neg (by decide), if_pos hfirst, hok, hlast]
  exact ⟨_, _, rfl⟩

theorem mem_assemblyTimeout {transport eid mtype : Nat} (a : Assembly) :
    a ∈ (mctpAssemblyTimeout transport eid mtype d).mgmt.assembly ↔ a ∈ d.mgmt.assembly
      ∧ ¬(a.transport = transport ∧ a.eid = eid ∧ a.mtype = mtype ∧ d.due a.since 100000000 = true) := by
  unfold mctpAssemblyTimeout
  rw [List.mem_filter, Bool.not_eq_true', ← Bool.not_eq_true]
  simp only [Bool.and_eq_true, beq_iff_eq, and_assoc]

end

end Sys2Proof.Machine

namespace Sys2Proof.Machine

/-- Settles O50: each request's gate is open or shut by what the device serves, and the answer behind it is read off. -/
theorem sidebandResults : Obligations.SidebandResults := by
  intro s m
  dsimp only
  refine ⟨fun hs => ⟨fun ho hlow hhigh => completes_of_run rfl (setEndpointId_sets hs ho hlow hhigh), gives_of_run rfl (serves_answers hs _),
      gives_of_run rfl (serves_answers hs _), gives_of_run rfl (serves_answers hs _), gives_of_run rfl (serves_answers hs _),
      gives_of_run rfl (serves_answers hs _)⟩,
    fun hs => ⟨gives_of_run rfl ?silentSet, gives_of_run rfl ?silentGet⟩,
    fun hs => ⟨gives_of_run rfl (pldm_answers hs _ _), gives_of_run rfl (pldm_answers hs _ _), gives_of_run rfl (pldm_answers hs _ _),
      gives_of_run rfl (pldm_answers hs _ _)⟩,
    fun hs => ⟨gives_of_run rfl (pldm_answers hs _ _), gives_of_run rfl (pldm_answers hs _ _), gives_of_run rfl (pldm_answers hs _ _),
      gives_of_run rfl (pldm_answers hs _ _), completes_of_run rfl (setEventReceiver_sets hs)⟩,
    fun hs => ⟨fun hc => ⟨gives_of_run rfl (logReply_refused hs hc), gives_of_run rfl (logReply_refused hs hc)⟩,
      fun hlow hhigh => ⟨completes_of_run rfl ?events, completes_of_run rfl ?audit⟩,
      fun ho hlow hhigh h8 he => gives_of_run rfl (readTelemetry_reads hs ho hlow hhigh h8 he)⟩,
    fun r hs hr hi => gives_of_run rfl (readBootRecord_reads hs hr hi),
    fun p rest hq => ⟨fun hn => gives_of_run rfl ?again, fun hn => gives_of_run rfl ?dropped⟩,
    fun ha hs => completes_of_run rfl ?alert,
    fun transport p ht hs hu hv hd hlen hfirst hlast hm => completes_of_run rfl ?packet,
    fun transport eid mtype => completes_of_run rfl (fun a => mem_assemblyTimeout a)⟩
  case silentSet => rw [setEndpointId, hs, gate_false]
  case silentGet => rw [getEndpointId, hs, gate_false]
  case events =>
    obtain ⟨hevt, hflash, -⟩ := logReply_reads (cmd := 2) (part := fun f n => s.found.eventPart f n (fun _ => true)) hs hlow hhigh
    exact ⟨hevt, hflash⟩
  case audit =>
    obtain ⟨-, hflash, hsec⟩ := logReply_reads (cmd := 4) (part := s.found.auditPart) hs hlow hhigh
    exact ⟨hsec, hflash⟩
  case again => rw [smbusArbitrationLoss_queued hq, if_pos hn]
  case dropped => rw [smbusArbitrationLoss_queued hq, if_neg (Nat.not_lt.2 hn)]
  case alert =>
    rw [smbusAlertResponse_releases ha hs]
    exact ⟨rfl, List.mem_append_right _ List.mem_cons_self, rfl⟩
  case packet =>
    obtain ⟨rest, seq, heq⟩ := mctpPacketReceive_starts ht hs hu hv hd hlen hfirst hlast hm
    rw [settle_mgmt, heq]
    exact ⟨_, List.mem_append_right _ List.mem_cons_self, rfl, rfl, rfl, rfl⟩

end Sys2Proof.Machine

/-! PROOFS. Firmware update over PLDM (R471, R532, R577) and the test port (R487, R586 to R590), then O51. -/

namespace Sys2Proof.Machine

section
variable {d : Dev} {m : Message}

/-! ## Firmware update (R532, R577) -/

theorem update_refused {cmd : Nat} {f : Dev → Dev} (hs : d.serves m 3 = true) (hp : d.boot.phase ≠ .recovery) :
    d.update m cmd f = d.answer m 1 (0x500 + cmd) (natLe 1 unableToUpdate) :=
  (serves_answers hs _).trans (if_neg hp)

theorem update_served {cmd : Nat} {f : Dev → Dev} (hs : d.serves m 3 = true) (hp : d.boot.phase = .recovery) : d.update m cmd f = f d :=
  (serves_answers hs _).trans (if_pos hp)

@[simp] theorem answer_boot (channel code : Nat) (content : List Byte) : (d.answer m channel code content).boot = d.boot :=
  (answer_eids d m channel code content).2.2

theorem pldmUpdateOther_starts (hs : d.serves m 3 = true) (hp : d.boot.phase = .recovery) (hc : leAt m.body 0 1 = 0x10) :
    (pldmUpdateOther m d).boot.updateBody = [] ∧ (pldmUpdateOther m d).boot.updateVerified = false := by
  unfold pldmUpdateOther
  dsimp only
  rw [update_served hs hp, if_pos hc, answer_boot]
  exact ⟨rfl, rfl⟩

theorem pldmUpdateOther_takes (hs : d.serves m 3 = true) (hp : d.boot.phase = .recovery) (hc : leAt m.body 0 1 = 0x15)
    (hlow : 32 ≤ (m.body.drop 1).length) (hhigh : (m.body.drop 1).length ≤ 960) :
    (pldmUpdateOther m d).boot.updateBody = d.boot.updateBody ++ m.body.drop 1 ∧ (pldmUpdateOther m d).flash = d.flash := by
  unfold pldmUpdateOther
  dsimp only
  rw [update_served hs hp, if_neg (by rw [hc]; decide), if_pos hc, if_neg (by omega), answer_boot, answer_flash]
  exact ⟨rfl, rfl⟩

/-- R471, R532: the image goes into the bank that is not active, and is verified. -/
theorem transferComplete_writes (hs : d.serves m 3 = true) (hp : d.boot.phase = .recovery) :
    let img := d.boot.updateBody.take (512 + leAt d.boot.updateBody 12 4)
    let e := transferComplete m d
    e.flash = d.flash.setBank 0 (1 - d.flash.activeBank) ⟨img, (fwFlaw d.fuses.p0 img).isNone, true⟩
      ∧ e.boot.updateVerified = (fwFlaw d.fuses.p0 img).isNone ∧ e.boot.phase = .recovery := by
  unfold transferComplete
  dsimp only
  rw [update_served hs hp, answer_flash, answer_flash, answer_boot, answer_boot]
  exact ⟨rfl, rfl, hp⟩

/-- A whole reset keeps the bank recorded as active (R528). -/
theorem selfReset_activeBank (d : Dev) (cause attempt : Nat) : (d.selfReset cause attempt).flash.activeBank = d.flash.activeBank := by
  have hflushed : (if cause = 2 ∨ cause = 3 then d.flushEvents else d).flash.activeBank = d.flash.activeBank := by
    split
    · rfl
    · rfl
  unfold Dev.selfReset
  dsimp only
  generalize (if cause = 2 ∨ cause = 3 then d.flushEvents else d) = x at hflushed
  obtain ⟨c, hc⟩ := each_emit_shape (fun r => .setpoint r 800) (upTo 8) x.linksStop
  rw [hc]
  exact hflushed

theorem activateFirmware_resets (hs : d.serves m 3 = true) (hp : d.boot.phase = .recovery) (hv : d.boot.updateVerified = true) :
    (activateFirmware m d).boot.phase = .selfReset ∧ (activateFirmware m d).boot.record.cause = 5
      ∧ (activateFirmware m d).flash.activeBank = 1 - d.flash.activeBank := by
  have heq : ∃ e : Dev, activateFirmware m d = e.selfReset 5 1 ∧ e.flash.activeBank = 1 - d.flash.activeBank := by
    unfold activateFirmware
    rw [update_served hs hp]
    dsimp only
    rw [if_pos hv]
    exact ⟨_, rfl, by rw [answer_flash]⟩
  obtain ⟨e, heq, hbank⟩ := heq
  rw [heq, selfReset_activeBank]
  exact ⟨rfl, rfl, hbank⟩

/-! ## The TAPs (R487, R586, R587) -/

theorem trstNAssert_idcode {p : Nat} (hp : p < 4) : (trstNAssert d).getTap p = { d.getTap p with ir := 1 } :=
  (each_modify (g := Dev.getTap) (h := fun t => { t with ir := 1 }) (fun d k => modTap_same d k _) (fun d _ _ hj => modTap_ne d _ hj)
    (List.nodup_range (n := 4)) d p).trans (if_pos (List.mem_range.2 hp))

theorem trstNAssert_mem : (trstNAssert d).mem = d.mem := each_keeps Dev.mem _ (fun d p => by rfl) _ d

variable {die : Nat}

theorem tapDo_unlocked {instruction scope : Nat} {f : Dev → Dev} (hd : die < 4) (hu : d.sec.debugScope.testBit scope = true) :
    d.tapDo die instruction scope f = f (d.modTap die (fun t => { t with ir := instruction })) := by
  unfold Dev.tapDo
  rw [decide_eq_true hd, gate_true]
  exact if_pos hu

theorem tapDo_locked {instruction scope : Nat} {f : Dev → Dev} (hd : die < 4) (hu : d.sec.debugScope.testBit scope = false) :
    d.tapDo die instruction scope f = d.modTap die (fun t => { t with ir := 0xFF }) := by
  unfold Dev.tapDo
  rw [decide_eq_true hd, gate_true]
  exact if_neg (Bool.eq_false_iff.1 hu)

/-! ## Tests (R541, R589) -/

/-- The fields of BIST_RUN's register. -/
theorem bistValue_fields {test target : Nat} (ht : test < 16) (hg : target < 64) :
    fld (test + 16 * target) 0 4 = test ∧ fld (test + 16 * target) 4 6 = target ∧ fld (test + 16 * target) 10 22 = 0 := by
  simp only [fld, Nat.shiftRight_eq_div_pow]
  omega

/-- R589: a test starts where its target is out of service. -/
theorem bistRun_unlocked {test target : Nat} (hd : die < 4) (ht : test < 16) (hg : target < 64) (hu : d.sec.debugScope.testBit 1 = true)
    (hs : (d.getTap die).state ≠ 1) : (bistRun die (test + 16 * target) d).getTap die =
      if d.bistFree die test target then
        { d.getTap die with ir := 0x10, test := test, target := target, state := 1, refused := false, failures := 0, first := 0 }
      else { d.getTap die with ir := 0x10, refused := true } := by
  obtain ⟨htest, htarget, hhigh⟩ := bistValue_fields ht hg
  have hidle : ((d.getTap die).state != 1) = true := bne_iff_ne.2 hs
  have hfree : (d.modTap die (fun t => { t with ir := 0x10 })).bistFree die test target = d.bistFree die test target := rfl
  unfold bistRun
  rw [tapDo_unlocked hd hu]
  dsimp only
  rw [htest, htarget, hhigh, hfree, modTap_same, modTap_same]
  dsimp only
  rw [beq_self_eq_true, hidle, Bool.and_self, Bool.true_and]

theorem logFaults_nil (d : Dev) : d.logFaults [] = d := rfl

/-- R541, R589: a test that ends without a fault to log. -/
theorem bistDone_ends {n first : Nat} (hs : (d.getTap die).state = 1) : bistDone die n first [] d =
    (if (d.getTap die).test = 0 then d.clearSram (2 * die + (d.getTap die).target) else d).modTap die (fun t =>
      { t with state := if n = 0 then 2 else 3, failures := min n 255, first := first % 65536 }) := by
  unfold bistDone
  dsimp only
  rw [hs, beq_self_eq_true, gate_true, logFaults_nil, List.filter_nil, Dev.each, List.foldl_nil]

theorem clearSram_mem (half : Nat) : (d.clearSram half).mem = d.mem.zeroHalf half := by
  unfold Dev.clearSram
  refine each_keeps Dev.mem _ (fun e k => ?_) _ _
  refine (each_keeps Dev.mem _ (fun e q => ?_) _ _).trans ?_
  · rfl
  · rfl

/-! ## MEM_READ (R286, R287, R590) -/

theorem rawWord_mem (a : Nat) : (d.rawWord a).1.mem = d.mem ∧ (d.rawWord a).1.test = d.test := by
  unfold Dev.rawWord
  dsimp only
  split
  · exact ⟨rfl, rfl⟩
  · exact ⟨rfl, rfl⟩
  · exact ⟨rfl, rfl⟩
  · exact ⟨rfl, rfl⟩

/-- A sound word with its check bits. -/
theorem rawWord_sound {a : Nat} (h : d.mem.errOf (a / 8) = .none) :
    d.rawWord a = (d, leNat (d.mem.bytes a 8) + 2 ^ 64 * (Config.checkBits (BitVec.ofNat 64 (leNat (d.mem.bytes a 8)))).toNat) := by
  unfold Dev.rawWord
  rw [h]

theorem memRead_keeps {addr cyc : Nat} (hd : die < 4) (hu : d.sec.debugScope.testBit 3 = true) :
    (memRead die addr cyc d).mem = d.mem ∧ ((memRead die addr cyc d).getTap die).ir = 0x30 := by
  have hir := congrArg Tap.ir (modTap_same d die (fun t => { t with ir := 0x30 }))
  unfold memRead
  rw [tapDo_unlocked hd hu]
  dsimp only
  generalize (_ && _ : Bool) = sram
  cases sram with
  | false => exact ⟨rfl, hir⟩
  | true =>
    obtain ⟨hmem, htest⟩ := rawWord_mem (d := d.modTap die (fun t => { t with ir := 0x30 })) addr
    exact ⟨hmem, (congrArg (fun t : Test => (tabGet ({} : Tap) die t.taps).ir) htest).trans hir⟩

theorem memRead_quarry {addr tile off cyc : Nat} (hd : die < 4) (hu : d.sec.debugScope.testBit 3 = true) (hl : d.locate addr = .quarry die tile off)
    (hdie : addr / 2 ^ 46 = die) (h8 : addr % 8 = 0) (he : d.mem.errOf (addr / 8) = .none) :
    memRead die addr cyc d = (d.modTap die (fun t => { t with ir := 0x30 })).emit (.reply 3 (natLe 11 (leNat (d.mem.bytes addr 8)
      + 2 ^ 64 * (Config.checkBits (BitVec.ofNat 64 (leNat (d.mem.bytes addr 8)))).toNat))) := by
  have hplace : (d.modTap die (fun t => { t with ir := 0x30 })).locate addr = .quarry die tile off := hl
  have hword := rawWord_sound (d := d.modTap die (fun t => { t with ir := 0x30 })) he
  unfold memRead
  rw [tapDo_unlocked hd hu]
  dsimp only
  rw [hplace, hdie, h8, hword]
  simp

/-! ## Test mode (R588) -/

/-- What holds of the default and of every value put under a key holds of what is read. -/
theorem tabGet_map_all {α : Type} {P : α → Prop} {f : α → α} {x : α} (hx : P x) (hf : ∀ v, P (f v)) (k : Nat) (l : List (Nat × α)) :
    P (tabGet x k (l.map (fun y => (y.1, f y.2)))) := by
  induction l with
  | nil => exact hx
  | cons y l ih =>
    rw [List.map_cons, tabGet]
    split
    · exact hf y.2
    · exact ih

theorem linksStop_state (e : Nat) : (d.linksStop.getLink e).regs.state = 0 :=
  tabGet_map_all (P := fun l : Link => l.regs.state = 0)
    (f := fun l => { l with regs.state := 0, regs.width := 0, train := { cached := l.train.cached }, routed := {} }) rfl (fun _ => rfl) e d.links

theorem testModeEntry_enters {x : Nat} (hd : die < 4) (hx : x ∈ [3, 4, 5, 6, 7]) (hu : d.sec.debugScope.testBit 0 = true) :
    testModeEntry die x d = if d.test.testMode then d.modTap die (fun t => { t with ir := x })
      else { (d.modTap die (fun t => { t with ir := x })).linksStop with test.testMode := true } := by
  have hin : ([3, 4, 5, 6, 7, 0x21].contains x) = true := List.contains_iff_mem.2 (List.mem_append_left [0x21] hx)
  have hscan : x ≠ 0x21 := fun h => by subst h; exact absurd hx (by decide)
  unfold testModeEntry
  rw [hin, gate_true, if_neg hscan, tapDo_unlocked hd hu]
  rfl

theorem testModeEntry_test {x : Nat} (hd : die < 4) (hx : x ∈ [3, 4, 5, 6, 7]) (hu : d.sec.debugScope.testBit 0 = true) :
    (testModeEntry die x d).test.testMode = true := by
  rw [testModeEntry_enters hd hx hu]
  split
  · assumption
  · rfl

theorem testModeEntry_ir {x : Nat} (hd : die < 4) (hx : x ∈ [3, 4, 5, 6, 7]) (hu : d.sec.debugScope.testBit 0 = true) :
    ((testModeEntry die x d).getTap die).ir = x := by
  have hir := congrArg Tap.ir (modTap_same d die (fun t => { t with ir := x }))
  rw [testModeEntry_enters hd hx hu]
  split
  · exact hir
  · exact hir

theorem testModeEntry_links {x : Nat} (hd : die < 4) (hx : x ∈ [3, 4, 5, 6, 7]) (hu : d.sec.debugScope.testBit 0 = true)
    (hm : d.test.testMode = false) (e : Nat) : ((testModeEntry die x d).getLink e).regs.state = 0 := by
  rw [testModeEntry_enters hd hx hu, if_neg (Bool.eq_false_iff.1 hm)]
  exact linksStop_state e

end

end Sys2Proof.Machine

namespace Sys2Proof.Machine

/-- Settles O51: what serves a request or unlocks an instruction opens its gate, and the branch behind it is read off. -/
theorem recoveryAndTestResults : Obligations.RecoveryAndTestResults := by
  intro s m
  dsimp only
  refine ⟨fun hs => ⟨gives_of_run rfl (pldm_answers hs _ _), gives_of_run rfl (pldm_answers hs _ _)⟩,
    fun hs hp => ⟨gives_of_run rfl (update_refused hs hp), gives_of_run rfl (update_refused hs hp), gives_of_run rfl (update_refused hs hp)⟩,
    fun hs hp => ⟨fun hc => completes_of_run rfl (pldmUpdateOther_starts hs hp hc),
      fun hc hlow hhigh => completes_of_run rfl (pldmUpdateOther_takes hs hp hc hlow hhigh),
      completes_of_run rfl (transferComplete_writes hs hp), fun hv => completes_of_run rfl ?activate⟩,
    completes_of_run rfl ⟨fun p hp => ?trst, ?trstMem⟩, fun die test target hl hd ht hg hu hst => completes_of_live hl rfl ?run,
    fun die v hl hd hu => gives_of_live hl rfl (tapDo_locked hd hu), fun die n first hl hst => completes_of_live hl rfl ?done,
    fun die addr cyc hl hd hu => completes_of_live hl rfl ?read, fun die tile off cyc hl hd hu hloc ho hdie h8 he => completes_of_live hl rfl ?word,
    fun die x hl hd hx hu => completes_of_live hl rfl ?mode⟩
  case activate =>
    rw [settle_boot, settle_flash]
    exact activateFirmware_resets hs hp hv
  case trst =>
    rw [settle_getTap, trstNAssert_idcode hp]
    exact ⟨rfl, rfl⟩
  case trstMem =>
    rw [settle_mem]
    exact trstNAssert_mem
  case run =>
    rw [settle_getTap, bistRun_unlocked hd ht hg hu hst]
    cases s.found.bistFree die test target with
    | true => exact ⟨rfl, fun _ => ⟨rfl, rfl, rfl, rfl⟩, fun h => Bool.noConfusion h⟩
    | false => exact ⟨rfl, fun h => Bool.noConfusion h, fun _ => ⟨rfl, rfl⟩⟩
  case done =>
    rw [bistDone_ends hst, settle_getTap, settle_mem, modTap_same, modTap_mem]
    refine ⟨rfl, rfl, rfl, fun ht => ?_⟩
    rw [if_pos ht, clearSram_mem]
  case read =>
    rw [settle_mem, settle_getTap]
    exact memRead_keeps hd hu
  case word =>
    rw [memRead_quarry hd hu hloc hdie h8 he]
    exact List.mem_append_right _ List.mem_cons_self
  case mode =>
    rw [settle_test, settle_getTap]
    exact ⟨testModeEntry_test hd hx hu, testModeEntry_ir hd hx hu, fun hm e => by
      rw [settle_getLink]
      exact testModeEntry_links hd hx hu hm e⟩

end Sys2Proof.Machine

/-! PROOFS. Power estimates, coefficients, TRIM, regulators and recalibration (R490, R494 to R497, R501, R516, R517, R564), and what O44 says of
the fused threshold LOW. -/

namespace Sys2Proof.Machine

section
variable {d : Dev} {h : Nat}

/-- Entries of a table changed one after another, each by its own key and in a way of its own. -/
theorem each_modify_at {β : Type} {g : Dev → Nat → β} {f : Dev → Nat → Dev} {u : Nat → β → β}
    (hsame : ∀ d k, g (f d k) k = u k (g d k)) (hother : ∀ d k j, j ≠ k → g (f d k) j = g d j)
    {l : List Nat} (hl : l.Nodup) (d : Dev) {j : Nat} (hj : j ∈ l) : g (Dev.each l f d) j = u j (g d j) := by
  have hpair := each_modify (g := fun d k => (k, g d k)) (h := fun x => (x.1, u x.1 x.2)) (f := f)
    (fun d k => congrArg (Prod.mk k) (hsame d k)) (fun d k j hj => congrArg (Prod.mk j) (hother d k j hj)) hl d j
  rw [if_pos hj] at hpair
  exact congrArg Prod.snd hpair

/-! ## The estimate of a microsecond (R501, R516) -/

theorem addEnergy_kept (n : Option Nat) (nj : Nat) : (d.addEnergy n nj).pow.est = d.pow.est ∧ (d.addEnergy n nj).powu = d.powu := by
  cases n with
  | none => exact ⟨rfl, rfl⟩
  | some n => exact ⟨rfl, rfl⟩

theorem shareRail_kept (rail nj : Nat) (act : Nat → Nat) :
    ((d.shareRail rail nj act).pow.est, (d.shareRail rail nj act).powu) = (d.pow.est, d.powu) := by
  have hadd : ∀ (d : Dev) n nj, ((d.addEnergy n nj).pow.est, (d.addEnergy n nj).powu) = (d.pow.est, d.powu) := fun d n nj =>
    Prod.ext (addEnergy_kept n nj).1 (addEnergy_kept n nj).2
  unfold Dev.shareRail
  split
  · exact hadd _ _ _
  · split
    · exact (hadd _ _ _).trans (hadd _ _ _)
    · split
      · dsimp only
        split
        · exact hadd _ _ _
        · refine (hadd _ _ _).trans (each_keeps (fun d => (d.pow.est, d.powu)) _ (fun d n => ?_) _ d)
          split
          · rfl
          · exact hadd _ _ _
      · exact hadd _ _ _

/-- Calibrated energy of a rail in 1 µs, in nJ. -/
def Dev.railNj (d : Dev) (raw : List Nat) (r : Nat) : Nat := raw.getD r 0 * (d.getRail r).coeff / 1000

/-- What a tick does for one rail. -/
def estimateRail (raw : List Nat) (activity : List (Nat × Nat)) (d : Dev) (r : Nat) : Dev :=
  let nj := d.railNj raw r
  let d := if nj = 0 then d else (d.modRail r (fun x => { x with estSum := x.estSum + nj })).shareRail r nj (fun n => tabGet 0 (8 * r + n) activity)
  if r < 8 then
    { d with pow.halfEst := tabSet [] r (lastTen (tabGet [] r d.pow.halfEst ++ [nj * 1000 / (d.getHalfPow r).setpoint])) d.pow.halfEst }
  else d

/-- What a tick does for one slab's share of gravel. -/
def estimateGravel (gravel : List Nat) (d : Dev) (s : Nat) : Dev :=
  let g := gravel.getD s 0
  if g = 0 then d
  else match d.holder (halfOfUnit s) with
    | some n => { d with pow.gravel := tabSet 0 n (tabGet 0 n d.pow.gravel + g) d.pow.gravel }
    | none => d

/-- What a tick does for one sensed rail. -/
def senseRail (d : Dev) (x : RailSense) : Dev :=
  d.modRail x.rail (fun r => { r with voltage := x.voltage, current := x.current, power := x.power })

/-- A tick for its rails, its gravel and its sensors, before the sum is recorded. -/
def Dev.estimated (d : Dev) (raw gravel : List Nat) (activity : List (Nat × Nat)) (sensed : List RailSense) : Dev :=
  Dev.each sensed senseRail (Dev.each (upTo 32) (estimateGravel gravel) (Dev.each (upTo 38) (estimateRail raw activity) d))

theorem powerEstimateTick_eq (raw gravel : List Nat) (activity : List (Nat × Nat)) (sensed : List RailSense) (d : Dev) :
    powerEstimateTick raw gravel activity sensed d =
      { d.estimated raw gravel activity sensed with
        pow.est := lastTen ((d.estimated raw gravel activity sensed).pow.est ++ [(upTo 38).foldl (fun n r => n + d.railNj raw r) 0]) } := rfl

/-- The sum of a rail, once the tick has added to it. -/
def Rail.adds (nj : Nat) (x : Rail) : Rail := { x with estSum := x.estSum + nj }

theorem estimateRail_est (raw : List Nat) (activity : List (Nat × Nat)) (d : Dev) (r : Nat) :
    (estimateRail raw activity d r).pow.est = d.pow.est := by
  have hshare := fun act => congrArg Prod.fst (shareRail_kept (d := d.modRail r (Rail.adds (d.railNj raw r))) r (d.railNj raw r) act)
  unfold estimateRail
  dsimp only
  split
  · split
    · rfl
    · exact hshare _
  · split
    · rfl
    · exact hshare _

theorem estimateRail_powu (raw : List Nat) (activity : List (Nat × Nat)) (d : Dev) (r : Nat) :
    (estimateRail raw activity d r).powu = if d.railNj raw r = 0 then d.powu else (d.modRail r (Rail.adds (d.railNj raw r))).powu := by
  have hshare := fun act => congrArg Prod.snd (shareRail_kept (d := d.modRail r (Rail.adds (d.railNj raw r))) r (d.railNj raw r) act)
  have hcurrent : (estimateRail raw activity d r).powu = (if d.railNj raw r = 0 then d else
      (d.modRail r (Rail.adds (d.railNj raw r))).shareRail r (d.railNj raw r) (fun n => tabGet 0 (8 * r + n) activity)).powu := by
    unfold estimateRail
    dsimp only
    split
    · rfl
    · rfl
  rw [hcurrent]
  split
  · rfl
  · exact hshare _

theorem getRail_of_powu {d e : Dev} (h : e.powu = d.powu) (r : Nat) : e.getRail r = d.getRail r :=
  congrArg (fun u : PowerUnits => tabGet ({} : Rail) r u.rails) h

theorem estimateRail_same (raw : List Nat) (activity : List (Nat × Nat)) (d : Dev) (r : Nat) :
    (estimateRail raw activity d r).getRail r = (d.getRail r).adds (raw.getD r 0 * (d.getRail r).coeff / 1000) := by
  have hpowu := estimateRail_powu raw activity d r
  by_cases hnj : d.railNj raw r = 0
  · rw [if_pos hnj] at hpowu
    rw [getRail_of_powu hpowu, ← Dev.railNj, hnj]
    rfl
  · rw [if_neg hnj] at hpowu
    rw [getRail_of_powu hpowu, modRail_same]
    rfl

theorem estimateRail_other (raw : List Nat) (activity : List (Nat × Nat)) (d : Dev) (r j : Nat) (hj : j ≠ r) :
    (estimateRail raw activity d r).getRail j = d.getRail j := by
  have hpowu := estimateRail_powu raw activity d r
  split at hpowu
  · exact getRail_of_powu hpowu j
  · exact (getRail_of_powu hpowu j).trans (modRail_ne d _ hj)

theorem estimateGravel_kept (gravel : List Nat) (d : Dev) (s : Nat) :
    (estimateGravel gravel d s).pow.est = d.pow.est ∧ (estimateGravel gravel d s).powu = d.powu := by
  unfold estimateGravel
  dsimp only
  split
  · exact ⟨rfl, rfl⟩
  · split
    · exact ⟨rfl, rfl⟩
    · exact ⟨rfl, rfl⟩

theorem senseRail_estSum (x : RailSense) (d : Dev) (r : Nat) : ((senseRail d x).getRail r).estSum = (d.getRail r).estSum := by
  unfold senseRail
  by_cases hr : r = x.rail
  · rw [hr, modRail_same]
  · rw [modRail_ne d _ hr]

section
variable (d) (raw gravel : List Nat) (activity : List (Nat × Nat)) (sensed : List RailSense)

theorem estimated_est : (d.estimated raw gravel activity sensed).pow.est = d.pow.est := by
  unfold Dev.estimated
  refine (each_keeps (fun d => d.pow.est) senseRail (fun _ _ => rfl) sensed _).trans ?_
  refine (each_keeps (fun d => d.pow.est) _ (fun d s => (estimateGravel_kept gravel d s).1) (upTo 32) _).trans ?_
  exact each_keeps (fun d => d.pow.est) _ (estimateRail_est raw activity) (upTo 38) d

theorem estimated_estSum {r : Nat} (hr : r < 38) :
    ((d.estimated raw gravel activity sensed).getRail r).estSum = (d.getRail r).estSum + d.railNj raw r := by
  have hrails := each_modify_at (u := fun k x => x.adds (raw.getD k 0 * x.coeff / 1000)) (estimateRail_same raw activity)
    (estimateRail_other raw activity) (List.nodup_range (n := 38)) d (List.mem_range.2 hr)
  unfold Dev.estimated
  refine (each_keeps (fun d => (d.getRail r).estSum) _ (fun d x => senseRail_estSum x d r) sensed _).trans ?_
  refine (congrArg Rail.estSum (getRail_of_powu (each_keeps Dev.powu _ (fun d s => (estimateGravel_kept gravel d s).2) (upTo 32) _) r)).trans ?_
  exact congrArg Rail.estSum hrails

theorem powerEstimateTick_est : (powerEstimateTick raw gravel activity sensed d).pow.est =
    lastTen (d.pow.est ++ [(upTo 38).foldl (fun n r => n + d.railNj raw r) 0]) := by
  rw [powerEstimateTick_eq]
  dsimp only
  rw [estimated_est]

end

/-! ## Coefficients (R501) -/

/-- A rail's coefficient after the sums are compared: R501's 0.8 to 1.25. -/
def Rail.recal (energy : Nat) (x : Rail) : Rail :=
  if x.estSum = 0 then x else { x with coeff := x.coeff * max 800 (min 1250 (energy * 1000 / x.estSum)) / 1000, estSum := 0 }

theorem coeffRecal_getRail (e : List Nat) (d : Dev) {r : Nat} (hr : r < 38) : (coeffRecal e d).getRail r = (d.getRail r).recal (e.getD r 0) :=
  each_modify_at (g := Dev.getRail) (f := fun d r => d.modRail r (Rail.recal (e.getD r 0))) (u := fun k x => x.recal (e.getD k 0))
    (fun d k => modRail_same d k _) (fun d _ _ hj => modRail_ne d _ hj) (List.nodup_range (n := 38)) d (List.mem_range.2 hr)

/-! ## Setpoints and TRIM (R490, R494 to R497) -/

/-- A new setpoint changes the setpoint and its tries at most. -/
theorem newSetpoint_getHalfPow (d : Dev) (h : Nat) :
    ∃ v n, (d.newSetpoint h).getHalfPow h = { d.getHalfPow h with setpoint := v, tries := n } := by
  unfold Dev.newSetpoint
  split
  · exact ⟨_, _, rfl⟩
  · exact ⟨d.setpointOf h, 0, by rw [emit_getHalfPow, modHalfPow_same]⟩

theorem newSetpoint_other (d : Dev) {h k : Nat} (hk : k ≠ h) : (d.newSetpoint h).getHalfPow k = d.getHalfPow k := by
  unfold Dev.newSetpoint
  split
  · rfl
  · rw [emit_getHalfPow, modHalfPow_ne d _ hk]

/-- TRIM after a move, within R495's bounds. -/
def trimMoved (trim mv : Int) : Int := max (-40) (min 60 (trim + mv))

theorem getHalfPow_of_powu {d e : Dev} (h : e.powu = d.powu) (k : Nat) : e.getHalfPow k = d.getHalfPow k :=
  congrArg (fun u : PowerUnits => tabGet ({} : HalfPower) k u.halves) h

/-- A move of TRIM goes into the cache, and a new setpoint follows. -/
theorem moveTrim_eq (d : Dev) (h : Nat) (mv : Int) :
    ∃ e : Dev, d.moveTrim h mv = e.newSetpoint h ∧ e.powu = (d.modHalfPow h (fun p => { p with trim := trimMoved p.trim mv })).powu :=
  ⟨_, rfl, rfl⟩

theorem moveTrim_getHalfPow (d : Dev) (h : Nat) (mv : Int) :
    ∃ v n, (d.moveTrim h mv).getHalfPow h = { d.getHalfPow h with trim := trimMoved (d.getHalfPow h).trim mv, setpoint := v, tries := n } := by
  obtain ⟨e, heq, hpowu⟩ := moveTrim_eq d h mv
  obtain ⟨v, n, hset⟩ := newSetpoint_getHalfPow e h
  rw [getHalfPow_of_powu hpowu, modHalfPow_same] at hset
  rw [heq]
  exact ⟨v, n, hset⟩

theorem moveTrim_other (d : Dev) (mv : Int) {h k : Nat} (hk : k ≠ h) : (d.moveTrim h mv).getHalfPow k = d.getHalfPow k := by
  obtain ⟨e, heq, hpowu⟩ := moveTrim_eq d h mv
  rw [heq, newSetpoint_other e hk, getHalfPow_of_powu hpowu, modHalfPow_ne d _ hk]

/-- What a margin does to TRIM, before the supply limit is looked at. -/
def Dev.marginTrim (d : Dev) (h margin : Nat) : Dev :=
  if (d.getHalfPow h).frozen then d
  else
    if decide (margin < Config.marginLow h) then (d.modHalfPow h (fun p => { p with highCount := 0 })).moveTrim h 5
    else if Config.marginHigh h < margin then
      if 63 ≤ (d.getHalfPow h).highCount then (d.modHalfPow h (fun p => { p with highCount := 0 })).moveTrim h (-5)
      else d.modHalfPow h (fun p => { p with highCount := p.highCount + 1 })
    else d.modHalfPow h (fun p => { p with highCount := 0 })

theorem marginReading_eq (margin : Nat) : marginReading h margin d =
    if decide (margin < Config.marginLow h) ∧ (d.marginTrim h margin).setpointOf h = 850 then (d.marginTrim h margin).powerEv 5 0 5 h 0
    else d.marginTrim h margin := rfl

theorem marginReading_getHalfPow (margin k : Nat) : (marginReading h margin d).getHalfPow k = (d.marginTrim h margin).getHalfPow k := by
  rw [marginReading_eq]
  split
  · exact raise_getHalfPow _ _ _
  · rfl

theorem marginTrim_other (margin : Nat) {k : Nat} (hk : k ≠ h) : (d.marginTrim h margin).getHalfPow k = d.getHalfPow k := by
  unfold Dev.marginTrim
  split
  · rfl
  · split
    · exact (moveTrim_other _ _ hk).trans (modHalfPow_ne d _ hk)
    · split
      · split
        · exact (moveTrim_other _ _ hk).trans (modHalfPow_ne d _ hk)
        · exact modHalfPow_ne d _ hk
      · exact modHalfPow_ne d _ hk

theorem moveTrim_trim (d : Dev) (h : Nat) (mv : Int) : ((d.moveTrim h mv).getHalfPow h).trim = trimMoved (d.getHalfPow h).trim mv := by
  obtain ⟨v, n, heq⟩ := moveTrim_getHalfPow d h mv
  rw [heq]

theorem marginTrim_trim (margin : Nat) (hf : (d.getHalfPow h).frozen = false) : ((d.marginTrim h margin).getHalfPow h).trim =
    if margin < Config.marginLow h then trimMoved (d.getHalfPow h).trim 5
    else if Config.marginHigh h < margin ∧ 63 ≤ (d.getHalfPow h).highCount then trimMoved (d.getHalfPow h).trim (-5)
    else (d.getHalfPow h).trim := by
  have hmoved : ∀ mv, (((d.modHalfPow h (fun p => { p with highCount := 0 })).moveTrim h mv).getHalfPow h).trim =
      trimMoved (d.getHalfPow h).trim mv := fun mv => by rw [moveTrim_trim, modHalfPow_same]
  unfold Dev.marginTrim
  rw [if_neg (Bool.eq_false_iff.1 hf)]
  by_cases hlow : margin < Config.marginLow h
  · rw [if_pos (decide_eq_true hlow), if_pos hlow, hmoved]
  · rw [if_neg (fun hd => hlow (of_decide_eq_true hd)), if_neg hlow]
    by_cases hhigh : Config.marginHigh h < margin
    · rw [if_pos hhigh]
      by_cases hcount : 63 ≤ (d.getHalfPow h).highCount
      · rw [if_pos hcount, if_pos ⟨hhigh, hcount⟩, hmoved]
      · rw [if_neg hcount, if_neg (fun hboth => hcount hboth.2), modHalfPow_same]
    · rw [if_neg hhigh, if_neg (fun hboth => hhigh hboth.1), modHalfPow_same]

/-- A frozen half at its supply limit still reports a margin below LOW (R497); any other margin it lets pass. -/
theorem marginReading_frozen (margin : Nat) (hf : (d.getHalfPow h).frozen = true) : marginReading h margin d =
    if decide (margin < Config.marginLow h) ∧ d.setpointOf h = 850 then d.powerEv 5 0 5 h 0 else d := by
  rw [marginReading_eq, Dev.marginTrim, if_pos hf]

theorem marginEmergency_half (d : Dev) (h : Nat) : ((marginEmergency h d).getHalfPow h).emergencies = (d.getHalfPow h).emergencies + 1
    ∧ ((marginEmergency h d).getHalfPow h).trim =
      if (d.getHalfPow h).frozen then (d.getHalfPow h).trim else trimMoved (d.getHalfPow h).trim 10 := by
  unfold marginEmergency
  dsimp only
  obtain ⟨v, n, heq⟩ := moveTrim_getHalfPow (d.modHalfPow h (fun p => { p with emergencies := p.emergencies + 1 })) h 10
  rw [modHalfPow_same] at heq ⊢
  dsimp only at heq ⊢
  split
  · rw [modHalfPow_same]
    exact ⟨rfl, rfl⟩
  · rw [heq]
    exact ⟨rfl, rfl⟩

theorem avsSetpointTimeout_repeats (hb : (d.getHalfPow h).regulatorBad = false) (ht : (d.getHalfPow h).tries < 2) :
    avsSetpointTimeout h d = (d.modHalfPow h (fun p => { p with tries := p.tries + 1 })).emit (.setpoint h (d.getHalfPow h).setpoint) :=
  (if_neg (Bool.eq_false_iff.1 hb)).trans (if_pos ht)

theorem avsSetpointTimeout_gives_up (hb : (d.getHalfPow h).regulatorBad = false) (ht : 2 ≤ (d.getHalfPow h).tries) :
    avsSetpointTimeout h d = (d.modHalfPow h (fun p => { p with regulatorBad := true, tries := 0 })).powerEv 4 0 5 h 0 :=
  (if_neg (Bool.eq_false_iff.1 hb)).trans (if_neg (Nat.not_lt.2 ht))

/-! ## Recalibration (R564) -/

/-- What a recalibration that ends does to its target. -/
def Dev.recalibrated (d : Dev) (kind index : Nat) : Dev :=
  if kind = 2 then (d.modHalfPow index (fun p => { p with frozen := false, regulatorBad := false, tries := 0 })).newSetpoint index else d

theorem calRunDone_eq {kind : Nat} (ok : Bool) (hk : kind = 1 ∨ kind = 2) (hw : d.host.waiting.any (calWaits kind h) = true) :
    calRunDone kind h ok d = (d.recalibrated kind h).saveCal.completeAll (calWaits kind h) (fun _ => {}) := by
  have hlane : kind ≠ 0 := by omega
  unfold calRunDone
  rw [hw, gate_true]
  dsimp only
  rw [if_neg hlane]
  rfl

theorem completeLate_calRec (w : Waiting) (r : Reply) : (d.completeLate w r).flash.calRec = d.flash.calRec := by
  unfold Dev.completeLate
  dsimp only
  obtain ⟨o, q, heq⟩ := completeCmd_shape _ w.ring w.opcode w.tag w.headAfter w.irq w.audited false 0 r
  rw [heq]
  dsimp only
  split
  · rfl
  · rfl

theorem completeAll_calRec (d : Dev) (pick : Waiting → Bool) (r : Waiting → Reply) : (d.completeAll pick r).flash.calRec = d.flash.calRec :=
  each_keeps (fun d => d.flash.calRec) _ (fun _ w => completeLate_calRec w (r w)) _ d

theorem completeAll_powu (d : Dev) (pick : Waiting → Bool) (r : Waiting → Reply) : (d.completeAll pick r).powu = d.powu :=
  each_keeps Dev.powu _ (fun d w => by obtain ⟨o, h, f, q⟩ := completeLate_shape d w (r w); rw [q]) _ d

theorem recalibrated_flash (d : Dev) (kind index : Nat) : (d.recalibrated kind index).flash = d.flash := by
  unfold Dev.recalibrated Dev.newSetpoint
  split
  · split
    · rfl
    · rfl
  · rfl

theorem recalibrated_half (d : Dev) (index : Nat) :
    ((d.recalibrated 2 index).getHalfPow index).frozen = false ∧ ((d.recalibrated 2 index).getHalfPow index).regulatorBad = false := by
  obtain ⟨v, n, heq⟩ := newSetpoint_getHalfPow (d.modHalfPow index (fun p => { p with frozen := false, regulatorBad := false, tries := 0 })) index
  rw [modHalfPow_same] at heq
  rw [Dev.recalibrated, if_pos rfl, heq]
  exact ⟨rfl, rfl⟩

theorem calRunDone_half (ok : Bool) (hw : d.host.waiting.any (calWaits 2 h) = true) :
    ((calRunDone 2 h ok d).getHalfPow h).frozen = false ∧ ((calRunDone 2 h ok d).getHalfPow h).regulatorBad = false := by
  have hpowu : (calRunDone 2 h ok d).powu = (d.recalibrated 2 h).powu := by
    rw [calRunDone_eq ok (.inr rfl) hw, completeAll_powu]
    rfl
  have hhalf : (calRunDone 2 h ok d).getHalfPow h = (d.recalibrated 2 h).getHalfPow h :=
    getHalfPow_of_powu hpowu h
  rw [hhalf]
  exact recalibrated_half d h

/-! ## A frozen half at its supply limit -/

/-- A running device whose half h is frozen with its setpoint at the limit of 850 mV. -/
def frozenAtLimit (h : Nat) : State :=
  ⟨{ Dev.reset with boot.phase := .ready, powu.halves := [(h, { trim := 850, frozen := true })] }, []⟩

theorem frozenAtLimit_half (h : Nat) : (frozenAtLimit h).found.getHalfPow h = { trim := 850, frozen := true } := if_pos rfl

theorem frozenAtLimit_setpoint (h : Nat) : (frozenAtLimit h).found.setpointOf h = 850 := by
  unfold Dev.setpointOf
  rw [frozenAtLimit_half]
  dsimp only
  omega

theorem record_seq (ev : Ev) (n : Nat) : (d.record ev n).evt.seq = wrapAdd 32 d.evt.seq 1 := by
  unfold Dev.record
  dsimp only
  generalize EvRec.mk _ _ _ _ _ _ = r
  split
  · obtain ⟨c, g, q⟩ := eventRing_shape _ r
    rw [q]
  · obtain ⟨c, g, q⟩ := eventRing_shape _ r
    rw [q]

theorem raise_first_seq (ev : Ev) (hr : d.evt.rates = []) : (d.raise ev).evt.seq = wrapAdd 32 d.evt.seq 1 := by
  have hnoted : (d.noteError ev).evt = d.evt := by
    obtain ⟨m, hm⟩ := noteError_shape d ev
    rw [hm]
  unfold Dev.raise
  dsimp only
  rw [hnoted, hr]
  dsimp only [List.find?_nil]
  rw [record_seq]

/-- The event of a margin below LOW takes the first sequence number. -/
theorem marginReading_atLimit {margin : Nat} (hm : margin < Config.marginLow h) : (marginReading h margin (frozenAtLimit h).found).evt.seq = 1 := by
  have hf : ((frozenAtLimit h).found.getHalfPow h).frozen = true := congrArg HalfPower.frozen (frozenAtLimit_half h)
  rw [marginReading_frozen margin hf, if_pos ⟨decide_eq_true hm, frozenAtLimit_setpoint h⟩]
  exact raise_first_seq _ rfl

/-- Such a margin changes the frozen half's device. -/
theorem marginReading_not_gives {margin : Nat} (hm : margin < Config.marginLow h) :
    ¬ Gives (.marginReading h margin) (frozenAtLimit h) (frozenAtLimit h).found := by
  intro hgives
  have hnext := Host.Outcome.next.inj ((live_eq (s := frozenAtLimit h) rfl (marginReading h margin)).symm.trans hgives)
  have hseq := congrArg (fun t : State => t.dev.evt.seq) hnext
  exact absurd ((marginReading_atLimit hm).symm.trans hseq) Nat.one_ne_zero

end

end Sys2Proof.Machine

namespace Sys2Proof.Machine

/-- O44 rests on the fused thresholds LOW, which the model leaves open: it holds just where no margin lies below one. Every clause but
that of a frozen half holds whatever they are. -/
theorem powerSupplyResults_iff : Obligations.PowerSupplyResults ↔ ∀ h, Config.marginLow h = 0 := by
  constructor
  · intro hall h
    obtain ⟨-, -, -, hfrozen, -⟩ := hall (frozenAtLimit h) h rfl
    have hgives := hfrozen 0 (congrArg HalfPower.frozen (frozenAtLimit_half h))
    exact Nat.eq_zero_of_not_pos (fun hpos => marginReading_not_gives hpos hgives)
  · intro hlow s h
    dsimp only
    refine fun hl => ⟨fun raw gravel act sensed => completes_of_live hl rfl ?estimate, fun e => completes_of_live hl rfl (fun r hr => ?coeff),
      fun margin hf => completes_of_live hl rfl ?margin, fun margin hf => gives_of_live hl rfl ?frozen, completes_of_live hl rfl ?emergency,
      fun hb ht => gives_of_live hl rfl (avsSetpointTimeout_repeats hb ht), fun hb ht => completes_of_live hl rfl ?silent,
      fun hw => gives_of_live hl rfl ?energy, fun kind ok hk hw => completes_of_live hl rfl ?cal⟩
    case estimate =>
      rw [settle_pow, powerEstimateTick_est]
      refine ⟨rfl, fun r hr => ?_⟩
      rw [settle_getRail]
      exact estimated_estSum s.found raw gravel act sensed hr
    case coeff =>
      rw [settle_getRail, coeffRecal_getRail e _ hr]
      exact ⟨fun hz => if_pos hz, fun hz => by rw [Rail.recal, if_neg hz]; exact ⟨rfl, rfl⟩⟩
    case margin =>
      rw [settle_getHalfPow, marginReading_getHalfPow]
      refine ⟨marginTrim_trim margin hf, fun k hk => ?_⟩
      rw [settle_getHalfPow, marginReading_getHalfPow, marginTrim_other margin hk]
    case frozen =>
      rw [marginReading_frozen margin hf, if_neg (fun hboth => ?_)]
      have hbelow := of_decide_eq_true hboth.1
      rw [hlow h] at hbelow
      exact Nat.not_lt_zero _ hbelow
    case emergency =>
      rw [settle_getHalfPow]
      exact marginEmergency_half s.found h
    case silent =>
      rw [settle_getHalfPow, settle_pow, avsSetpointTimeout_gives_up hb ht, powerEv_pow, Dev.powerEv, Dev.powerEvAt, raise_getHalfPow,
        modHalfPow_same]
      exact ⟨rfl, rfl, rfl⟩
    case energy => exact if_pos (by rw [hw]; rfl)
    case cal =>
      rw [settle_host, settle_getHalfPow, settle_flash, calRunDone_eq ok hk hw, completeAll_calRec]
      refine ⟨completeAll_none _ _ _, fun htwo => ?_, congrArg TwoCopy.commit (congrArg Flash.calRec (recalibrated_flash s.found kind h))⟩
      subst htwo
      rw [← calRunDone_eq ok hk hw]
      exact calRunDone_half ok hw

end Sys2Proof.Machine
